-- ==== Sys2Proof/Word.lean ====
section
/-! DEFINITION. The word types of the 640: bytes, 16-, 32- and 64-bit words, and the numbers of its lines and links. -/

namespace Sys2Proof

/-- One byte. -/
abbrev Byte := BitVec 8

/-- A 16-bit field: a version, a generation, a tag, a page number. -/
abbrev U16 := BitVec 16

/-- A 32-bit field: a register, a CRC-32, a counter. -/
abbrev U32 := BitVec 32

/-- A 64-bit host address or an answer mask. -/
abbrev U64 := BitVec 64

/-- A press line, 0 to 63 (00_scope.md section 6, "Numbering"). -/
abbrev LineId := Fin 64

/-- A plate link, 0 to 3 (00_scope.md section 6, "Numbering"). -/
abbrev LinkId := Fin 4

end Sys2Proof
end

