-- ==== Sys2Proof/Syntax.lean ====
section
/-! DEFINITION. The commands of the 640, one constructor for each row of spec/opcode_table.json, with their operands. -/

namespace Sys2Proof

/-- One contiguous buffer of a payload in host memory (R3, R178). -/
structure Extent where
  addr : U64
  len  : U32
deriving DecidableEq, Repr

/-- The identity of a page across its versions (R1). -/
structure PageKey where
  edition : Byte
  zone    : Byte
  section_ : Byte
  page    : U16
deriving DecidableEq, Repr

/-- The body of a SET LINK record (R138, R178). -/
structure SetLinkBody where
  link    : Byte
  enable  : Bool
  rate    : U32
  guardMs : U32
  silence : U32
deriving DecidableEq, Repr

/-- The body of a SET PRESS LINE record (R125, R178). `hops` holds the hop bytes that the hop count says are read. -/
structure SetLineBody where
  line      : Byte
  enable    : Bool
  primary   : Byte
  secondary : Byte
  link      : Byte
  hopCount  : Byte
  hops      : List Byte
  rollBit   : Byte
  sense     : Byte
  alternate : Option Byte
  warnLead  : U32
  extension : U32
deriving DecidableEq, Repr

/-- The body of a SET CLOCK record (R112, R178). -/
structure SetClockBody where
  value  : U32
  source : Byte
deriving DecidableEq, Repr

/-- The host's part of a destination entry (R3, R178). -/
structure DestEntry where
  line     : Byte
  override : Option U32
deriving DecidableEq, Repr

/-- The body of a CONSIGN record (R3, R178). The counts are the record's own; the lists hold what was read. -/
structure ConsignBody where
  key         : PageKey
  version     : U16
  generation  : U16
  deadline    : U32
  release     : Option U32
  policy      : Byte
  statedCrc   : Option U32
  size        : U32
  extentCount : Byte
  destCount   : Byte
  extents     : List Extent
  dests       : List DestEntry
deriving DecidableEq, Repr

/-- The body of a WITHDRAW record (R16, R178). -/
structure WithdrawBody where
  key     : PageKey
  version : U16
deriving DecidableEq, Repr

/-- The host's part of a target entry (R49, R178). -/
structure TargetEntry where
  line        : Byte
  push        : Bool
  statedCrc   : Option U32
  size        : U32
  extentCount : Byte
  extents     : List Extent
deriving DecidableEq, Repr

/-- The body of an ISSUE TARGET record (R49, R178). -/
structure IssueTargetBody where
  generation : U16
  entryCount : Byte
  entries    : List TargetEntry
deriving DecidableEq, Repr

/-- One order as the walk read it, by its kind (R168, R177). -/
inductive Order where
  | setLink (b : SetLinkBody)
  | setLine (b : SetLineBody)
  | setClock (b : SetClockBody)
  | consign (b : ConsignBody)
  | withdraw (b : WithdrawBody)
  | issueTarget (b : IssueTargetBody)
  | rollCall (link : Byte)
  | queryLine (line : Byte)
  | badKind (kind : Byte)
deriving DecidableEq, Repr

/-- A complete frame as it arrived on a link (R144, R179), but for its kind byte, which the command names.
`path` is the path field as the relays left it, `length` the payload-length field, `crc` the CRC-16 received. -/
structure InFrame where
  path    : List Byte
  dest    : Byte
  src     : Byte
  flags   : Byte
  tag     : U16
  value   : U32
  length  : U16
  payload : List Byte
  crc     : U16
deriving DecidableEq, Repr

/-- What a DMA read made by the walk returns (R164, R166): an error, or the bytes from the address read on. -/
inductive ReadReturn where
  | error
  | data (bytes : List Byte)
deriving DecidableEq, Repr

/-- The width of a register access (R162: an access of any other width than 32 bits is completed and ignored). -/
inductive AccessWidth where
  | byte | half | word | double
deriving DecidableEq, Repr

/-- The half of a 64-bit register that an access names (R162). -/
inductive Half where
  | lo | hi
deriving DecidableEq, Repr

/-- The commands, in the order of spec/opcode_table.json. The order commands carry their record's host address. -/
inductive Instr where
  | powerOnReset
  | pcieFundamentalReset
  | controlReset (word : U32)
  | runSet (mask : BitVec 9)
  | runClear (mask : BitVec 9)
  | attentionMaskWrite (run : Bool) (mask : BitVec 9)
  | attentionRead
  | deskBaseWrite (lo : U32)
  | chainLimitWrite (lo : U32)
  | chainCursorRead (half : Half)
  | registerWrite (offset : BitVec 12) (width : AccessWidth) (value : U32)
  | walkStep
  | heldTakeResume
  | setLink (addr : U64) (b : SetLinkBody)
  | setPressLine (addr : U64) (b : SetLineBody)
  | setClock (addr : U64) (b : SetClockBody)
  | consign (addr : U64) (b : ConsignBody)
  | withdraw (addr : U64) (b : WithdrawBody)
  | issueTarget (addr : U64) (b : IssueTargetBody)
  | rollCall (addr : U64) (link : Byte)
  | queryLine (addr : U64) (line : Byte)
  | badKind (addr : U64) (kind : Byte)
  | verifyPassEnd (payload : List Byte)
  | verifyReadError
  | sendReadError (rec : Fin 1024)
  | targetReadError (line : LineId)
  | clockAdvance
  | syncPulse
  | holdEnd
  | lossTimerExpiry
  | warnFiring
  | missFiring
  | releaseFiring
  | receiptTimeout (rec : Fin 1024)
  | releaseTimeout (rec : Fin 1024)
  | withdrawTimeout (rec : Fin 1024)
  | confirmTimeout (line : LineId)
  | windowTimeout (link : LinkId)
  | silenceTimeout (link : LinkId)
  | lossOfSignal (link : LinkId)
  | retryTimeout (link : LinkId)
  | queryTimeout (line : LineId)
  | rollWindowClose (link : LinkId)
  | requeryTimeout (line : LineId)
  | credit (link : LinkId) (f : InFrame)
  | ckptAck (link : LinkId) (f : InFrame)
  | receipt (link : LinkId) (f : InFrame)
  | outboundKindReceived (link : LinkId) (kind : Byte) (f : InFrame)
  | targetConfirm (link : LinkId) (f : InFrame)
  | releaseAck (link : LinkId) (f : InFrame)
  | withdrawAck (link : LinkId) (f : InFrame)
  | status (link : LinkId) (f : InFrame)
  | rollAnswer (link : LinkId) (f : InFrame)
  | echo (link : LinkId) (f : InFrame)
  | frameLeft (link : LinkId)
  | walkReadReturn (r : ReadReturn)
deriving DecidableEq, Repr

end Sys2Proof
end

