-- ==== Sys2Proof/Decode.lean ====
section
/-! DEFINITION. The command that a word spells. spec/opcode_table.json gives none of its rows any bits (the commands are register
accesses, frames, reads and events, not words), so no word spells one. -/

namespace Sys2Proof

/-- No row of the table has bits, so every word is refused (log entry 32). -/
def decodeTableWord (_nbits _w : Nat) : Option Instr := none

end Sys2Proof
end

