-- ==== Sys2Proof/Machine/Bytes.lean ====
section
/-! DEFINITION. Byte orders, saturating counters and the two CRCs (R8, R145). -/

namespace Sys2Proof.Machine

/-- `n` as `k` bytes, least significant first: registers and records in host memory (00_scope.md section 6). -/
def leBytes : Nat → Nat → List Byte
  | 0, _ => []
  | k + 1, n => BitVec.ofNat 8 n :: leBytes k (n / 256)

/-- `n` as `k` bytes, most significant first: the fields of frames (00_scope.md section 6). -/
def beBytes (k n : Nat) : List Byte :=
  (leBytes k n).reverse

/-- The number whose bytes, least significant first, are given. -/
def leNat : List Byte → Nat
  | [] => 0
  | b :: bs => b.toNat + 256 * leNat bs

/-- The number whose bytes, most significant first, are given. -/
def beNat (bs : List Byte) : Nat :=
  leNat bs.reverse

/-- `k` bytes of `bs` from `off` on, as a little-endian number; bytes past the end are not there to be read. -/
def fieldNat (bs : List Byte) (off k : Nat) : Nat :=
  leNat ((bs.drop off).take k)

/-- The byte of `bs` at `off`. -/
def fieldByte (bs : List Byte) (off : Nat) : Byte :=
  BitVec.ofNat 8 (fieldNat bs off 1)

/-- Counters are 32 bits wide and saturate at 4,294,967,295 (00_scope.md section 6). -/
def satAdd (c : U32) (n : Nat) : U32 :=
  BitVec.ofNat 32 (min (c.toNat + n) 4294967295)

/-- A counter that grows by one. -/
def satInc (c : U32) : U32 :=
  satAdd c 1

/-- A Bool as one bit of a flags byte. -/
def flagBit (b : Bool) (n : Nat) : Nat :=
  if b then 2 ^ n else 0

/-- Whether bit `n` of a flags byte is set. -/
def bitSet (b : Byte) (n : Nat) : Bool :=
  b.getLsbD n

/-- One bit of R8: the register's lowest bit is compared with the data bit, and the register is shifted down. -/
def crc32Bit (reg : U32) (bit : Bool) : U32 :=
  if reg.getLsbD 0 != bit then (reg >>> 1) ^^^ 0xEDB88320#32 else reg >>> 1

/-- One byte of R8, least significant bit first. -/
def crc32Byte (reg : U32) (b : Byte) : U32 :=
  [0, 1, 2, 3, 4, 5, 6, 7].foldl (fun r i => crc32Bit r (b.getLsbD i)) reg

/-- The CRC-32 of a payload (R8). -/
def crc32 (payload : List Byte) : U32 :=
  ~~~(payload.foldl crc32Byte 0xFFFFFFFF#32)

/-- One bit of R145: the register's highest bit is compared with the data bit, and the register is shifted up. -/
def crc16Bit (reg : U16) (bit : Bool) : U16 :=
  if reg.getLsbD 15 != bit then (reg <<< 1) ^^^ 0x1021#16 else reg <<< 1

/-- One byte of R145, most significant bit first. -/
def crc16Byte (reg : U16) (b : Byte) : U16 :=
  [7, 6, 5, 4, 3, 2, 1, 0].foldl (fun r i => crc16Bit r (b.getLsbD i)) reg

/-- The CRC-16 of a frame's fixed header and payload (R145). -/
def crc16 (bytes : List Byte) : U16 :=
  bytes.foldl crc16Byte 0xFFFF#16

end Sys2Proof.Machine
end

