-- ==== Sys2Proof/Config.lean ====
section
/-! DEFINITION. The fixed quantities of the part, each from the rule it names, and the model's one free value. -/

namespace Sys2Proof.Config

/-- The page table has 128 entries (R1). -/
def pageEntries : Nat := 128

/-- The destination pool holds 1,024 records (R21). -/
def poolRecords : Nat := 1024

/-- Tags from here on name target slots (R21, R58). -/
def slotTagBase : Nat := 1024

/-- Tags from here on name no transfer (R149). -/
def noTagFrom : Nat := 1088

/-- The largest press time and the largest 32-bit count, 4,294,967,295 (R109, 00_scope.md section 6). -/
def maxU32 : Nat := 4294967295

/-- A payload goes out in frames of 1,024 bytes (R79). -/
def frameBytes : Nat := 1024

/-- A checkpoint stands at every multiple of 65,536 bytes (R81). -/
def checkpointBytes : Nat := 65536

/-- The window is full at 262,144 unacknowledged bytes (R82). -/
def windowBytes : Nat := 262144

/-- Receipt, release, withdraw and confirm timers start at 2,000 ms (R28, R34, R37, R59). -/
def replyMs : Nat := 2000

/-- The window timer starts at 2,000 ms (R82). -/
def windowMs : Nat := 2000

/-- A DOWN link tries again after 1,000 ms (R140). -/
def retryMs : Nat := 1000

/-- The loss timer starts at 3,000 ms at each accepted pulse (R118). -/
def lossMs : Nat := 3000

/-- A roll-call window is open for 250 ms (R152). -/
def rollMs : Nat := 250

/-- A status query waits 500 ms (R152). -/
def queryMs : Nat := 500

/-- The re-query interval, 5,000 ms (R160). -/
def requeryMs : Nat := 5000

/-- A roll-call window holds at most 8 pending orders (R152). -/
def rollOrders : Nat := 8

/-- A status query holds at most 4 pending orders (R152). -/
def queryOrders : Nat := 4

/-- A CREDIT grants exactly 8 (R142). -/
def creditGrant : Nat := 8

/-- A link holds at most 64 credits (R142). -/
def creditMax : Nat := 64

/-- At most three attempts, and three sends of a RELEASE or WITHDRAW (R30, R34, R37, R61). -/
def maxAttempts : Nat := 3

/-- IDENT reads 0x0640_0101 (R162). -/
def ident : U32 := 0x06400101#32

/-- FREE VALUE (log entry 8). The elapsed time base after the count has passed its largest value: R110 says that it
does not reach that value in the service life of the part and states no successor. It is applied to State's
`freeDraws`, so each such step has a value of its own, and nothing constrains any of them. -/
opaque elapsedPastEnd : Nat → BitVec 48

end Sys2Proof.Config
end

