-- ==== Sys2Proof/Machine/Table.lean ====
section
/-! DEFINITION. Sparse tables by number, used for the page entries and destination records that are in use:
a list of (number, value) with rising numbers, so that equal tables are equal lists. -/

namespace Sys2Proof.Machine

/-- A sparse table: what stands at a number that is not listed is free. -/
abbrev Table (α : Type) := List (Nat × α)

/-- The value at `n`, absent where `n` is free. -/
def Table.get {α : Type} : Table α → Nat → Option α
  | [], _ => none
  | (k, a) :: t, n => if k = n then some a else Table.get t n

/-- Puts `a` at `n`, in its place by number. -/
def Table.put {α : Type} : Table α → Nat → α → Table α
  | [], n, a => [(n, a)]
  | (k, b) :: t, n, a =>
    if n < k then (n, a) :: (k, b) :: t
    else if k = n then (n, a) :: t
    else (k, b) :: Table.put t n a

/-- Frees `n`. -/
def Table.del {α : Type} (t : Table α) (n : Nat) : Table α :=
  t.filter fun e => e.1 != n

/-- Changes the value at `n` where there is one. -/
def Table.modify {α : Type} : Table α → Nat → (α → α) → Table α
  | [], _, _ => []
  | (k, a) :: t, n, f => if k = n then (k, f a) :: t else (k, a) :: Table.modify t n f

/-- The numbers in use, rising. -/
def Table.keys {α : Type} (t : Table α) : List Nat :=
  t.map fun e => e.1

/-- The canonical form: the numbers rise strictly. -/
def Table.rising {α : Type} : Table α → Bool
  | [] => true
  | [_] => true
  | (k, _) :: (j, b) :: t => decide (k < j) && Table.rising ((j, b) :: t)

end Sys2Proof.Machine
end

