-- ==== Sys2Proof/Machine/State.lean ====
section
/-! DEFINITION. The state of the 640 as plain data, block by block (00_scope.md section 3.1), the reasons a step can
stop, and the state right after reset. Every 'reset' value below is the rule's own unless its comment names a log entry. -/

namespace Sys2Proof.Machine

/-! ### Order unit (10_orders_the_desk_and_attention.md) -/

/-- R164. -/
inductive PartState where
  | unset | ready | running | chainFault
deriving DecidableEq, Repr

/-- R167. -/
inductive FaultCode where
  | none | nullNext | misaligned | staleRecord | readError
deriving DecidableEq, Repr

/-- The read of the walk that is in flight (R164, R166). -/
inductive WalkRead where
  | idle
  | nextField
  | record (addr : U64)
deriving DecidableEq, Repr

/-- The two orders whose take can be held (R168). -/
inductive HeldOrder where
  | rollCall (link : LinkId)
  | queryLine (line : LineId)
deriving DecidableEq, Repr

/-- A held take (R168). `ended`: the window or query it waits on has ended, so the record may be taken afresh. -/
structure HeldTake where
  addr  : U64
  order : HeldOrder
  ended : Bool
deriving DecidableEq, Repr

/-- The registers and the walk (R162 to R169, R171, R173). `stopping`: RUN was cleared while a read was in flight or a
take was held (R164). -/
structure OrderUnit where
  part        : PartState
  run         : Bool
  mask        : BitVec 9
  attention   : BitVec 9
  deskBase    : U64
  deskHi      : U32
  chainLimit  : U64
  limitHi     : U32
  cursor      : U64
  capture     : Option U64
  walkStarted : Bool
  faultCode   : FaultCode
  walk        : WalkRead
  stopping    : Bool
  held        : Option HeldTake
  completions : U32
deriving DecidableEq, Repr

/-- The five desk counters, in the order of the counters area (R172, R176). -/
structure DeskCounters where
  predictedLates  : U32
  fallbacksMade   : U32
  fallbacksFailed : U32
  syncRejected    : U32
  verifyPasses    : U32
deriving DecidableEq, Repr

/-- One write to host memory by DMA, or the MSI, which is itself such a write (R170). -/
inductive BusWrite where
  | write (addr : U64) (bytes : List Byte)
  | msi
deriving DecidableEq, Repr

/-! ### Press clock (06_the_press_clock.md) -/

/-- R109. -/
inductive ClockSource where
  | internal | station
deriving DecidableEq, Repr

/-- R109. -/
inductive SyncState where
  | free | acquiring | locked | holdover
deriving DecidableEq, Repr

/-- R109, R110; `snapshot` is the press clock snapshot of the desk summary (R119, R172). A hold or loss timer of 0 has
run out and its end waits to be taken (log entries 3 and 5). -/
structure Clock where
  value      : Nat
  source     : ClockSource
  sync       : SyncState
  hold       : Option Nat
  loss       : Option Nat
  clockUnset : Bool
  clockEnd   : Bool
  snapshot   : Nat
  elapsed    : BitVec 48
deriving DecidableEq, Repr

/-! ### Pages and the verify engine (01_pages_and_versions.md) -/

/-- R1, R178. -/
inductive LatePolicy where
  | continue_ | drop | fallback
deriving DecidableEq, Repr

/-- R1. -/
inductive PageState where
  | verifyQueued | verifying | active | retiring
deriving DecidableEq, Repr

/-- Why a payload is bad: SOURCE_MISMATCH or SOURCE_READ (R10, R11, R46). -/
inductive SourceFault where
  | mismatch | read
deriving DecidableEq, Repr

/-- R1; a FAULTED page keeps the detail its disposition will carry (R18). -/
inductive RetireCause where
  | superseded | withdrawn | faulted (why : SourceFault)
deriving DecidableEq, Repr

/-- A page-table entry in use (R1). -/
structure Page where
  key         : PageKey
  version     : U16
  generation  : U16
  deadline    : Nat
  release     : Option Nat
  policy      : LatePolicy
  statedCrc   : Option U32
  computedCrc : Option U32
  size        : Nat
  extents     : List Extent
  dests       : List Nat
  orderAddr   : U64
  state       : PageState
  cause       : Option RetireCause
deriving DecidableEq, Repr

/-- An item of the verify queue: a page entry, or a line's catalog entry named by its generation (R6). -/
inductive VerifyItem where
  | page (p : Nat)
  | target (line : LineId) (generation : U16)
deriving DecidableEq, Repr

/-- The verify queue, head first, and the item being read (R6, R7). -/
structure VerifyEngine where
  queue : List VerifyItem
  busy  : Option VerifyItem
deriving DecidableEq, Repr

/-! ### Destination pool (02_destinations_and_delivery.md) -/

/-- The thirteen states of 2.2, live states first (R22, R24). -/
inductive DestState where
  | verifyWait | targetWait | queued | sending | receiptWait | delivered | releasing | withdrawing
  | released | failed | stale | missed | withdrawn
deriving DecidableEq, Repr

/-- The final states a retraction can end in (R36). -/
inductive RetractEnd where
  | failed | stale | missed | withdrawn
deriving DecidableEq, Repr

/-- R41, codes 0 to 14 in order. -/
inductive Detail where
  | none | noGoodReceipt | noReleaseAck | lineGone | sourceMismatch | sourceRead | targetUndelivered
  | targetSource | unconfirmed | superseded | byOrder | fallbackNone | fallbackPoolFull
  | fallbackLineUnusable | fallbackAlreadyDestination
deriving DecidableEq, Repr

/-- The reply timer of a record (R22): stopped, running, or paused with the milliseconds it had left (R31). -/
inductive ReplyTimer where
  | stopped
  | running (left : Nat)
  | paused (left : Nat)
deriving DecidableEq, Repr

/-- What became of a record's fallback (R43): none asked for, failed with one of the codes 11 to 14, or made. -/
inductive FallbackInfo where
  | none
  | failed (why : Detail)
  | made (rec : Nat)
deriving DecidableEq, Repr

/-- A destination record in use (R22). -/
structure DestRec where
  parent      : Nat
  line        : LineId
  deadline    : Nat
  state       : DestState
  late        : Bool
  missed      : Bool
  siteHasData : Bool
  isFallback  : Bool
  attempts    : Nat
  sent        : Nat
  acked       : Nat
  latestStart : Nat
  seq         : Nat
  origin      : Option Nat
  retract     : Option (RetractEnd × Detail)
  detail      : Detail
  sendCount   : Nat
  timer       : ReplyTimer
  entryAddr   : U64
  fallback    : FallbackInfo
deriving DecidableEq, Repr

/-! ### Deadline monitor (05_deadlines_and_fallback.md) -/

/-- R92. -/
inductive DeadlineKind where
  | warn | miss | release
deriving DecidableEq, Repr

/-- One entry of the deadline list (R92). -/
structure DeadlineEntry where
  due  : Nat
  dest : Nat
  kind : DeadlineKind
deriving DecidableEq, Repr

/-! ### Target catalog, press-line table and status queries (03, 07, 09) -/

/-- R46. -/
inductive CatState where
  | verifyQueued | verifying | ready | faulted
deriving DecidableEq, Repr

/-- A catalog entry (R46). `report` is the host address of its target entry with the number of its order in `targetOrders`, which holds
the address of the order record; it is absent once the order is final. -/
structure CatEntry where
  generation  : U16
  size        : Nat
  extents     : List Extent
  statedCrc   : Option U32
  computedCrc : Option U32
  state       : CatState
  faultDetail : Option SourceFault
  push        : Bool
  report      : Option (U64 × Nat)
deriving DecidableEq, Repr

/-- The states of a loaded target slot; IDLE is the absence of one (3.4, R58). -/
inductive SlotState where
  | queued | sending | confirmWait
deriving DecidableEq, Repr

/-- A target slot out of IDLE (R58). -/
structure Slot where
  state       : SlotState
  generation  : U16
  attempts    : Nat
  sent        : Nat
  acked       : Nat
  latestStart : Nat
  seq         : Nat
  urgent      : Bool
  siteHasData : Bool
  timer       : Option Nat
deriving DecidableEq, Repr

/-- An ISSUE TARGET order that is not final: the model's number of it, as two such orders may stand at one address (R170), the address
of its record, how many of its entries have not reached READY, FAULTED or DROPPED, and how many faulted (R53, log entry 26). -/
structure TargetOrder where
  number  : Nat
  addr    : U64
  notDone : Nat
  faulted : Nat
deriving DecidableEq, Repr

/-- R121. -/
inductive LineState where
  | unconfigured | unreachable | unknown | ready | held
deriving DecidableEq, Repr

/-- The configuration of a press line (R121). -/
structure LineConfig where
  primary   : Byte
  secondary : Byte
  link      : LinkId
  path      : List Byte
  rollBit   : Fin 64
  sense     : Bool
  warnLead  : Nat
  alternate : Option LineId
  extension : Nat
deriving DecidableEq, Repr

/-- An outstanding status query: its timer and the QUERY LINE orders waiting for it, in take order (R152). -/
structure Query where
  timer   : Nat
  pending : List U64
deriving DecidableEq, Repr

/-- All that the press-line table (R121), the target catalog (R46, R47, R58) and the poll unit (R152) keep for one line.
The line's query outstanding field is `query.isSome` (R152). -/
structure Line where
  enabled     : Bool
  cfg         : LineConfig
  state       : LineState
  statusByte  : Byte
  timeouts    : Nat
  changeCount : U32
  held        : U16
  catalog     : List CatEntry
  slot        : Option Slot
  owed        : Option U16
  query       : Option Query
  requery     : Option Nat
deriving DecidableEq, Repr

/-! ### Transfers, plate links and roll calls (04, 08, 09) -/

/-- A transfer: a destination record or a line's target slot (04_transfer_scheduling.md, opening). -/
inductive Xfer where
  | dest (rec : Nat)
  | slot (line : LineId)
deriving DecidableEq, Repr

/-- Part of an extent, to be read by DMA (R79). -/
structure Slice where
  addr : U64
  len  : Nat
deriving DecidableEq, Repr

/-- A frame's payload: bytes the 640 composes, or, for DATA, where in host memory its bytes are read (R79; log entry 15). -/
inductive Payload where
  | bytes (b : List Byte)
  | dma (slices : List Slice)
deriving DecidableEq, Repr

/-- A frame the 640 sends (R144), less the lengths and the CRC-16 that follow from it. -/
structure Frame where
  path    : List Byte
  dest    : Byte
  src     : Byte
  kind    : Byte
  flags   : Byte
  tag     : U16
  value   : U32
  payload : Payload
deriving DecidableEq, Repr

/-- A control frame waiting to be sent (R143). Address and path are read when it starts (R123). -/
inductive CtlFrame where
  | release (rec : Nat) (line : LineId) (key : PageKey) (version : U16)
  | withdraw (rec : Nat) (line : LineId) (key : PageKey) (version : U16)
  | targetWithdraw (line : LineId) (generation : U16)
  | query (line : LineId)
  | roll
  | mark (count : Nat) (value : Nat)
deriving DecidableEq, Repr

/-- What the departure of the frame on the wire does (R79, R86). A DATA frame with `acts` false belongs to a transfer that
was stopped while it was on the wire (R87). -/
inductive WireRole where
  | control
  | openFrame
  | data (x : Xfer) (endOffset : Nat) (checkpoint : Bool) (last : Bool) (acts : Bool)
deriving DecidableEq, Repr

/-- The frame on the wire (R136, R143). -/
structure WireFrame where
  frame : Frame
  role  : WireRole
deriving DecidableEq, Repr

/-- The nine counters of a link, in their table's order (R150). -/
structure LinkCounters where
  framesSent     : U32
  framesReceived : U32
  crcRejects     : U32
  misrouted      : U32
  unknownSource  : U32
  staleTag       : U32
  staleEcho      : U32
  rewinds        : U32
  creditOverflow : U32
deriving DecidableEq, Repr

/-- R137. -/
inductive LinkState where
  | disabled | connecting | up | down
deriving DecidableEq, Repr

/-- The status lamp of a port (R137). -/
inductive Lamp where
  | off | slowFlash | steady | fastFlash
deriving DecidableEq, Repr

/-- An open roll-call window (R152). -/
structure RollWindow where
  timer   : Nat
  mask    : U64
  answers : Nat
  pending : List U64
deriving DecidableEq, Repr

/-- A plate link (R136), with the scheduler's state for it (R69, R78, R83, R91) and its roll-call window (R152).
`first` and `firstSlack` are the mirror's fields for the first transfer of the queue, `sendingSlack` that of the SENDING
transfer (R91). -/
structure Link where
  state         : LinkState
  rate          : Nat
  guardMs       : Nat
  silenceLimit  : Nat
  credit        : Nat
  markCount     : Nat
  silence       : Option Nat
  retry         : Option Nat
  control       : List CtlFrame
  wire          : Option WireFrame
  counters      : LinkCounters
  queue         : List Xfer
  sending       : Option Xfer
  windowTimer   : Option Nat
  lastCkpt      : Option Nat
  openOwed      : Bool
  rewindPending : Bool
  sendingSlack  : Int
  first         : Option Xfer
  firstSlack    : Int
  roll          : Option RollWindow
deriving DecidableEq, Repr

/-! ### The whole state -/

/-- The state of the part, with the queue of commands that are waiting. `bus` (newest first), `readData`, `freeDraws` and
`pending` are the model's own fields (log entries 6, 7, 8). -/
structure State where
  pending      : List Instr
  order        : OrderUnit
  counters     : DeskCounters
  clock        : Clock
  pages        : Table Page
  verify       : VerifyEngine
  recs         : Table DestRec
  free         : List Nat
  deadlines    : List DeadlineEntry
  lines        : Vector Line 64
  targetOrders : List TargetOrder
  links        : Vector Link 4
  seqNext      : Nat
  bus          : List BusWrite
  readData     : U32
  freeDraws    : Nat
deriving DecidableEq, Repr

/-- The reasons for which the part stops. There is none: no rule of the spec stops the part, and every command the model
gives a meaning ends in a next state or in a refusal of Refusal. -/
inductive Fault where
deriving DecidableEq, Repr

/-- The commands the model does not run. -/
inductive Refusal where
  /-- Raised by `exec` for a command that has no meaning yet (none is left). Safe: nothing is claimed of it. -/
  | notModelled (mnemonic : String)
  /-- Raised by WALK_READ_RETURN when the bytes given are fewer than the read asked for, which no bus delivers
  (log entry 2). Safe: the hardware never sees such a return. -/
  | shortRead (given : Nat) (needed : Nat)
deriving DecidableEq, Repr

/-! ### Reset -/

/-- R173. -/
def OrderUnit.reset : OrderUnit where
  part := .unset
  run := false
  mask := 0
  attention := 0
  deskBase := 0
  deskHi := 0
  chainLimit := 0
  limitHi := 0
  cursor := 0
  capture := none
  walkStarted := false
  faultCode := .none
  walk := .idle
  stopping := false
  held := none
  completions := 0

/-- R172. -/
def DeskCounters.reset : DeskCounters where
  predictedLates := 0
  fallbacksMade := 0
  fallbacksFailed := 0
  syncRejected := 0
  verifyPasses := 0

/-- R109, R110; the snapshot's 0 is log entry 7. -/
def Clock.reset : Clock where
  value := 0
  source := .internal
  sync := .free
  hold := none
  loss := none
  clockUnset := true
  clockEnd := false
  snapshot := 0
  elapsed := 0

/-- The configuration of a line that is not enabled carries no meaning (R121); its zeros are log entry 7. -/
def LineConfig.reset : LineConfig where
  primary := 0
  secondary := 0
  link := 0
  path := []
  rollBit := 0
  sense := false
  warnLead := 0
  alternate := none
  extension := 0

/-- R121, R46, R47, R58, R152. -/
def Line.reset : Line where
  enabled := false
  cfg := LineConfig.reset
  state := .unconfigured
  statusByte := 0
  timeouts := 0
  changeCount := 0
  held := 0
  catalog := []
  slot := none
  owed := none
  query := none
  requery := none

/-- R150. -/
def LinkCounters.reset : LinkCounters where
  framesSent := 0
  framesReceived := 0
  crcRejects := 0
  misrouted := 0
  unknownSource := 0
  staleTag := 0
  staleEcho := 0
  rewinds := 0
  creditOverflow := 0

/-- R136, R69, R152; the mirror's slacks of 0 are log entry 7. -/
def Link.reset : Link where
  state := .disabled
  rate := 64
  guardMs := 0
  silenceLimit := 3000
  credit := 0
  markCount := 0
  silence := none
  retry := none
  control := []
  wire := none
  counters := LinkCounters.reset
  queue := []
  sending := none
  windowTimer := none
  lastCkpt := none
  openOwed := false
  rewindPending := false
  sendingSlack := 0
  first := none
  firstSlack := 0
  roll := none

/-- The part right after reset (R1, R6, R7, R21, R69, R92, R109, R121, R136, R152, R173), with no command waiting. -/
def State.reset : State where
  pending := []
  order := OrderUnit.reset
  counters := DeskCounters.reset
  clock := Clock.reset
  pages := []
  verify := ⟨[], none⟩
  recs := []
  free := List.range Config.poolRecords
  deadlines := []
  lines := Vector.replicate 64 Line.reset
  targetOrders := []
  links := Vector.replicate 4 Link.reset
  seqNext := 0
  bus := []
  readData := 0
  freeDraws := 0

end Sys2Proof.Machine
end

