-- ==== Sys2Proof/Machine/Flags.lean ====
section
/-! DEFINITION. Every code, flag and bit the 640 shows software or a site: cause bits, state codes, dispositions, details,
frame kinds and frame flags (R41, R53, R162, R167, R169, R171, R174, R176, R179, R180). -/

namespace Sys2Proof.Machine

/-! ### Attention causes (R171) -/

/-- The nine causes, in bit order. -/
inductive Cause where
  | orderFinal | lineChanged | linkChanged | late | missed | fault | chain | clock | inbound
deriving DecidableEq, Repr

/-- The cause's bit number in ATTENTION. -/
def Cause.bit : Cause → Nat
  | .orderFinal => 0
  | .lineChanged => 1
  | .linkChanged => 2
  | .late => 3
  | .missed => 4
  | .fault => 5
  | .chain => 6
  | .clock => 7
  | .inbound => 8

/-- The cause as a set of one bit. -/
def Cause.bits (c : Cause) : BitVec 9 :=
  1#9 <<< c.bit

/-! ### Dispositions and refusal details (R169) -/

inductive Disposition where
  | new | taken | done | adjusted | refused | superseded | withdrawn | faulted
deriving DecidableEq, Repr

def Disposition.code : Disposition → Nat
  | .new => 0
  | .taken => 1
  | .done => 2
  | .adjusted => 3
  | .refused => 4
  | .superseded => 5
  | .withdrawn => 6
  | .faulted => 7

inductive RefusalDetail where
  | badKind | badField | tableFull | poolFull | oldVersion | noSuchPage | lineUnconfigured | lineBusy
  | oldGeneration | linkNotUp | lineUnusable
deriving DecidableEq, Repr

def RefusalDetail.code : RefusalDetail → Nat
  | .badKind => 1
  | .badField => 2
  | .tableFull => 3
  | .poolFull => 4
  | .oldVersion => 5
  | .noSuchPage => 6
  | .lineUnconfigured => 7
  | .lineBusy => 8
  | .oldGeneration => 9
  | .linkNotUp => 10
  | .lineUnusable => 11

/-! ### Destination states and details (2.2, R36, R41) -/

def DestState.code : DestState → Nat
  | .verifyWait => 1
  | .targetWait => 2
  | .queued => 3
  | .sending => 4
  | .receiptWait => 5
  | .delivered => 6
  | .releasing => 7
  | .withdrawing => 8
  | .released => 9
  | .failed => 10
  | .stale => 11
  | .missed => 12
  | .withdrawn => 13

/-- The states from which a record does not move (2.2). -/
def DestState.isFinal : DestState → Bool
  | .released | .failed | .stale | .missed | .withdrawn => true
  | .verifyWait | .targetWait | .queued | .sending | .receiptWait | .delivered | .releasing | .withdrawing => false

/-- The state a retraction ends in (R36). -/
def RetractEnd.state : RetractEnd → DestState
  | .failed => .failed
  | .stale => .stale
  | .missed => .missed
  | .withdrawn => .withdrawn

def Detail.code : Detail → Nat
  | .none => 0
  | .noGoodReceipt => 1
  | .noReleaseAck => 2
  | .lineGone => 3
  | .sourceMismatch => 4
  | .sourceRead => 5
  | .targetUndelivered => 6
  | .targetSource => 7
  | .unconfirmed => 8
  | .superseded => 9
  | .byOrder => 10
  | .fallbackNone => 11
  | .fallbackPoolFull => 12
  | .fallbackLineUnusable => 13
  | .fallbackAlreadyDestination => 14

/-- SOURCE_MISMATCH and SOURCE_READ as details (R41, R53). -/
def SourceFault.detail : SourceFault → Detail
  | .mismatch => .sourceMismatch
  | .read => .sourceRead

/-! ### Codes of the registers and the desk (R162, R167, R176) -/

def PartState.code : PartState → Nat
  | .unset => 0
  | .ready => 1
  | .running => 2
  | .chainFault => 3

def FaultCode.code : FaultCode → Nat
  | .none => 0
  | .nullNext => 1
  | .misaligned => 2
  | .staleRecord => 3
  | .readError => 4

def SyncState.code : SyncState → Nat
  | .free => 0
  | .acquiring => 1
  | .locked => 2
  | .holdover => 3

def LinkState.code : LinkState → Nat
  | .disabled => 0
  | .connecting => 1
  | .up => 2
  | .down => 3

/-- The status lamp of a port (R137). -/
def LinkState.lamp : LinkState → Lamp
  | .disabled => .off
  | .connecting => .slowFlash
  | .up => .steady
  | .down => .fastFlash

def LineState.code : LineState → Nat
  | .unconfigured => 0
  | .unreachable => 1
  | .unknown => 2
  | .ready => 3
  | .held => 4

/-- The reporting codes VERIFY_QUEUED 1 to FAULTED 4 (R53, R176). -/
def CatState.code : CatState → Nat
  | .verifyQueued => 1
  | .verifying => 2
  | .ready => 3
  | .faulted => 4

/-- DROPPED as a reporting state (R53). -/
def droppedCode : Nat := 5

/-- The slot states of 3.4; an IDLE slot is 0. -/
def SlotState.code : SlotState → Nat
  | .queued => 1
  | .sending => 2
  | .confirmWait => 3

/-! ### Frame kinds and flags (R179) -/

def kindOpen : Byte := 1
def kindData : Byte := 2
def kindCkptAck : Byte := 3
def kindReceipt : Byte := 4
def kindRelease : Byte := 5
def kindReleaseAck : Byte := 6
def kindWithdraw : Byte := 7
def kindWithdrawAck : Byte := 8
def kindQuery : Byte := 9
def kindStatus : Byte := 10
def kindRoll : Byte := 11
def kindRollAnswer : Byte := 12
def kindMark : Byte := 13
def kindEcho : Byte := 14
def kindCredit : Byte := 15

/-- The eight inbound kinds (R147). -/
def inboundKind (k : Byte) : Bool :=
  k == kindCkptAck || k == kindReceipt || k == kindReleaseAck || k == kindWithdrawAck || k == kindStatus ||
    k == kindRollAnswer || k == kindEcho || k == kindCredit

/-- The payload length of an inbound kind (R179, R180). -/
def inboundLength (k : Byte) : Nat :=
  if k == kindCkptAck then 4 else if k == kindRollAnswer then 8 else 0

/-- The flags byte of a frame: LAST, CHECKPOINT and TARGET; the 640 sends SERVICE and GOOD clear (R144, R179, R180). -/
def frameFlags (last checkpoint target : Bool) : Byte :=
  BitVec.ofNat 8 (flagBit last 0 + flagBit checkpoint 1 + flagBit target 2)

def targetFlag (f : InFrame) : Bool := bitSet f.flags 2
def serviceFlag (f : InFrame) : Bool := bitSet f.flags 3
def goodFlag (f : InFrame) : Bool := bitSet f.flags 4

/-- An address byte: primary in the upper five bits, secondary in the lower three (R179). -/
def addressByte (primary secondary : Byte) : Byte :=
  (primary <<< 3) ||| (secondary &&& 7#8)

/-- The station, primary 0 and secondary 0 (R144). -/
def stationAddress : Byte := 0x00

/-- The whole link, primary 31 and secondary 7 (R144). -/
def wholeLinkAddress : Byte := 0xFF

/-- The primary address in an address byte. -/
def primaryOf (a : Byte) : Byte := a >>> 3

/-- The secondary address in an address byte. -/
def secondaryOf (a : Byte) : Byte := a &&& 7#8

/-! ### The status byte (R180) -/

def statusReady (b : Byte) : Bool := bitSet b 0
def statusHold (b : Byte) : Bool := bitSet b 1
def statusTargetLost (b : Byte) : Bool := bitSet b 2

end Sys2Proof.Machine
end

