-- ==== Sys2Proof/Machine/Operands.lean ====
section
/-! DEFINITION. The operands of the commands as the 640 reads them: order records out of the bytes of a read (R166, R177,
R178), arriving frames (R147, R179, R180), and the words of a register access (R174). -/

namespace Sys2Proof.Machine

/-! ### Order records (R177, R178) -/

/-- The kind byte of a record. -/
def recordKind (bs : List Byte) : Byte := fieldByte bs 8

/-- The disposition byte of a record. -/
def recordDisposition (bs : List Byte) : Nat := fieldNat bs 9 1

/-- A count of the body, read as its largest value where it is above it (R166). -/
def countRead (bs : List Byte) (off largest : Nat) : Nat :=
  min (fieldNat bs off 1) largest

/-- The length of a record, from its kind and its counts (R166, R177). A record of unknown kind, or an ANCHOR, is read as a
header alone. Where the bytes given stop short of a count, the length found here is still more than was given. -/
def recordLength (bs : List Byte) : Nat :=
  match (recordKind bs).toNat with
  | 1 => 32
  | 2 => 36 + countRead bs 21 7
  | 3 => 21
  | 4 => 48 + 16 * countRead bs 27 16 + 16 * countRead bs 28 64
  | 5 => 24
  | 6 => 32 + 80 * countRead bs 18 64
  | 7 => 17
  | 8 => 17
  | _ => 16

/-- An extent entry (R178). -/
def readExtent (bs : List Byte) (off : Nat) : Extent :=
  ⟨BitVec.ofNat 64 (fieldNat bs off 8), BitVec.ofNat 32 (fieldNat bs (off + 8) 4)⟩

/-- `n` extents, 16 bytes each, from `off` on. -/
def readExtents (bs : List Byte) (off n : Nat) : List Extent :=
  (List.range n).map fun i => readExtent bs (off + 16 * i)

/-- A field that is present when its flag is set and not read otherwise (R178). -/
def optionalField (bs : List Byte) (present : Bool) (off : Nat) : Option U32 :=
  if present then some (BitVec.ofNat 32 (fieldNat bs off 4)) else none

def readSetLink (bs : List Byte) : SetLinkBody where
  link := fieldByte bs 16
  enable := bitSet (fieldByte bs 17) 0
  rate := BitVec.ofNat 32 (fieldNat bs 20 4)
  guardMs := BitVec.ofNat 32 (fieldNat bs 24 4)
  silence := BitVec.ofNat 32 (fieldNat bs 28 4)

def readSetLine (bs : List Byte) : SetLineBody where
  line := fieldByte bs 16
  enable := bitSet (fieldByte bs 17) 0
  primary := fieldByte bs 18
  secondary := fieldByte bs 19
  link := fieldByte bs 20
  hopCount := fieldByte bs 21
  hops := (List.range (countRead bs 21 7)).map fun i => fieldByte bs (36 + i)
  rollBit := fieldByte bs 22
  sense := fieldByte bs 23
  alternate := if bitSet (fieldByte bs 17) 1 then some (fieldByte bs 24) else none
  warnLead := BitVec.ofNat 32 (fieldNat bs 28 4)
  extension := BitVec.ofNat 32 (fieldNat bs 32 4)

def readSetClock (bs : List Byte) : SetClockBody where
  value := BitVec.ofNat 32 (fieldNat bs 16 4)
  source := fieldByte bs 20

/-- The page key of a CONSIGN or WITHDRAW body. -/
def readKey (bs : List Byte) : PageKey where
  edition := fieldByte bs 16
  zone := fieldByte bs 17
  section_ := fieldByte bs 18
  page := BitVec.ofNat 16 (fieldNat bs 20 2)

def readWithdraw (bs : List Byte) : WithdrawBody where
  key := readKey bs
  version := BitVec.ofNat 16 (fieldNat bs 22 2)

/-- A destination entry's host part (R178). -/
def readDest (bs : List Byte) (off : Nat) : DestEntry where
  line := fieldByte bs off
  override := optionalField bs (bitSet (fieldByte bs (off + 1)) 0) (off + 4)

def readConsign (bs : List Byte) : ConsignBody where
  key := readKey bs
  version := BitVec.ofNat 16 (fieldNat bs 22 2)
  generation := BitVec.ofNat 16 (fieldNat bs 24 2)
  deadline := BitVec.ofNat 32 (fieldNat bs 32 4)
  release := optionalField bs (bitSet (fieldByte bs 19) 0) 36
  policy := fieldByte bs 26
  statedCrc := optionalField bs (bitSet (fieldByte bs 19) 1) 40
  size := BitVec.ofNat 32 (fieldNat bs 44 4)
  extentCount := fieldByte bs 27
  destCount := fieldByte bs 28
  extents := readExtents bs 48 (countRead bs 27 16)
  dests := (List.range (countRead bs 28 64)).map fun i => readDest bs (48 + 16 * countRead bs 27 16 + 16 * i)

/-- A target entry's host part (R178). -/
def readTarget (bs : List Byte) (off : Nat) : TargetEntry where
  line := fieldByte bs off
  push := bitSet (fieldByte bs (off + 1)) 0
  statedCrc := optionalField bs (bitSet (fieldByte bs (off + 1)) 1) (off + 4)
  size := BitVec.ofNat 32 (fieldNat bs (off + 8) 4)
  extentCount := fieldByte bs (off + 2)
  extents := readExtents bs (off + 16) (countRead bs (off + 2) 4)

def readIssueTarget (bs : List Byte) : IssueTargetBody where
  generation := BitVec.ofNat 16 (fieldNat bs 16 2)
  entryCount := fieldByte bs 18
  entries := (List.range (countRead bs 18 64)).map fun i => readTarget bs (32 + 80 * i)

/-- The order a record holds, by its kind code (R177). -/
def readOrder (bs : List Byte) : Order :=
  match (recordKind bs).toNat with
  | 1 => .setLink (readSetLink bs)
  | 2 => .setLine (readSetLine bs)
  | 3 => .setClock (readSetClock bs)
  | 4 => .consign (readConsign bs)
  | 5 => .withdraw (readWithdraw bs)
  | 6 => .issueTarget (readIssueTarget bs)
  | 7 => .rollCall (fieldByte bs 16)
  | 8 => .queryLine (fieldByte bs 16)
  | _ => .badKind (recordKind bs)

/-- Host address of destination entry `i` of a CONSIGN record with `extents` extent entries (R178). -/
def destEntryAddr (order : U64) (extents i : Nat) : U64 :=
  order + BitVec.ofNat 64 (48 + 16 * extents + 16 * i)

/-- Host address of target entry `i` of an ISSUE TARGET record (R178). -/
def targetEntryAddr (order : U64) (i : Nat) : U64 :=
  order + BitVec.ofNat 64 (32 + 80 * i)

/-! ### Field checks shared by CONSIGN and ISSUE TARGET (R4 check 1, R50 check 1) -/

/-- Address non-zero, length at least 1, and no byte past the top of the 64-bit address space. -/
def extentOk (e : Extent) : Bool :=
  e.addr != 0 && e.len != 0 && decide (e.addr.toNat + e.len.toNat ≤ 2 ^ 64)

/-- The sum of the extents' lengths. -/
def extentsLength (es : List Extent) : Nat :=
  (es.map fun e => e.len.toNat).sum

/-- Every number a press line, and none named twice. -/
def linesOk (ls : List Byte) : Bool :=
  ls.all (fun l => decide (l.toNat < 64)) && decide ls.Nodup

/-- The ranges of a page key (R1): zone and section 0-15, page 1-999. -/
def keyOk (k : PageKey) : Bool :=
  decide (k.zone.toNat ≤ 15) && decide (k.section_.toNat ≤ 15) && decide (1 ≤ k.page.toNat) && decide (k.page.toNat ≤ 999)

/-- R4 check 1. The lists of a record read by the walk have the lengths its counts give, so the two length checks fail only
for a command that no record spells. -/
def consignFieldsOk (b : ConsignBody) : Bool :=
  keyOk b.key && decide (1 ≤ b.version.toNat) && decide (b.policy.toNat ≤ 2) &&
    decide (1 ≤ b.size.toNat) && decide (b.size.toNat ≤ 268435456) &&
    decide (1 ≤ b.extentCount.toNat) && decide (b.extentCount.toNat ≤ 16) &&
    decide (1 ≤ b.destCount.toNat) && decide (b.destCount.toNat ≤ 64) &&
    decide (b.extents.length = b.extentCount.toNat) && decide (b.dests.length = b.destCount.toNat) &&
    b.extents.all extentOk && decide (extentsLength b.extents = b.size.toNat) &&
    linesOk (b.dests.map fun d => d.line)

/-- The field checks of one target entry in R50 check 1. -/
def targetFieldsOk (t : TargetEntry) : Bool :=
  decide (1 ≤ t.size.toNat) && decide (t.size.toNat ≤ 4194304) &&
    decide (1 ≤ t.extentCount.toNat) && decide (t.extentCount.toNat ≤ 4) &&
    decide (t.extents.length = t.extentCount.toNat) &&
    t.extents.all extentOk && decide (extentsLength t.extents = t.size.toNat)

/-- R50 check 1. -/
def issueFieldsOk (b : IssueTargetBody) : Bool :=
  decide (1 ≤ b.generation.toNat) && decide (1 ≤ b.entryCount.toNat) && decide (b.entryCount.toNat ≤ 64) &&
    decide (b.entries.length = b.entryCount.toNat) && linesOk (b.entries.map fun t => t.line) && b.entries.all targetFieldsOk

/-- The late policy codes (R178). -/
def policyOf (code : Byte) : LatePolicy :=
  match code.toNat with
  | 0 => .continue_
  | 1 => .drop
  | _ => .fallback

/-- A byte as a press-line number; used only where the byte has been found to be 0 to 63. -/
def lineOf (b : Byte) : LineId := Fin.ofNat 64 b.toNat

/-- A byte as a link number; used only where the byte has been found to be 0 to 3. -/
def linkOf (b : Byte) : LinkId := Fin.ofNat 4 b.toNat

/-! ### Arriving frames (R145, R147, R179, R180) -/

/-- The twelve bytes of the fixed header of an arriving frame of kind `k`. -/
def inHeader (k : Byte) (f : InFrame) : List Byte :=
  [f.dest, f.src, k, f.flags] ++ beBytes 2 f.tag.toNat ++ beBytes 4 f.value.toNat ++ beBytes 2 f.length.toNat

/-- The size of a path field with `count` hops: 4 or 8 bytes, none for a count above 7 (R123, R180). -/
def pathSize (count : Nat) : Option Nat :=
  if count ≤ 3 then some 4 else if count ≤ 7 then some 8 else none

/-- R147's first check: the path field's length agrees with its count byte, the payload's with the payload-length field, which
is at most 1,024 and, for an inbound kind, the length of that kind (R180), and the CRC-16 is the one computed. -/
def frameSound (k : Byte) (f : InFrame) : Bool :=
  (match f.path with
    | [] => false
    | c :: _ => decide (pathSize c.toNat = some f.path.length)) &&
    decide (f.payload.length = f.length.toNat) && decide (f.length.toNat ≤ 1024) &&
    (!inboundKind k || decide (f.length.toNat = inboundLength k)) &&
    decide (crc16 (inHeader k f ++ f.payload) = f.crc)

/-- The checkpoint offset C of a CKPT_ACK (R179). -/
def ckptOffset (f : InFrame) : Nat := beNat f.payload

/-- The held offset Hd of a CKPT_ACK (R144). -/
def heldOffset (f : InFrame) : Nat := f.value.toNat

/-- The answer mask of a ROLL_ANSWER (R179). -/
def answerMask (f : InFrame) : U64 := BitVec.ofNat 64 (beNat f.payload)

/-- The echoed count: the low 6 bits of an ECHO's tag (R180). -/
def echoCount (f : InFrame) : Nat := f.tag.toNat % 64

/-- The status byte: the lowest byte of a STATUS value (R144, R180). -/
def statusOf (f : InFrame) : Byte := f.value.setWidth 8

/-! ### The CONTROL word (R163, R174) -/

def controlRun (w : U32) : Bool := w.getLsbD 0
def controlReset (w : U32) : Bool := w.getLsbD 1
def controlMask (w : U32) : BitVec 9 := (w >>> 16).setWidth 9

end Sys2Proof.Machine
end

