-- ==== Sys2Proof/Machine/Ops.lean ====
section
/-! DEFINITION. The named operations that every block shares: reading and changing one part of the state, writes to host
memory (R170), the desk (R165, R172, R176), attention and the MSI (R171), dispositions (R169). -/

namespace Sys2Proof.Machine

/-! ### Reading and changing one part of the state -/

def State.line (s : State) (n : LineId) : Line := s.lines[n]

def State.link (s : State) (l : LinkId) : Link := s.links[l]

def State.rec? (s : State) (n : Nat) : Option DestRec := Table.get s.recs n

def State.page? (s : State) (p : Nat) : Option Page := Table.get s.pages p

def State.modOrder (s : State) (f : OrderUnit → OrderUnit) : State := { s with order := f s.order }

def State.modClock (s : State) (f : Clock → Clock) : State := { s with clock := f s.clock }

def State.modVerify (s : State) (f : VerifyEngine → VerifyEngine) : State := { s with verify := f s.verify }

def State.modLine (s : State) (n : LineId) (f : Line → Line) : State := { s with lines := s.lines.set n (f s.lines[n]) }

def State.modLink (s : State) (l : LinkId) (f : Link → Link) : State := { s with links := s.links.set l (f s.links[l]) }

def State.modRec (s : State) (n : Nat) (f : DestRec → DestRec) : State := { s with recs := Table.modify s.recs n f }

def State.putRec (s : State) (n : Nat) (r : DestRec) : State := { s with recs := Table.put s.recs n r }

def State.delRec (s : State) (n : Nat) : State := { s with recs := Table.del s.recs n }

def State.modPage (s : State) (p : Nat) (f : Page → Page) : State := { s with pages := Table.modify s.pages p f }

def State.putPage (s : State) (p : Nat) (e : Page) : State := { s with pages := Table.put s.pages p e }

def State.delPage (s : State) (p : Nat) : State := { s with pages := Table.del s.pages p }

def State.setFree (s : State) (f : List Nat) : State := { s with free := f }

def State.setDeadlines (s : State) (d : List DeadlineEntry) : State := { s with deadlines := d }

def State.setCounters (s : State) (c : DeskCounters) : State := { s with counters := c }

def State.setTargetOrders (s : State) (t : List TargetOrder) : State := { s with targetOrders := t }

def State.setSeq (s : State) (n : Nat) : State := { s with seqNext := n }

def State.setReadData (s : State) (w : U32) : State := { s with readData := w }

/-- The records in use, by rising number. -/
def State.recIds (s : State) : List Nat := Table.keys s.recs

/-- All press lines, by rising number. -/
def allLines : List LineId := List.finRange 64

/-- All plate links, by rising number. -/
def allLinks : List LinkId := List.finRange 4

/-- The link a press line's entry names (00_scope.md section 6, "Orders and entries"). -/
def State.linkOf (s : State) (n : LineId) : LinkId := (s.line n).cfg.link

/-- Whether a link is UP. -/
def State.isUp (s : State) (l : LinkId) : Bool := (s.link l).state == .up

/-- The enabled lines routed on a link, by rising number. -/
def State.linesOn (s : State) (l : LinkId) : List LineId :=
  allLines.filter fun n => (s.line n).enabled && (s.line n).cfg.link == l

/-- The records of a press line, by rising number. -/
def State.recsOf (s : State) (n : LineId) : List Nat :=
  (s.recs.filter fun e => e.2.line == n).map fun e => e.1

/-- The records whose press line is routed on a link, by rising number (R31). -/
def State.recsOnLink (s : State) (l : LinkId) : List Nat :=
  (s.recs.filter fun e => s.linkOf e.2.line == l).map fun e => e.1

/-- The generation a record's page requires (R22, R25). -/
def State.recGen (s : State) (r : DestRec) : U16 :=
  match s.page? r.parent with
  | some p => p.generation
  | none => 0

/-- The entry of a line's catalog for a generation (R46). -/
def Line.entry (k : Line) (g : U16) : Option CatEntry :=
  k.catalog.find? fun e => e.generation == g

/-- A press-clock time is reached when the press clock is greater than or equal to it (00_scope.md section 6). -/
def State.reached (s : State) (t : Nat) : Bool := decide (t ≤ s.clock.value)

/-! ### Writes to host memory (R170) -/

/-- Issues one write; writes reach host memory in the order issued (R170). -/
def State.emit (s : State) (w : BusWrite) : State := { s with bus := w :: s.bus }

def hostWrite (addr : U64) (bytes : List Byte) (s : State) : State :=
  s.emit (.write addr bytes)

/-- A desk write goes to the desk base in effect, and none is made while that is 0 (R165). -/
def deskWrite (off : Nat) (bytes : List Byte) (s : State) : State :=
  if s.order.deskBase = 0 then s else hostWrite (s.order.deskBase + BitVec.ofNat 64 off) bytes s

/-! ### Attention and the MSI (R171) -/

/-- The masked causes: the bits of ATTENTION whose mask bit is set. -/
def OrderUnit.masked (o : OrderUnit) : BitVec 9 := o.attention &&& o.mask

/-- One MSI goes out when the set of masked causes goes from empty to not empty (R171). -/
def msiIfRisen (before : BitVec 9) (s : State) : State :=
  if before = 0 ∧ s.order.masked ≠ 0 then s.emit .msi else s

/-- Raises a cause (R171). -/
def raise (c : Cause) (s : State) : State :=
  msiIfRisen s.order.masked (s.modOrder fun o => { o with attention := o.attention ||| c.bits })

/-- Stores the attention mask (R163, R171). -/
def storeMask (m : BitVec 9) (s : State) : State :=
  msiIfRisen s.order.masked (s.modOrder fun o => { o with mask := m })

/-! ### The desk (R165, R172, R175, R176) -/

def summaryOffset : Nat := 0x010
def linkMirrorOffset (l : LinkId) : Nat := 0x100 + 64 * l.val
def lineMirrorOffset (n : LineId) : Nat := 0x200 + 32 * n.val
def countersOffset : Nat := 0xA00

/-- The 16 bytes of the summary (R172, R176). -/
def summaryBytes (s : State) : List Byte :=
  leBytes 4 s.order.completions.toNat ++ leBytes 4 s.clock.snapshot ++
    leBytes 1 s.order.part.code ++ leBytes 1 s.order.faultCode.code ++ leBytes 1 s.clock.sync.code ++
    leBytes 1 (flagBit s.clock.clockUnset 0 + flagBit s.clock.clockEnd 1) ++ leBytes 4 0

/-- The 20 bytes of the counters area (R172, R176). -/
def countersBytes (c : DeskCounters) : List Byte :=
  leBytes 4 c.predictedLates.toNat ++ leBytes 4 c.fallbacksMade.toNat ++ leBytes 4 c.fallbacksFailed.toNat ++
    leBytes 4 c.syncRejected.toNat ++ leBytes 4 c.verifyPasses.toNat

/-- A transfer's tag: the record number, or 1,024 + line number (R21, R58). -/
def Xfer.tag : Xfer → Nat
  | .dest n => n
  | .slot n => Config.slotTagBase + n.val

/-- The tag field of a mirror entry: 0xFFFF for none (R176). -/
def mirrorTag : Option Xfer → Nat
  | some x => x.tag
  | none => 0xFFFF

/-- A signed 32-bit field. -/
def signedBytes (i : Int) : List Byte :=
  leBytes 4 (BitVec.ofInt 32 i).toNat

/-- The nine counters of a link's mirror entry (R150, R176). -/
def linkCounterBytes (c : LinkCounters) : List Byte :=
  leBytes 4 c.framesSent.toNat ++ leBytes 4 c.framesReceived.toNat ++ leBytes 4 c.crcRejects.toNat ++
    leBytes 4 c.misrouted.toNat ++ leBytes 4 c.unknownSource.toNat ++ leBytes 4 c.staleTag.toNat ++
    leBytes 4 c.staleEcho.toNat ++ leBytes 4 c.rewinds.toNat ++ leBytes 4 c.creditOverflow.toNat

/-- The 64 bytes of a link's mirror entry (R151, R91, R176). -/
def linkMirrorBytes (k : Link) : List Byte :=
  leBytes 1 k.state.code ++ leBytes 1 k.credit ++ leBytes 1 k.markCount ++ leBytes 1 0 ++
    leBytes 4 k.rate ++ leBytes 4 k.guardMs ++ leBytes 2 k.silenceLimit ++ leBytes 2 k.queue.length ++
    leBytes 2 (mirrorTag k.sending) ++ leBytes 2 (mirrorTag k.first) ++
    signedBytes k.sendingSlack ++ signedBytes k.firstSlack ++ linkCounterBytes k.counters

/-- The catalog fields of a line's mirror entry: older generation and state, newer state and generation; a catalog with one
entry shows it as the newer (R176). -/
def catalogBytes : List CatEntry → List Byte
  | [] => leBytes 2 0 ++ leBytes 1 0 ++ leBytes 1 0 ++ leBytes 2 0
  | [e] => leBytes 2 0 ++ leBytes 1 0 ++ leBytes 1 e.state.code ++ leBytes 2 e.generation.toNat
  | e :: e' :: _ =>
    leBytes 2 e.generation.toNat ++ leBytes 1 e.state.code ++ leBytes 1 e'.state.code ++ leBytes 2 e'.generation.toNat

/-- The 32 bytes of a press line's mirror entry (R134, R176). -/
def lineMirrorBytes (k : Line) : List Byte :=
  leBytes 1 k.state.code ++ leBytes 1 k.statusByte.toNat ++ leBytes 1 k.timeouts ++
    leBytes 1 (match k.slot with | none => 0 | some sl => sl.state.code) ++
    leBytes 2 k.held.toNat ++ leBytes 2 (match k.slot with | none => 0 | some sl => sl.generation.toNat) ++
    catalogBytes k.catalog ++ leBytes 2 0 ++ leBytes 4 k.changeCount.toNat ++ leBytes 12 0

/-- Writes the summary whole (R172). -/
def writeSummary (s : State) : State := deskWrite summaryOffset (summaryBytes s) s

/-- Writes the counters area whole (R172). -/
def writeCounters (s : State) : State := deskWrite countersOffset (countersBytes s.counters) s

/-- Writes a link's mirror entry whole (R151). -/
def writeLinkMirror (l : LinkId) (s : State) : State := deskWrite (linkMirrorOffset l) (linkMirrorBytes (s.link l)) s

/-- Writes a press line's mirror entry whole (R134). -/
def writeLineMirror (n : LineId) (s : State) : State := deskWrite (lineMirrorOffset n) (lineMirrorBytes (s.line n)) s

/-- Writes the whole desk from the present state: summary, link mirror, press-line mirror, counters (R165). That the areas go in the
order in which R165 names them, and the entries of a mirror by ascending number, is the model's choice (log entry 59). -/
def writeDesk (s : State) : State :=
  writeCounters (allLines.foldl (fun s n => writeLineMirror n s) (allLinks.foldl (fun s l => writeLinkMirror l s) (writeSummary s)))

/-! ### The desk counters (R172) -/

inductive DeskCounter where
  | predictedLates | fallbacksMade | fallbacksFailed | syncRejected | verifyPasses
deriving DecidableEq, Repr

def DeskCounters.bump (c : DeskCounters) : DeskCounter → DeskCounters
  | .predictedLates => { c with predictedLates := satInc c.predictedLates }
  | .fallbacksMade => { c with fallbacksMade := satInc c.fallbacksMade }
  | .fallbacksFailed => { c with fallbacksFailed := satInc c.fallbacksFailed }
  | .syncRejected => { c with syncRejected := satInc c.syncRejected }
  | .verifyPasses => { c with verifyPasses := satInc c.verifyPasses }

/-- A desk counter grows by one, and the area is written whole when one grows (R172); a counter at its largest value stays
there, and the area is not written for it (log entry 52). -/
def bumpCounter (which : DeskCounter) (s : State) : State :=
  if s.counters.bump which = s.counters then s else writeCounters (s.setCounters (s.counters.bump which))

/-! ### Dispositions (R169, R170, R177) -/

/-- Writes disposition and detail into an order record, bytes 9 to 11 in one write (R177). -/
def writeDisposition (addr : U64) (d : Disposition) (detail : Nat) (s : State) : State :=
  hostWrite (addr + 9) (leBytes 1 d.code ++ leBytes 2 detail) s

/-- A final disposition: the record's write, the completion count, the summary, then ORDER_FINAL (R169, R170). -/
def finalDisposition (addr : U64) (d : Disposition) (detail : Nat) (s : State) : State :=
  raise .orderFinal
    (writeSummary ((writeDisposition addr d detail s).modOrder fun o => { o with completions := satInc o.completions }))

/-- A refusal: disposition REFUSED with its detail, and nothing else (R168). -/
def refuse (addr : U64) (why : RefusalDetail) (s : State) : State :=
  finalDisposition addr .refused why.code s

/-! ### A link's counters (R150, R151) -/

/-- Changes a link's counters and writes its mirror entry, as every growth but that of frames sent and frames received does
(R151). A counter at its largest value does not grow, and its mirror is not written for it (log entry 52). -/
def bumpLink (l : LinkId) (f : LinkCounters → LinkCounters) (s : State) : State :=
  if f (s.link l).counters = (s.link l).counters then s
  else writeLinkMirror l (s.modLink l fun k => { k with counters := f k.counters })

/-- A frame refused at the fourth check, or by an owner's rule, counts as a stale tag and is discarded (R149). -/
def staleTag (l : LinkId) (s : State) : State :=
  bumpLink l (fun c => { c with staleTag := satInc c.staleTag }) s

end Sys2Proof.Machine
end

