-- ==== Sys2Proof/Machine/Wire.lean ====
section
/-! DEFINITION. A link's transmit side: frames (R144, R179), the control list (R143), and the start of the next frame on a free
wire (R80, R143). -/

namespace Sys2Proof.Machine

/-! ### Frames (R123, R144, R145, R179, R180) -/

/-- The path field: hop count, hop bytes, zero padding to 4 or 8 bytes (R123, R179). -/
def pathField (path : List Byte) : List Byte :=
  let size := if path.length ≤ 3 then 4 else 8
  (BitVec.ofNat 8 path.length :: path) ++ List.replicate (size - 1 - path.length) 0

/-- The identity block of OPEN, RELEASE and WITHDRAW (R179). -/
def identityBlock (key : PageKey) (version generation : U16) : List Byte :=
  [key.edition, key.zone, key.section_, 0] ++ beBytes 2 key.page.toNat ++ beBytes 2 version.toNat ++
    beBytes 2 generation.toNat ++ beBytes 2 0

/-- The identity block of a target frame: key and version bytes 0 (R179). -/
def targetIdentity (generation : U16) : List Byte :=
  identityBlock ⟨0, 0, 0, 0⟩ 0 generation

/-- A frame addressed to a press line, along its path as the table holds it now (R122, R123). -/
def lineFrame (s : State) (n : LineId) (kind flags : Byte) (tag value : Nat) (payload : Payload) : Frame where
  path := (s.line n).cfg.path
  dest := addressByte (s.line n).cfg.primary (s.line n).cfg.secondary
  src := stationAddress
  kind := kind
  flags := flags
  tag := BitVec.ofNat 16 tag
  value := BitVec.ofNat 32 value
  payload := payload

/-- A frame addressed to the whole link (ROLL and MARK, R144). R123 gives a path to a line's frames only: that these carry an empty
path, hop count 0 and three zero bytes, is the model's choice (log entry 47). -/
def linkFrame (kind : Byte) (tag value : Nat) : Frame where
  path := []
  dest := wholeLinkAddress
  src := stationAddress
  kind := kind
  flags := frameFlags false false false
  tag := BitVec.ofNat 16 tag
  value := BitVec.ofNat 32 value
  payload := .bytes []

/-- The length of a frame's payload in bytes. -/
def Payload.length : Payload → Nat
  | .bytes b => b.length
  | .dma ss => (ss.map fun c => c.len).sum

/-- The twelve bytes of a frame's fixed header (R144, R179). -/
def Frame.header (f : Frame) : List Byte :=
  [f.dest, f.src, f.kind, f.flags] ++ beBytes 2 f.tag.toNat ++ beBytes 4 f.value.toNat ++ beBytes 2 f.payload.length

/-- The payload bytes that go out: the frame's own, or those the DMA read of its slices gave. -/
def Frame.payloadBytes (f : Frame) (read : List Byte) : List Byte :=
  match f.payload with
  | .bytes b => b
  | .dma _ => read

/-- The frame on the wire, byte for byte: path field, fixed header, payload, CRC-16 (R144, R145, R179). `read` holds the bytes
of a DATA frame's slices. -/
def Frame.wireBytes (f : Frame) (read : List Byte) : List Byte :=
  pathField f.path ++ f.header ++ f.payloadBytes read ++
    beBytes 2 (crc16 (f.header ++ f.payloadBytes read)).toNat

/-- A control frame as it starts onto the wire (R143, R144, R179). -/
def ctlFrame (s : State) : CtlFrame → Frame
  | .release rec n key version =>
    lineFrame s n kindRelease (frameFlags false false false) rec 0 (.bytes (identityBlock key version 0))
  | .withdraw rec n key version =>
    lineFrame s n kindWithdraw (frameFlags false false false) rec 0 (.bytes (identityBlock key version 0))
  | .targetWithdraw n g =>
    lineFrame s n kindWithdraw (frameFlags false false true) (Config.slotTagBase + n.val) 0 (.bytes (targetIdentity g))
  | .query n => lineFrame s n kindQuery (frameFlags false false false) 0 0 (.bytes [])
  | .roll => linkFrame kindRoll 0 0
  | .mark count value => linkFrame kindMark count value

/-! ### A transfer as the scheduler and the link see it (R69, R78, R79) -/

/-- What sending a transfer needs to know. -/
structure XferInfo where
  line    : LineId
  size    : Nat
  extents : List Extent
  crc     : U32
  sent    : Nat
  acked   : Nat
  hasData : Bool
  target  : Bool
  ident   : List Byte
deriving DecidableEq, Repr

/-- The facts of a transfer: a record's from its page, a slot's from its catalog entry (R78, R79). A payload that is sent has
been verified, so its computed CRC-32 stands. -/
def xferInfo (s : State) : Xfer → Option XferInfo
  | .dest n =>
    match s.rec? n with
    | none => none
    | some r =>
      match s.page? r.parent with
      | none => none
      | some p => some ⟨r.line, p.size, p.extents, p.computedCrc.getD 0, r.sent, r.acked, r.siteHasData, false,
          identityBlock p.key p.version p.generation⟩
  | .slot n =>
    match (s.line n).slot with
    | none => none
    | some sl =>
      match (s.line n).entry sl.generation with
      | none => none
      | some e => some ⟨n, e.size, e.extents, e.computedCrc.getD 0, sl.sent, sl.acked, sl.siteHasData, true,
          targetIdentity sl.generation⟩

/-- Changes the slot of a line where it is loaded. -/
def State.modSlot (s : State) (n : LineId) (f : Slot → Slot) : State :=
  s.modLine n fun k => { k with slot := k.slot.map f }

/-- Sets a transfer's sent offset. -/
def setSent (x : Xfer) (v : Nat) (s : State) : State :=
  match x with
  | .dest n => s.modRec n fun r => { r with sent := v }
  | .slot n => s.modSlot n fun sl => { sl with sent := v }

/-- Sets a transfer's acked offset. -/
def setAcked (x : Xfer) (v : Nat) (s : State) : State :=
  match x with
  | .dest n => s.modRec n fun r => { r with acked := v }
  | .slot n => s.modSlot n fun sl => { sl with acked := v }

/-- The window of R82: full when sent less acked has reached four checkpoint spans. -/
def XferInfo.windowFull (i : XferInfo) : Bool :=
  decide (Config.windowBytes ≤ i.sent - i.acked)

/-- The parts of the extents that hold `len` payload bytes from `off` on, running from one extent into the next (R79). -/
def slices : List Extent → Nat → Nat → List Slice
  | [], _, _ => []
  | e :: es, off, len =>
    let n := e.len.toNat
    if len = 0 then []
    else if n ≤ off then slices es (off - n) len
    else ⟨e.addr + BitVec.ofNat 64 off, min len (n - off)⟩ :: slices es 0 (len - min len (n - off))

/-! ### Destination entries (R42, R43, R178) -/

/-- The fallback fields of an entry: line, state, detail (R43). -/
def fallbackBytes (s : State) : FallbackInfo → List Byte
  | .none => leBytes 1 255 ++ leBytes 1 0 ++ leBytes 1 Detail.none.code
  | .failed d => leBytes 1 255 ++ leBytes 1 0 ++ leBytes 1 d.code
  | .made n =>
    match s.rec? n with
    | some f => leBytes 1 f.line.val ++ leBytes 1 f.state.code ++ leBytes 1 f.detail.code
    | none => leBytes 1 255 ++ leBytes 1 0 ++ leBytes 1 Detail.none.code

/-- The reporting fields of a record's entry, bytes 8 to 15 (R42, R178). -/
def entryBytes (s : State) (r : DestRec) : List Byte :=
  leBytes 1 r.state.code ++ leBytes 1 r.detail.code ++ leBytes 1 r.attempts ++
    leBytes 1 (flagBit r.late 0 + flagBit r.missed 1 + flagBit r.siteHasData 2) ++ fallbackBytes s r.fallback ++ leBytes 1 0

/-- Writes the entry of a record; a fallback record reports through its origin's entry (R42, R43). -/
def writeEntry (n : Nat) (s : State) : State :=
  match s.rec? n with
  | none => s
  | some r =>
    match r.origin with
    | none => hostWrite (r.entryAddr + 8) (entryBytes s r) s
    | some o =>
      match s.rec? o with
      | none => s
      | some ro => hostWrite (ro.entryAddr + 8) (entryBytes s ro) s

/-! ### Starting frames (R78 to R80, R143) -/

/-- The OPEN of a transfer (R78, R144). -/
def openFrameOf (s : State) (x : Xfer) (i : XferInfo) : Frame :=
  lineFrame s i.line kindOpen (frameFlags false false i.target) x.tag i.acked (.bytes (i.ident ++ beBytes 4 i.size))

/-- The OPEN owed starts onto the wire. -/
def startOpen (l : LinkId) (x : Xfer) (i : XferInfo) (s : State) : State :=
  s.modLink l fun k => { k with openOwed := false, wire := some ⟨openFrameOf s x i, .openFrame⟩ }

/-- The end offset of the frame that begins at the sent offset (R79). -/
def XferInfo.frameEnd (i : XferInfo) : Nat :=
  min ((i.sent / Config.frameBytes + 1) * Config.frameBytes) i.size

/-- The next DATA frame of a transfer (R79, R144): its frame index, or the CRC-32 on the frame with LAST. Its flags are CHECKPOINT and
LAST; TARGET stands in the OPEN alone (R59, R78). -/
def dataFrameOf (s : State) (x : Xfer) (i : XferInfo) : Frame :=
  let last := decide (i.frameEnd = i.size)
  let ckpt := decide (i.frameEnd % Config.checkpointBytes = 0)
  lineFrame s i.line kindData (frameFlags last ckpt false) x.tag
    (if last then i.crc.toNat else i.sent / Config.frameBytes)
    (.dma (slices i.extents i.sent (i.frameEnd - i.sent)))

/-- The first DATA frame of a transfer to start sets SITE_HAS_DATA (R28, R59, R79), which a record's entry shows (R42). -/
def markHasData (x : Xfer) (s : State) : State :=
  match x with
  | .dest n =>
    match s.rec? n with
    | none => s
    | some r => if r.siteHasData then s else writeEntry n (s.modRec n fun r => { r with siteHasData := true })
  | .slot n => s.modSlot n fun sl => { sl with siteHasData := true }

/-- The next DATA frame starts onto the wire and takes one credit (R80, R142). -/
def startData (l : LinkId) (x : Xfer) (i : XferInfo) (s : State) : State :=
  markHasData x
    (s.modLink l fun k => { k with
      credit := k.credit - 1
      wire := some ⟨dataFrameOf s x i,
        .data x i.frameEnd (decide (i.frameEnd % Config.checkpointBytes = 0)) (decide (i.frameEnd = i.size)) true⟩ })

/-- What a link does when it is UP and its wire is free: the head of the control list, else the OPEN owed for the SENDING
transfer, else its next DATA frame when R80 lets it go, else nothing (R143). No frame of a transfer starts while a rewind of it
waits (R83). -/
def kick (l : LinkId) (s : State) : State :=
  let k := s.link l
  if k.state ≠ .up ∨ k.wire.isSome then s
  else
    match k.control with
    | c :: cs => s.modLink l fun k => { k with control := cs, wire := some ⟨ctlFrame s c, .control⟩ }
    | [] =>
      match k.sending with
      | none => s
      | some x =>
        match xferInfo s x with
        | none => s
        | some i =>
          if k.openOwed then startOpen l x i s
          else if 1 ≤ k.credit ∧ i.windowFull = false ∧ i.sent < i.size then startData l x i s
          else s

/-! ### The control list (R143) -/

/-- Whether two control frames are of the same kind for the same record, press line or link. -/
def CtlFrame.same : CtlFrame → CtlFrame → Bool
  | .release a _ _ _, .release b _ _ _ => a == b
  | .withdraw a _ _ _, .withdraw b _ _ _ => a == b
  | .targetWithdraw a _, .targetWithdraw b _ => a == b
  | .query a, .query b => a == b
  | .roll, .roll => true
  | .mark _ _, .mark _ _ => true
  | _, _ => false

/-- A frame joins the tail, or replaces the waiting one of the same kind and owner where it stands. -/
def joinControl (c : CtlFrame) (cs : List CtlFrame) : List CtlFrame :=
  if cs.any (fun d => d.same c) then cs.map (fun d => if d.same c then c else d) else cs ++ [c]

/-- Offers a control frame to a link: not taken while the link is not UP, started at once on a free wire. -/
def offer (l : LinkId) (c : CtlFrame) (s : State) : State :=
  if s.isUp l then kick l (s.modLink l fun k => { k with control := joinControl c k.control }) else s

/-- Takes waiting frames out of one link's control list. -/
def dropControlOn (l : LinkId) (p : CtlFrame → Bool) (s : State) : State :=
  s.modLink l fun k => { k with control := k.control.filter fun c => !p c }

/-- Takes waiting frames that their owner no longer awaits out of every link's control list. -/
def dropControl (p : CtlFrame → Bool) (s : State) : State :=
  allLinks.foldl (fun s l => dropControlOn l p s) s

/-- The RELEASE of a record. -/
def isRelease (n : Nat) : CtlFrame → Bool
  | .release m _ _ _ => m == n
  | _ => false

/-- The WITHDRAW of a record. -/
def isWithdraw (n : Nat) : CtlFrame → Bool
  | .withdraw m _ _ _ => m == n
  | _ => false

/-- The target WITHDRAW of a line. -/
def isTargetWithdraw (n : LineId) : CtlFrame → Bool
  | .targetWithdraw m _ => m == n
  | _ => false

/-- The QUERY of a line. -/
def isQuery (n : LineId) : CtlFrame → Bool
  | .query m => m == n
  | _ => false

/-- The ROLL of a link. -/
def isRoll : CtlFrame → Bool
  | .roll => true
  | _ => false

/-- The frames that are for a press line (R127 step 3). -/
def CtlFrame.isFor (n : LineId) : CtlFrame → Bool
  | .release _ m _ _ => m == n
  | .withdraw _ m _ _ => m == n
  | .targetWithdraw m _ => m == n
  | .query m => m == n
  | .roll => false
  | .mark _ _ => false

end Sys2Proof.Machine
end

