-- ==== Sys2Proof/Machine/Scheduler.lean ====
section
/-! DEFINITION. The transfer scheduler (04_transfer_scheduling.md): transfer time and latest start, link queues, picks, stops and
rewinds. -/

namespace Sys2Proof.Machine

/-! ### Transfer time and latest start (R70, R71) -/

/-- The path field size P for `h` hops (R70 stage 1). -/
def pathBytes (h : Nat) : Nat := if h ≤ 3 then 4 else 8

/-- The number of frames of `b` payload bytes (R70 stage 3). -/
def frameCount (b : Nat) : Nat := (b + 1023) / 1024

/-- The transfer time T in whole milliseconds (R70): `r` remaining payload bytes, `rt` target bytes, `h` hops, `rate` line bits
per millisecond. -/
def transferTime (r rt h rate : Nat) : Nat :=
  let o := pathBytes h + 14
  let w := r + frameCount r * o + rt + frameCount rt * o
  (10 * w + (rate - 1)) / rate

/-- The latest start L (R71): the deadline less T less the guard, 0 when T and guard exceed it. -/
def latestStart (deadline t guardMs : Nat) : Nat := deadline - (t + guardMs)

/-- Slack, for the mirror only: L less the press clock, clamped to a signed 32-bit number (R71). -/
def slack (l clock : Nat) : Int :=
  max (-2147483648) (min 2147483647 ((l : Int) - (clock : Int)))

/-- The target bytes Rt of a record: the size of its generation's catalog entry while it is in TARGET_WAIT, else 0 (R70). -/
def targetBytes (s : State) (r : DestRec) : Nat :=
  if r.state = .targetWait then
    match (s.line r.line).entry (s.recGen r) with
    | some e => e.size
    | none => 0
  else 0

/-- The latest start of a record from its inputs as they stand (R70, R71). -/
def recLatestStart (s : State) (r : DestRec) : Nat :=
  match s.page? r.parent with
  | none => 0
  | some p =>
    let k := s.line r.line
    latestStart r.deadline
      (transferTime (p.size - r.acked) (targetBytes s r) k.cfg.path.length (s.link k.cfg.link).rate)
      (s.link k.cfg.link).guardMs

/-- Computes and stores a record's latest start (R72). -/
def updateL (n : Nat) (s : State) : State :=
  match s.rec? n with
  | none => s
  | some r => s.modRec n fun q => { q with latestStart := recLatestStart s r }

/-! ### Claimants (R48) and the latest start of a slot (R56) -/

/-- A record claims its page's generation in every live state but VERIFY_WAIT and WITHDRAWING (R48). -/
def claims (s : State) (n : LineId) (g : U16) (r : DestRec) : Bool :=
  r.line == n && s.recGen r == g && g != 0 && !r.state.isFinal && r.state != .verifyWait && r.state != .withdrawing

/-- The claimants of a generation at a line, by rising record number (R48). -/
def claimants (s : State) (n : LineId) (g : U16) : List Nat :=
  (s.recs.filter fun e => claims s n g e.2).map fun e => e.1

/-- The waiting claimants: those in TARGET_WAIT (R48). -/
def waitingClaimants (s : State) (n : LineId) (g : U16) : List DestRec :=
  (s.recs.filter fun e => claims s n g e.2 && e.2.state == .targetWait).map fun e => e.2

/-- A slot's latest start: the smallest among the waiting claimants of its generation, or 4,294,967,295 (R56). -/
def slotLatestStart (s : State) (n : LineId) (g : U16) : Nat :=
  (waitingClaimants s n g).foldl (fun m r => min m r.latestStart) Config.maxU32

/-- A slot is urgent when a waiting claimant of its generation is LATE (R56). -/
def slotUrgent (s : State) (n : LineId) (g : U16) : Bool :=
  (waitingClaimants s n g).any fun r => r.late

/-! ### Queue order (R74) -/

/-- A transfer's three keys: urgent first, then L, then sequence (R74). -/
structure QueueKey where
  urgent : Bool
  l      : Nat
  seq    : Nat
deriving DecidableEq, Repr

def xferKey (s : State) : Xfer → QueueKey
  | .dest n =>
    match s.rec? n with
    | some r => ⟨r.late, r.latestStart, r.seq⟩
    | none => ⟨false, Config.maxU32, 0⟩
  | .slot n =>
    match (s.line n).slot with
    | some sl => ⟨sl.urgent, sl.latestStart, sl.seq⟩
    | none => ⟨false, Config.maxU32, 0⟩

/-- Whether `a` sorts before `b` (R74). -/
def QueueKey.before (a b : QueueKey) : Bool :=
  if a.urgent != b.urgent then a.urgent
  else if a.l ≠ b.l then decide (a.l < b.l)
  else decide (a.seq < b.seq)

/-- Inserts a transfer at the place its keys give it, behind entries that do not sort after it. -/
def insertByKey (s : State) (x : Xfer) : List Xfer → List Xfer
  | [] => [x]
  | y :: ys => if (xferKey s x).before (xferKey s y) then x :: y :: ys else y :: insertByKey s x ys

/-- Puts a queue into the order of R74. -/
def sortQueue (s : State) (q : List Xfer) : List Xfer :=
  q.foldl (fun acc x => insertByKey s x acc) []

/-- The press line of a transfer. -/
def xferLine (s : State) : Xfer → Option LineId
  | .dest n => (s.rec? n).map fun r => r.line
  | .slot n => some n

/-- Whether the press line of a transfer is READY (R77). -/
def xferReady (s : State) (x : Xfer) : Bool :=
  match xferLine s x with
  | some n => (s.line n).state == .ready
  | none => false

/-! ### The scheduler's mirror fields (R91) -/

/-- Brings the first-transfer field up to date: a different first transfer has its slack computed anew (R91). -/
def refreshFirst (l : LinkId) (s : State) : State :=
  s.modLink l fun k =>
    let first := k.queue.head?
    if first = k.first then k
    else { k with first := first
                  firstSlack := match first with
                    | some x => slack (xferKey s x).l s.clock.value
                    | none => 0 }

/-- The scheduler rewrites the link's mirror entry at every pick, completion, switch, stop, join, leave and move (R91). -/
def schedMirror (l : LinkId) (s : State) : State :=
  writeLinkMirror l (refreshFirst l s)

/-! ### Joining, leaving and moving in a queue (R74 to R76) -/

def setSeq (x : Xfer) (q : Nat) (s : State) : State :=
  match x with
  | .dest n => s.modRec n fun r => { r with seq := q }
  | .slot n => s.modSlot n fun sl => { sl with seq := q }

/-- Inserts by sequence, for the renumbering of R75. -/
def insertBySeq (s : State) (x : Xfer) : List Xfer → List Xfer
  | [] => [x]
  | y :: ys => if (xferKey s x).seq < (xferKey s y).seq then x :: y :: ys else y :: insertBySeq s x ys

/-- Every transfer in a queue or a SENDING slot, in the order of its sequence. -/
def sequenced (s : State) : List Xfer :=
  (allLinks.flatMap fun l => (s.link l).sending.toList ++ (s.link l).queue).foldl (fun acc x => insertBySeq s x acc) []

/-- Gives the listed transfers the sequences from `q` upward. -/
def renumberFrom (q : Nat) : List Xfer → State → State
  | [], s => s
  | x :: xs, s => renumberFrom (q + 1) xs (setSeq x q s)

/-- Renumbers from 0 upward and sets the counter to the number of transfers renumbered (R75). -/
def renumber (s : State) : State :=
  (renumberFrom 0 (sequenced s) s).setSeq (sequenced s).length

/-- Renumbers first where the counter would pass 4,294,967,295 (R75). -/
def roomForSeq (s : State) : State :=
  if Config.maxU32 ≤ s.seqNext then renumber s else s

/-- A transfer enters a link queue with the next sequence and the L it has (R75), the predicted-late check is made (R72), and
the mirror written (R91). That the counters area is written first, then the link mirror, then (placeRaw) the record's entry,
and for a slot (loadSlot, requeueSlot) the press-line mirror before them, is the model's choice (log entry 37). The pick that a join calls for is the caller's (R77). -/
def joinQueue (l : LinkId) (x : Xfer) (s : State) : State :=
  let s := roomForSeq s
  let s := (setSeq x s.seqNext s).setSeq (s.seqNext + 1)
  let s := s.modLink l fun k => { k with queue := insertByKey s x k.queue }
  let s := if (xferKey s x).l < s.clock.value then bumpCounter .predictedLates s else s
  schedMirror l s

/-- A transfer leaves a link queue; the others keep their order (R74). -/
def leaveQueue (l : LinkId) (x : Xfer) (s : State) : State :=
  if x ∈ (s.link l).queue then
    schedMirror l (s.modLink l fun k => { k with queue := k.queue.filter fun y => y != x })
  else s

/-- A waiting transfer moves to the place its present keys give it and keeps its sequence (R76). -/
def moveInQueue (l : LinkId) (x : Xfer) (s : State) : State :=
  if x ∈ (s.link l).queue then
    schedMirror l (s.modLink l fun k => { k with queue := insertByKey s x (k.queue.filter fun y => y != x) })
  else s

/-- Puts a whole queue back into order, sequences kept (R73). -/
def resortQueue (l : LinkId) (s : State) : State :=
  schedMirror l (s.modLink l fun k => { k with queue := sortQueue s k.queue })

/-! ### Picks (R77, R78) -/

/-- Makes a transfer the SENDING one: it leaves the queue, sent falls to acked, an OPEN is owed (R77, R78). That the record's
entry (R42), or the slot's press-line mirror (R134), is written before the link mirror (R91) is the model's choice (log entry 37). -/
def beginSending (l : LinkId) (x : Xfer) (s : State) : State :=
  let s := s.modLink l fun k => { k with
    queue := k.queue.filter fun y => y != x
    sending := some x
    sendingSlack := slack (xferKey s x).l s.clock.value
    lastCkpt := none
    windowTimer := none
    rewindPending := false
    openOwed := true }
  let s := match x with
    | .dest n => writeEntry n (s.modRec n fun r => { r with state := .sending, sent := r.acked })
    | .slot n => writeLineMirror n (s.modSlot n fun sl => { sl with state := .sending, sent := sl.acked })
  schedMirror l s

/-- The pick of R77: on an UP link with an empty SENDING slot, the first entry whose press line is READY. -/
def pick (l : LinkId) (s : State) : State :=
  let k := s.link l
  if k.state = .up ∧ k.sending = none then
    match k.queue.find? fun x => xferReady s x with
    | some x => kick l (beginSending l x s)
    | none => s
  else s

/-! ### Emptying the SENDING slot; rewinds (R82, R83, R85 to R88) -/

/-- A DATA frame of a stopped transfer that is still on the wire finishes and has no further effect (R87). -/
def WireFrame.void (x : Xfer) (w : WireFrame) : WireFrame :=
  match w.role with
  | .data y e c l _ => if y = x then { w with role := .data y e c l false } else w
  | .control => w
  | .openFrame => w

/-- Empties the SENDING slot with its window timer, latest checkpoint, owed OPEN and waiting rewind, and writes the mirror. -/
def clearSending (l : LinkId) (s : State) : State :=
  schedMirror l (s.modLink l fun k => { k with
    sending := none
    sendingSlack := 0
    windowTimer := none
    lastCkpt := none
    openOwed := false
    rewindPending := false })

/-- Stops a transfer in SENDING; the frame on the wire finishes and no further frame of it goes out (R87). The pick that
follows is the caller's. -/
def stopSending (l : LinkId) (x : Xfer) (s : State) : State :=
  if (s.link l).sending = some x then
    clearSending l (s.modLink l fun k => { k with wire := k.wire.map (WireFrame.void x) })
  else s

/-- Rewinds the SENDING transfer: sent falls to acked, the latest checkpoint is cleared, the window timer stops, the rewind is
counted and a fresh OPEN is owed (R82, R83). -/
def rewind (l : LinkId) (s : State) : State :=
  match (s.link l).sending with
  | none => s
  | some x =>
    match xferInfo s x with
    | none => s
    | some i =>
      kick l (bumpLink l (fun c => { c with rewinds := satInc c.rewinds })
        ((setSent x i.acked s).modLink l fun k => { k with
          lastCkpt := none
          windowTimer := none
          rewindPending := false
          openOwed := true }))

end Sys2Proof.Machine
end

