-- ==== Sys2Proof/Machine/Catalog.lean ====
section
/-! DEFINITION. The target catalog (03_colour_targets.md): reports of catalog entries, changeover, the slot's keys and its abort. -/

namespace Sys2Proof.Machine

/-! ### Reports of catalog entries and the order's end (R53) -/

/-- Writes the reporting fields of a target entry, bytes 12 to 15, while its order is not final (R53, R178). -/
def reportEntry (e : CatEntry) (state detail : Nat) (s : State) : State :=
  match e.report with
  | none => s
  | some (entry, _) => hostWrite (entry + 12) (leBytes 1 state ++ leBytes 1 detail ++ leBytes 2 0) s

/-- The reporting detail of an entry: its fault detail while FAULTED, else 0 (R53). -/
def CatEntry.reportDetail (e : CatEntry) : Nat :=
  match e.state, e.faultDetail with
  | .faulted, some f => f.detail.code
  | _, _ => 0

/-- Catalog entries forget the address of an order that has become final (R53). -/
def forgetOrder (number : Nat) (s : State) : State :=
  allLines.foldl (fun s n => s.modLine n fun k =>
    { k with catalog := k.catalog.map fun e => if e.report.map Prod.snd = some number then { e with report := none } else e }) s

/-- The numbers that the ISSUE TARGET orders not yet final, and the catalog entries that report to one, bear. -/
def orderNumbers (s : State) : List Nat :=
  (s.targetOrders.map fun t => t.number) ++
    allLines.flatMap fun n => (s.line n).catalog.filterMap fun e => e.report.map Prod.snd

/-- A number that none of them bears: it tells a new order from an earlier one at the same address (R53, log entry 26). -/
def freshOrder (s : State) : Nat :=
  (orderNumbers s).foldl (fun m k => max m (k + 1)) 0

/-- An order with no entry left to wait for gets its final disposition (R53). -/
def endTargetOrder (t : TargetOrder) (s : State) : State :=
  if t.notDone = 0 then
    forgetOrder t.number (finalDisposition t.addr (if t.faulted = 0 then .done else .faulted) t.faulted
      (s.setTargetOrders (s.targetOrders.filter fun u => u.number != t.number)))
  else s

/-- Counts entries done and faulted for an entry's order, and ends the order when every entry is done (R53). -/
def targetProgress (e : CatEntry) (done faulted : Nat) (s : State) : State :=
  match e.report with
  | none => s
  | some (_, number) =>
    match s.targetOrders.find? fun t => t.number == number with
    | none => s
    | some t =>
      let t' : TargetOrder := { t with notDone := t.notDone - done, faulted := t.faulted + faulted }
      endTargetOrder t' (s.setTargetOrders (s.targetOrders.map fun u => if u.number == number then t' else u))

/-- Changes the entry of a generation in a line's catalog. -/
def State.modEntry (s : State) (n : LineId) (g : U16) (f : CatEntry → CatEntry) : State :=
  s.modLine n fun k => { k with catalog := k.catalog.map fun e => if e.generation == g then f e else e }

/-- A catalog entry changes state: the entry, its line's mirror (R134), its target entry, and its order's count (R46, R53). That the
mirror is written before the target entry is the model's choice (log entry 36). -/
def setCatState (n : LineId) (g : U16) (f : CatEntry → CatEntry) (done faulted : Nat) (s : State) : State :=
  let s := writeLineMirror n (s.modEntry n g f)
  match (s.line n).entry g with
  | none => s
  | some e => targetProgress e done faulted (reportEntry e e.state.code e.reportDetail s)

/-! ### The target slot's keys (R56) -/

/-- Recomputes L and urgency of a loaded slot; a QUEUED slot whose key changed moves in its queue (R56, R76). -/
def refreshSlot (n : LineId) (s : State) : State :=
  match (s.line n).slot with
  | none => s
  | some sl =>
    if sl.latestStart = slotLatestStart s n sl.generation ∧ sl.urgent = slotUrgent s n sl.generation then s
    else
      moveInQueue (s.linkOf n) (.slot n)
        (s.modSlot n fun q => { q with latestStart := slotLatestStart s n sl.generation
                                       urgent := slotUrgent s n sl.generation })

/-! ### Changeover (R54, R55, R57) -/

/-- The pending push: the newest READY entry with its push mark set and a generation above H (R55). -/
def pendingPush (k : Line) : Option U16 :=
  ((k.catalog.filter fun e => e.state == .ready && e.push && decide (k.held.toNat < e.generation.toNat)).getLast?).map
    fun e => e.generation

/-- The oldest READY generation of the line that has a claimant (R57). -/
def wantedGeneration (s : State) (n : LineId) : Option U16 :=
  ((s.line n).catalog.find? fun e => e.state == .ready && !(claimants s n e.generation).isEmpty).map fun e => e.generation

/-- What a changeover of the line would load now, or none where a condition of R54 fails (R54, R57). -/
def changeoverChoice (s : State) (n : LineId) : Option U16 :=
  let k := s.line n
  if k.slot = none ∧ k.enabled = true ∧ (k.held = 0 ∨ claimants s n k.held = []) then
    match wantedGeneration s n with
    | some g => some g
    | none => pendingPush k
  else none

/-- A slot freshly loaded with a generation (R57). -/
def Slot.loaded (g : U16) (l : Nat) (urgent : Bool) : Slot where
  state := .queued
  generation := g
  attempts := 0
  sent := 0
  acked := 0
  latestStart := l
  seq := 0
  urgent := urgent
  siteHasData := false
  timer := none

/-- Loads the slot, writes the press-line mirror and enters the slot into its link's queue (R57). That the press-line mirror is written
before the counters area and the link mirror of the join is the model's choice (log entry 37). -/
def loadSlot (n : LineId) (g : U16) (s : State) : State :=
  let s := s.modLine n fun k => { k with slot := some (Slot.loaded g (slotLatestStart s n g) (slotUrgent s n g)) }
  pick (s.linkOf n) (joinQueue (s.linkOf n) (.slot n) (writeLineMirror n s))

/-- The changeover check (R54). -/
def changeoverCheck (n : LineId) (s : State) : State :=
  match changeoverChoice s n with
  | some g => loadSlot n g s
  | none => s

/-- The catalog re-examines a line: the keys of a loaded slot, then the changeover check (R48). -/
def reexamine (n : LineId) (s : State) : State :=
  changeoverCheck n (refreshSlot n s)

/-! ### A slot returns to QUEUED or to IDLE -/

/-- The slot returns to QUEUED with a new sequence and a recomputed L and urgency (R56, R59, R61, R62), and the link picks (R77).
That the press-line mirror is written before the counters area and the link mirror of the join is the model's choice (log entry
37). -/
def requeueSlot (n : LineId) (f : Slot → Slot) (s : State) : State :=
  match (s.line n).slot with
  | none => s
  | some sl =>
    let s := s.modSlot n fun q =>
      { f q with state := .queued, timer := none
                 latestStart := slotLatestStart s n sl.generation, urgent := slotUrgent s n sl.generation }
    pick (s.linkOf n) (joinQueue (s.linkOf n) (.slot n) (writeLineMirror n s))

/-- The slot returns to IDLE, and the mirror shows it (R60, R61, R63). -/
def idleSlot (n : LineId) (s : State) : State :=
  writeLineMirror n (s.modLine n fun k => { k with slot := none })

/-- Takes the slot's transfer out of its queue or its SENDING slot, whichever it stands in (R63, R87). -/
def detachSlot (n : LineId) (s : State) : State :=
  stopSending (s.linkOf n) (.slot n) (leaveQueue (s.linkOf n) (.slot n) s)

/-- Sends the target WITHDRAW on an UP link, or leaves it owed (R63). -/
def withdrawTarget (n : LineId) (g : U16) (s : State) : State :=
  if s.isUp (s.linkOf n) then offer (s.linkOf n) (.targetWithdraw n g) s
  else s.modLine n fun k => { k with owed := some g }

/-- Aborts the slot's transfer (R63): it leaves its queue or stops, a target WITHDRAW goes out or is owed where the site may hold
data, the slot is IDLE, and the link picks anew (R87). The changeover check that follows is the caller's (log entry 10). -/
def abortSlot (n : LineId) (s : State) : State :=
  match (s.line n).slot with
  | none => s
  | some sl =>
    let s := detachSlot n s
    pick (s.linkOf n) (idleSlot n (if sl.siteHasData then withdrawTarget n sl.generation s else s))

end Sys2Proof.Machine
end

