-- ==== Sys2Proof/Machine/Pool.lean ====
section
/-! DEFINITION. The destination pool (02_destinations_and_delivery.md) with the deadline list's insertions and removals (R92 to
R94): changes of state, placing, release, retraction. -/

namespace Sys2Proof.Machine

/-! ### The deadline list (R92, R94) -/

/-- Inserts an entry behind every entry whose due time is the same or smaller (R92). -/
def insertDue (e : DeadlineEntry) : List DeadlineEntry → List DeadlineEntry
  | [] => [e]
  | d :: ds => if e.due < d.due then e :: d :: ds else d :: insertDue e ds

def addDeadline (e : DeadlineEntry) (s : State) : State :=
  s.setDeadlines (insertDue e s.deadlines)

/-- Removes the entry of a record, if it has one (R94). -/
def removeDeadline (n : Nat) (s : State) : State :=
  s.setDeadlines (s.deadlines.filter fun d => d.dest != n)

/-- The monitor acts on a record's entry by the state the record has entered (R94, R104). -/
def monitor (n : Nat) (s : State) : State :=
  match s.rec? n with
  | none => s
  | some r =>
    match r.state with
    | .verifyWait | .targetWait | .queued | .sending | .receiptWait | .withdrawing => s
    | .delivered =>
      let s := removeDeadline n s
      match (s.page? r.parent).bind fun p => p.release with
      | some t => if s.reached t then s else addDeadline ⟨t, n, .release⟩ s
      | none => s
    | .releasing | .released | .failed | .stale | .missed | .withdrawn => removeDeadline n s

/-! ### Changes of state (R24) -/

/-- The pool applies a change: the record, then its entry's write, then the monitor's action (R24 steps 1 and 2). The catalog's
re-examination (step 3) and the page-end check (step 4) follow in the caller, once the event's changes are applied. -/
def applyChange (n : Nat) (f : DestRec → DestRec) (s : State) : State :=
  monitor n (writeEntry n (s.modRec n f))

/-- A record goes to a final state with a detail; its reply timer stops, and no control frame of it waits any more (R143). -/
def finish (n : Nat) (st : DestState) (d : Detail) (s : State) : State :=
  dropControl (fun c => isRelease n c || isWithdraw n c)
    (applyChange n (fun r => { r with state := st, detail := d, timer := .stopped }) s)

/-- Takes a record's transfer out of its queue or its SENDING slot, whichever it stands in (R36, R39, R87). That this writes the link
mirror, before the caller writes the record's entry, is the model's choice (log entry 37). -/
def detachRec (n : Nat) (s : State) : State :=
  match s.rec? n with
  | none => s
  | some r =>
    match r.state with
    | .queued => leaveQueue (s.linkOf r.line) (.dest n) s
    | .sending => stopSending (s.linkOf r.line) (.dest n) s
    | .verifyWait | .targetWait | .receiptWait | .delivered | .releasing | .withdrawing
    | .released | .failed | .stale | .missed | .withdrawn => s

/-! ### WITHDRAW and RELEASE frames (R34, R37) -/

/-- Sends the WITHDRAW of a record: the send is counted, the timer starts, the frame is offered (R37). -/
def sendWithdraw (n : Nat) (s : State) : State :=
  match s.rec? n with
  | none => s
  | some r =>
    match s.page? r.parent with
    | none => s
    | some p =>
      offer (s.linkOf r.line) (.withdraw n r.line p.key p.version)
        (s.modRec n fun q => { q with sendCount := q.sendCount + 1, timer := .running Config.replyMs })

/-- Sends the RELEASE of a record: the send is counted, the timer starts, the frame is offered (R34). -/
def sendRelease (n : Nat) (s : State) : State :=
  match s.rec? n with
  | none => s
  | some r =>
    match s.page? r.parent with
    | none => s
    | some p =>
      offer (s.linkOf r.line) (.release n r.line p.key p.version)
        (s.modRec n fun q => { q with sendCount := q.sendCount + 1, timer := .running Config.replyMs })

/-- The WITHDRAW that a WITHDRAWING record still owes goes out where its link is UP (R37). -/
def sendOwedWithdraw (n : Nat) (s : State) : State :=
  match s.rec? n with
  | none => s
  | some r =>
    if r.state = .withdrawing ∧ r.sendCount = 0 ∧ s.isUp (s.linkOf r.line) then sendWithdraw n s else s

/-! ### Retraction (R36) -/

/-- Sends a record back from its site or ends it, its transfer being stopped (R36, last two cases). -/
def takeBack (n : Nat) (r : DestRec) (x : RetractEnd) (d : Detail) (s : State) : State :=
  if r.siteHasData then
    sendOwedWithdraw n (dropControl (isRelease n)
      (applyChange n (fun q => { q with
        state := .withdrawing
        detail := .none
        retract := some (x, d)
        timer := .stopped
        sendCount := 0 }) s))
  else finish n x.state d s

/-- Retraction of one record with a final state and a detail (R36); where it stops a transfer the link picks anew (R87). That the
link mirror (detachRec) is written before the record's entry is the model's choice (log entry 37). The catalog's re-examination is
the caller's. -/
def retract (n : Nat) (x : RetractEnd) (d : Detail) (s : State) : State :=
  match s.rec? n with
  | none => s
  | some r =>
    if r.state.isFinal ∨ r.state = .withdrawing then s
    else
      let s' := takeBack n r x d (detachRec n s)
      if r.state = .sending then pick (s.linkOf r.line) s' else s'

/-- Retraction of one record, after which the catalog re-examines the line (R24, R36). -/
def retractAlone (n : Nat) (x : RetractEnd) (d : Detail) (s : State) : State :=
  match s.rec? n with
  | none => s
  | some r => reexamine r.line (retract n x d s)

/-- Retraction of several records of one line, in the order given. The catalog's re-examination is the caller's. -/
def retractMany (ids : List Nat) (x : RetractEnd) (d : Detail) (s : State) : State :=
  ids.foldl (fun s i => retract i x d s) s

/-- Retraction of the listed records of a page, in destination-list order, each a change of its own (R14, R16, R17, R24). -/
def retractPage (ids : List Nat) (x : RetractEnd) (d : Detail) (s : State) : State :=
  ids.foldl (fun s i => retractAlone i x d s) s

/-! ### Placing (R25) -/

inductive Placement where
  | queued
  | targetWait
  | ended (x : RetractEnd) (d : Detail)
deriving DecidableEq, Repr

/-- The table of R25. That a record whose generation the catalog does not hold is STALE after a reset too, as the table and R46 say, and
does not wait for the generation to be issued again as R68 says, is the model's choice (log entry 58). -/
def placement (s : State) (r : DestRec) : Placement :=
  let g := s.recGen r
  if g = 0 ∨ (s.line r.line).held = g then .queued
  else
    match (s.line r.line).entry g with
    | some e => if e.state = .faulted then .ended .failed .targetSource else .targetWait
    | none => .ended .stale .none

/-- Puts a record where placing says (R25): QUEUED in its link's queue with its L, after which the link picks (R77, log entry 9);
TARGET_WAIT with its L (R72); or a retraction. The re-examination is the caller's. -/
def placeRaw (n : Nat) (s : State) : State :=
  match s.rec? n with
  | none => s
  | some r =>
    match placement s r with
    | .queued =>
      pick (s.linkOf r.line) (applyChange n id (joinQueue (s.linkOf r.line) (.dest n)
        (updateL n (s.modRec n fun q => { q with state := .queued, timer := .stopped }))))
    | .targetWait =>
      applyChange n id (updateL n (s.modRec n fun q => { q with state := .targetWait, timer := .stopped }))
    | .ended x d => retract n x d s

/-- Placing of one record, after which the catalog re-examines the line (R24, R25). -/
def place (n : Nat) (s : State) : State :=
  match s.rec? n with
  | none => s
  | some r => reexamine r.line (placeRaw n s)

/-! ### Release (R33, R34) -/

/-- The three conditions of the release check (R33). -/
def mayRelease (s : State) (r : DestRec) : Bool :=
  r.state == .delivered && (s.recGen r == 0 || (s.line r.line).held == s.recGen r) &&
    (match (s.page? r.parent).bind fun p => p.release with | some t => s.reached t | none => true) &&
    s.isUp (s.linkOf r.line)

/-- A record that passed the release check enters RELEASING, its RELEASE still to be sent (R34). -/
def enterReleasing (n : Nat) (s : State) : State :=
  applyChange n (fun q => { q with state := .releasing, sendCount := 0 }) s

/-- The release check of a DELIVERED record: when it passes, the record goes to RELEASING (R33, R34). -/
def releaseCheck (n : Nat) (s : State) : State :=
  match s.rec? n with
  | none => s
  | some r => if mayRelease s r then sendRelease n (enterReleasing n s) else s

/-! ### Receipts (R29, R30) -/

/-- A good receipt: DELIVERED, acked at the page size, the timer stopped; then the release check (R29). -/
def deliver (n : Nat) (s : State) : State :=
  match s.rec? n with
  | none => s
  | some r =>
    let size := match s.page? r.parent with | some p => p.size | none => r.acked
    releaseCheck n (applyChange n (fun q => { q with state := .delivered, acked := size, timer := .stopped }) s)

/-- A failed attempt: at the third the record is FAILED, before that it is placed for another sending (R30). -/
def attemptFailed (n : Nat) (s : State) : State :=
  match s.rec? n with
  | none => s
  | some r =>
    if Config.maxAttempts ≤ r.attempts + 1 then
      reexamine r.line (finish n .failed .noGoodReceipt (s.modRec n fun q => { q with attempts := q.attempts + 1 }))
    else
      place n (s.modRec n fun q => { q with attempts := q.attempts + 1, acked := 0, sent := 0 })

end Sys2Proof.Machine
end

