-- ==== Sys2Proof/Machine/Pages.lean ====
section
/-! DEFINITION. The verify engine (R6 to R13, R52) and the end of page entries (R17, R18). -/

namespace Sys2Proof.Machine

/-! ### Joining and leaving verification (R6, R7, R13) -/

def joinVerify (i : VerifyItem) (s : State) : State :=
  s.modVerify fun v => { v with queue := v.queue ++ [i] }

/-- An item leaves verification: out of the queue where it stands, or its pass is stopped and its result discarded (R13). -/
def leaveVerify (i : VerifyItem) (s : State) : State :=
  s.modVerify fun v => { v with queue := v.queue.filter fun j => j != i
                                busy := if v.busy = some i then none else v.busy }

/-- Starts a pass on an item: it becomes VERIFYING (R7, R46). -/
def startPass (i : VerifyItem) (s : State) : State :=
  match i with
  | .page p => s.modPage p fun e => { e with state := .verifying }
  | .target n g => setCatState n g (fun e => { e with state := .verifying }) 0 0 s

/-- Whenever the engine is idle and the queue not empty, it takes the item at the head (R7). -/
def startVerify (s : State) : State :=
  match s.verify.busy, s.verify.queue with
  | none, i :: is => startPass i (s.modVerify fun _ => ⟨is, some i⟩)
  | _, _ => s

/-! ### The end of a page entry (R18) -/

/-- Whether every destination of a page is final. -/
def pageEnded (s : State) (p : Page) : Bool :=
  p.dests.all fun n =>
    match s.rec? n with
    | some r => r.state.isFinal
    | none => true

/-- How many destinations of a page ended RELEASED (R18). -/
def releasedCount (s : State) (p : Page) : Nat :=
  (p.dests.filter fun n =>
    match s.rec? n with
    | some r => r.state == .released
    | none => false).length

/-- The disposition and detail a page entry is freed with (R18). -/
def pageOutcome (s : State) (p : Page) : Disposition × Nat :=
  match p.cause with
  | none => (.done, releasedCount s p)
  | some .superseded => (.superseded, releasedCount s p)
  | some .withdrawn => (.withdrawn, releasedCount s p)
  | some (.faulted why) => (.faulted, why.detail.code)

/-- Frees a page entry: out of verification, the final disposition, the records back to the free list, the entry free (R18). -/
def freePage (n : Nat) (p : Page) (s : State) : State :=
  let s := leaveVerify (.page n) s
  let s := finalDisposition p.orderAddr (pageOutcome s p).1 (pageOutcome s p).2 s
  let s := p.dests.foldl (fun s i => s.delRec i) (s.setFree (s.free ++ p.dests))
  s.delPage n

/-- The page-end check of one entry (R18). -/
def pageEndCheck (n : Nat) (s : State) : State :=
  match s.page? n with
  | none => s
  | some p => if pageEnded s p then freePage n p s else s

/-- The page-end check that a record which has become final calls for (R24 step 4). -/
def pageEndOf (n : Nat) (s : State) : State :=
  match s.rec? n with
  | none => s
  | some r => if r.state.isFinal then pageEndCheck r.parent s else s

/-- The page-end check of every entry in use, for events that move records of several pages (R18). -/
def sweepPages (s : State) : State :=
  (Table.keys s.pages).foldl (fun s p => pageEndCheck p s) s

/-! ### Faults of a page's payload (R10, R11, R17) -/

/-- A page faults: RETIRING with its cause, every live destination retracted FAILED with the fault's detail, and the FAULT attention
cause (R10, R11, R17). That FAULT follows the entry writes that show its reason, and goes before the page-end check, is read
from item 4 of R170 against the order of sentences of R10 (log entry 34). -/
def faultPage (n : Nat) (why : SourceFault) (s : State) : State :=
  match s.page? n with
  | none => s
  | some p =>
    raise .fault (retractPage p.dests .failed why.detail
      (s.modPage n fun e => { e with state := .retiring, cause := some (.faulted why) }))

/-! ### Outcomes of a pass (R9 to R12, R52) -/

/-- A page's pass read its last byte (R9, R10). Each record is placed, and its link picks, before the next is (log entry 9). -/
def pagePassEnd (n : Nat) (crc : U32) (s : State) : State :=
  match s.page? n with
  | none => s
  | some p =>
    let s := s.modPage n fun e => { e with computedCrc := some crc }
    if p.statedCrc = none ∨ p.statedCrc = some crc then
      p.dests.foldl (fun s i =>
          match s.rec? i with
          | some r => if r.state = .verifyWait then place i s else s
          | none => s)
        (s.modPage n fun e => { e with state := .active })
    else faultPage n .mismatch s

/-- A catalog entry faults in its pass: FAULT is raised and its claimants are retracted (R52). That FAULT follows the
target entry's write is DEDUCED (log entry 34); that it also follows the final disposition and ORDER_FINAL of an order that this
entry ends (setCatState) is the model's choice (log entry 42). -/
def catalogPassFault (n : LineId) (g : U16) (why : SourceFault) (crc : Option U32) (s : State) : State :=
  let s := raise .fault (setCatState n g
    (fun e => { e with state := .faulted, faultDetail := some why, computedCrc := crc }) 1 1 s)
  reexamine n (retractMany (claimants s n g) .failed .targetSource s)

/-- A catalog entry's pass read its last byte (R52). -/
def catalogPassEnd (n : LineId) (g : U16) (crc : U32) (s : State) : State :=
  match (s.line n).entry g with
  | none => s
  | some e =>
    if e.statedCrc = none ∨ e.statedCrc = some crc then
      reexamine n (setCatState n g (fun e => { e with state := .ready, computedCrc := some crc }) 1 0 s)
    else catalogPassFault n g .mismatch (some crc) s

/-- The pass of the item being read has read its last byte: the engine is idle, the pass is counted, its CRC-32 compared
(R7 to R10, R52). That the counters area is written before the outcome's writes is the model's choice (log entry 48). -/
def passEnd (payload : List Byte) (s : State) : State :=
  match s.verify.busy with
  | none => s
  | some i =>
    let s := bumpCounter .verifyPasses (s.modVerify fun v => { v with busy := none })
    match i with
    | .page n => pageEndCheck n (pagePassEnd n (crc32 payload) s)
    | .target n g => sweepPages (catalogPassEnd n g (crc32 payload) s)

/-- A DMA read of the pass returned an error: the engine is idle and the item faults with SOURCE_READ; the pass is not counted
(R7, R11, R52). -/
def passReadError (s : State) : State :=
  match s.verify.busy with
  | none => s
  | some i =>
    let s := s.modVerify fun v => { v with busy := none }
    match i with
    | .page n => pageEndCheck n (faultPage n .read s)
    | .target n g => sweepPages (catalogPassFault n g .read none s)

/-! ### Read errors while sending (R17, R64) -/

/-- A read made for a DATA frame of a record failed (R17): an ACTIVE page faults, whatever has become of the record meanwhile, and a
RETIRING page only raises FAULT. No read is made for a page that is not yet verified. That the transfer stops at its record's place in
the retraction, so that its link mirror (R87, R91) follows the entries of the records before it, is the model's choice (log entry
51). -/
def pageReadError (n : Nat) (s : State) : State :=
  match s.rec? n with
  | none => s
  | some r =>
    match s.page? r.parent with
    | none => s
    | some p =>
      match p.state with
      | .active => pageEndCheck r.parent (faultPage r.parent .read s)
      | .retiring => raise .fault s
      | .verifyQueued | .verifying => s

/-- A read made for a DATA frame of a line's slot failed (R64). The abort ends with the changeover check of R63, before the claimants
are retracted. That FAULT follows the target entry's write is DEDUCED (log entry 34). That the transfer stops in the abort, so that
its link mirror (R87, R91) follows the press-line mirror, the target entry and FAULT, is the model's choice (log entry 51). That an
error which finds the slot out of SENDING does nothing is the model's choice (log entry 38). -/
def slotReadError (n : LineId) (s : State) : State :=
  match (s.line n).slot with
  | none => s
  | some sl =>
    if sl.state = .sending then
      let s := raise .fault (setCatState n sl.generation
        (fun e => { e with state := .faulted, faultDetail := some .read }) 0 1 s)
      let s := changeoverCheck n (abortSlot n s)
      let s := retractMany (claimants s n sl.generation) .failed .targetSource s
      sweepPages (reexamine n s)
    else s

end Sys2Proof.Machine
end

