-- ==== Sys2Proof/Machine/Deadlines.lean ====
section
/-! DEFINITION. The deadline monitor (05_deadlines_and_fallback.md): WARN, MISS and RELEASE firings, fallback creation, the run of
due entries. -/

namespace Sys2Proof.Machine

/-- The due time of a WARN: the deadline less the warn lead, 0 where the lead exceeds it (R93). -/
def warnDue (deadline lead : Nat) : Nat := deadline - lead

/-- The states on which a WARN or MISS acts in full (R96, R98). -/
def DestState.awaiting : DestState → Bool
  | .verifyWait | .targetWait | .queued | .sending | .receiptWait => true
  | .delivered | .releasing | .withdrawing | .released | .failed | .stale | .missed | .withdrawn => false

/-- Setting LATE reaches the record's neighbours: its place in the queue, or the catalog's slot (R97). -/
def lateEffects (n : Nat) (s : State) : State :=
  match s.rec? n with
  | none => s
  | some r =>
    match r.state with
    | .queued => reexamine r.line (moveInQueue (s.linkOf r.line) (.dest n) s)
    | .targetWait | .sending | .receiptWait => reexamine r.line s
    | .verifyWait | .delivered | .releasing | .withdrawing
    | .released | .failed | .stale | .missed | .withdrawn => s

/-- A WARN entry fires (R96). -/
def fireWarn (n : Nat) (s : State) : State :=
  match s.rec? n with
  | none => s
  | some r =>
    if r.state.awaiting then
      addDeadline ⟨r.deadline, n, .miss⟩
        (raise .late (lateEffects n (writeEntry n (s.modRec n fun q => { q with late := true }))))
    else if r.state = .withdrawing then
      addDeadline ⟨r.deadline, n, .miss⟩ (writeEntry n (s.modRec n fun q => { q with late := true }))
    else s

/-! ### Fallback (R101 to R103) -/

/-- The first failing condition of R102, or the alternate line to which the fallback goes. -/
def fallbackTarget (s : State) (r : DestRec) (p : Page) : Detail ⊕ LineId :=
  match (s.line r.line).cfg.alternate with
  | none => .inl .fallbackNone
  | some a =>
    if (s.line a).enabled = false then .inl .fallbackLineUnusable
    else if p.dests.any (fun i => match s.rec? i with | some q => q.line == a | none => false) then
      .inl .fallbackAlreadyDestination
    else if s.free = [] then .inl .fallbackPoolFull
    else .inr a

/-- A fallback record as it is taken into use (R23, R103). -/
def fallbackRec (origin : Nat) (r : DestRec) (line : LineId) (extension : Nat) : DestRec where
  parent := r.parent
  line := line
  deadline := min (r.deadline + extension) Config.maxU32
  state := .verifyWait
  late := false
  missed := false
  siteHasData := false
  isFallback := true
  attempts := 0
  sent := 0
  acked := 0
  latestStart := 0
  seq := 0
  origin := some origin
  retract := none
  detail := .none
  sendCount := 0
  timer := .stopped
  entryAddr := r.entryAddr
  fallback := .none

/-- The first place of a fallback of an ACTIVE page (R25, R103): as placing says, its state standing before the origin's entry is
written for it. -/
def placeFallback (n : Nat) (s : State) : State :=
  match s.rec? n with
  | none => s
  | some r =>
    match placement s r with
    | .queued =>
      joinQueue (s.linkOf r.line) (.dest n) (updateL n (s.modRec n fun q => { q with state := .queued }))
    | .targetWait => updateL n (s.modRec n fun q => { q with state := .targetWait })
    | .ended x d => s.modRec n fun q => { q with state := x.state, detail := d }

/-- The write of the origin's entry that a fallback's creation makes: the fallback's line, its first state and the detail NONE (R43),
also where placing ends the fallback at once with a detail of its own (R103, log entry 35). -/
def writeCreation (o n : Nat) (s : State) : State :=
  match s.rec? o with
  | none => s
  | some r => hostWrite (r.entryAddr + 8) (entryBytes (s.modRec n fun q => { q with detail := .none }) r) s

/-- The pick that a record newly QUEUED calls for (R77). -/
def pickIfQueued (n : Nat) (s : State) : State :=
  match s.rec? n with
  | none => s
  | some r => if r.state = .queued then pick (s.linkOf r.line) s else s

/-- Creates the fallback of an origin on the alternate line (R102, R103): the record at the head of the free list, its WARN, its
first state, then the origin's entry (R43) and the counter, and the pick where the fallback has joined a queue. That the counter's
write comes before that pick and the catalog's re-examination of the alternate line (R24) is the model's choice (log entry 44). -/
def makeFallback (o : Nat) (r : DestRec) (p : Page) (a : LineId) (s : State) : State :=
  match s.free with
  | [] => s
  | n :: rest =>
    let f := fallbackRec o r a (s.line r.line).cfg.extension
    let s := (s.setFree rest).putRec n f
    let s := s.modPage r.parent fun e => { e with dests := e.dests ++ [n] }
    let s := s.modRec o fun q => { q with fallback := .made n }
    let s := addDeadline ⟨warnDue f.deadline (s.line a).cfg.warnLead, n, .warn⟩ s
    let s := if p.state = .active then placeFallback n s else s
    reexamine a (pickIfQueued n (bumpCounter .fallbacksMade (monitor n (writeCreation o n s))))

/-- The fallback that a MISS under FALLBACK asks for (R101 step 2, R102). -/
def askFallback (o : Nat) (s : State) : State :=
  match s.rec? o with
  | none => s
  | some r =>
    match s.page? r.parent with
    | none => s
    | some p =>
      match fallbackTarget s r p with
      | .inr a => makeFallback o r p a s
      | .inl why =>
        bumpCounter .fallbacksFailed (writeEntry o (s.modRec o fun q => { q with fallback := .failed why }))

/-- The late policy that governs a record: its page's, but CONTINUE for a fallback (R98). -/
def recPolicy (s : State) (r : DestRec) : LatePolicy :=
  if r.isFallback then .continue_
  else match s.page? r.parent with
    | some p => p.policy
    | none => .continue_

/-- A MISS entry fires (R98 to R101). -/
def fireMiss (n : Nat) (s : State) : State :=
  match s.rec? n with
  | none => s
  | some r =>
    if r.state.awaiting then
      let s := raise .missed (writeEntry n (s.modRec n fun q => { q with missed := true }))
      match recPolicy s r with
      | .continue_ => s
      | .drop => retractAlone n .missed .none s
      | .fallback => askFallback n (retractAlone n .missed .none s)
    else if r.state = .withdrawing then writeEntry n (s.modRec n fun q => { q with missed := true })
    else s

/-- A RELEASE entry fires: the release check of a DELIVERED record (R104). -/
def fireRelease (n : Nat) (s : State) : State :=
  releaseCheck n s

/-- Fires an entry that has left the list, by its kind; the page-end check follows the firing (R95, R101). -/
def fireEntry (d : DeadlineEntry) (s : State) : State :=
  match d.kind with
  | .warn => fireWarn d.dest s
  | .miss => pageEndOf d.dest (fireMiss d.dest s)
  | .release => fireRelease d.dest s

/-- The head of the list fires where its due time has been reached (R95). -/
def fireHead (s : State) : State :=
  match s.deadlines with
  | [] => s
  | d :: ds => if s.reached d.due then fireEntry d (s.setDeadlines ds) else s

/-- Whether the head of the list is due. -/
def headDue (s : State) : Bool :=
  match s.deadlines with
  | [] => false
  | d :: _ => s.reached d.due

/-- Fires heads while they are due, at most `k` of them. `next` is what follows each firing: `startVerify`, since a firing whose page
end leaves the verify engine idle has it start anew, or `id` within a take, where the engine starts on no item (R7). -/
def fireRun (next : State → State) : Nat → State → State
  | 0, s => s
  | k + 1, s => if headDue s then fireRun next k (next (fireHead s)) else s

/-- The run of R95: until the list is empty or its head lies beyond the press clock. One entry leads to four firings at most:
a WARN, its MISS, and the WARN and MISS of the fallback that the MISS creates. -/
def fireDue (next : State → State) (s : State) : State :=
  fireRun next (4 * s.deadlines.length) s

end Sys2Proof.Machine
end

