-- ==== Sys2Proof/Machine/Lines.lean ====
section
/-! DEFINITION. Changes of a press line's state (R129 to R134), status queries (R157 to R160) and roll-call windows (R153 to R156). -/

namespace Sys2Proof.Machine

/-! ### Counted changes and the mirror (R134, R160) -/

/-- Whether the state or the status byte differs, which is what is counted (R134). -/
def Line.differs (old new : Line) : Bool :=
  old.state != new.state || old.statusByte != new.statusByte

/-- The re-query timer after a line has gone from `old` to `new` (R160): stopped outside UNKNOWN, started on becoming UNKNOWN on an
UP link without a query. -/
def requeryAfter (up : Bool) (old new : Line) : Option Nat :=
  if new.state ≠ .unknown then none
  else if old.state ≠ .unknown ∧ up = true ∧ new.query = none then some Config.requeryMs
  else new.requery

/-- A line that was `old` at the start of the event stands changed: one count where state or byte differs, the re-query timer, and
the mirror where state, byte or timeout count differs (R134). -/
def settleLine (old : Line) (n : LineId) (s : State) : State :=
  let new := s.line n
  let s := s.modLine n fun k => { k with
    requery := requeryAfter (s.isUp new.cfg.link) old new
    changeCount := if old.differs new then satInc k.changeCount else k.changeCount }
  if old.differs new || old.timeouts != new.timeouts then writeLineMirror n s else s

/-- Changes one line by `f` as one event of it. -/
def changeLine (n : LineId) (f : Line → Line) (s : State) : State :=
  settleLine (s.line n) n (s.modLine n f)

/-- LINE_CHANGED follows the mirror write of a counted change of one line (R134). -/
def raiseIfChanged (old : Line) (n : LineId) (s : State) : State :=
  if old.differs (s.line n) then raise .lineChanged s else s

/-- One LINE_CHANGED follows the last write when an event has changed several lines (R134). -/
def raiseIfAnyChanged (old : State) (s : State) : State :=
  if allLines.any fun n => (old.line n).differs (s.line n) then raise .lineChanged s else s

/-- Sets one line's state, with its count, mirror and LINE_CHANGED. -/
def setLineState (n : LineId) (st : LineState) (s : State) : State :=
  raiseIfChanged (s.line n) n (changeLine n (fun k => { k with state := st }) s)

/-- A line that was `old` and is READY now prompts a pick on its link (R77, R132). -/
def pickIfReady (old : Line) (n : LineId) (s : State) : State :=
  if (s.line n).state = .ready ∧ old.state ≠ .ready then pick (s.linkOf n) s else s

/-- One line of several enters a state; where that is READY the link picks before the next line is set (log entry 9). -/
def enterLineState (s : State) (p : LineId × LineState) : State :=
  pickIfReady (s.line p.1) p.1 (changeLine p.1 (fun k => { k with state := p.2 }) s)

/-- Sets several lines' states, in the order given, with one LINE_CHANGED after the last (R129, R155). -/
def setLineStates (ns : List (LineId × LineState)) (s : State) : State :=
  raiseIfAnyChanged s (ns.foldl enterLineState s)

/-! ### Dispositions of pending poll orders -/

/-- The details of a DONE ROLL CALL or QUERY LINE (R169). -/
inductive PollDetail where
  | closed | linkLost | reply | timeout | ended
deriving DecidableEq, Repr

def PollDetail.code : PollDetail → Nat
  | .closed => 0
  | .linkLost => 1
  | .reply => 0
  | .timeout => 1
  | .ended => 2

/-- Pending orders get DONE with a detail, in take order (R155, R156, R158, R159). -/
def finishOrders (d : PollDetail) (orders : List U64) (s : State) : State :=
  orders.foldl (fun s a => finalDisposition a .done d.code s) s

/-- A held take that waits on what has just ended may now be taken afresh (R168). -/
def releaseHold (o : HeldOrder) (s : State) : State :=
  s.modOrder fun q => { q with held := q.held.map fun h => if h.order = o then { h with ended := true } else h }

/-! ### Status queries (R157, R159) -/

/-- A new query of a line with the orders waiting for it: the QUERY frame is offered, the query outstanding, the re-query timer
stopped (R157). -/
def sendQuery (n : LineId) (orders : List U64) (s : State) : State :=
  offer (s.linkOf n) (.query n)
    (s.modLine n fun k => { k with query := some ⟨Config.queryMs, orders⟩, requery := none })

/-- A query is asked for: sent when there is none and the link is UP (R157). -/
def askQuery (n : LineId) (s : State) : State :=
  if (s.line n).query = none ∧ s.isUp (s.linkOf n) = true then sendQuery n [] s else s

/-- The orders that wait for a line's query. -/
def Line.queryOrders (k : Line) : List U64 :=
  match k.query with
  | some q => q.pending
  | none => []

/-- The query becomes absent: its timer stops, its waiting frame leaves the control list (R143), a take held on it may resume. -/
def clearQuery (n : LineId) (s : State) : State :=
  releaseHold (.queryLine n) (dropControl (isQuery n) (s.modLine n fun k => { k with query := none }))

/-- An outstanding query is ended without a timeout (R159). -/
def endQuery (n : LineId) (s : State) : State :=
  if (s.line n).query.isSome then finishOrders .ended (s.line n).queryOrders (clearQuery n s) else s

/-- Whether a line has live work (R160). -/
def liveWork (s : State) (n : LineId) : Bool :=
  (s.recs.any fun e => e.2.line == n && !e.2.state.isFinal) || (s.line n).slot.isSome

/-- QUERY_TIMEOUT (R131, R159): the query timer has run out. That LINE_CHANGED comes before the orders' dispositions and their
ORDER_FINAL is the model's choice (log entry 18). -/
def queryTimeout (n : LineId) (s : State) : State :=
  let old := s.line n
  match old.query with
  | none => s
  | some q =>
    if q.timer = 0 then
      let s := clearQuery n s
      let s := changeLine n (fun k => { k with state := .unknown, timeouts := min (k.timeouts + 1) 255 }) s
      let s := s.modLine n fun k => { k with requery := if s.isUp k.cfg.link then some Config.requeryMs else none }
      finishOrders .timeout q.pending (raiseIfChanged old n s)
    else s

/-- REQUERY_TIMEOUT (R160): with live work the line is asked, without it the timer starts again. -/
def requeryTimeout (n : LineId) (s : State) : State :=
  if (s.line n).requery = some 0 then
    if liveWork s n then askQuery n s
    else s.modLine n fun k => { k with requery := some Config.requeryMs }
  else s

/-! ### Roll-call windows (R153, R155, R156) -/

/-- Opens a link's window with the orders waiting for it and offers ROLL (R153). -/
def openWindow (l : LinkId) (orders : List U64) (s : State) : State :=
  offer l .roll (s.modLink l fun k => { k with roll := some ⟨Config.rollMs, 0, 0, orders⟩ })

/-- The result of a roll call for one line. -/
inductive RollResult where
  | ready | unknown | held | query
deriving DecidableEq, Repr

/-- The lines that share a line's roll-call bit on its link, itself among them (R155). -/
def rollGroup (s : State) (l : LinkId) (n : LineId) : List LineId :=
  (s.linesOn l).filter fun m => (s.line m).cfg.rollBit == (s.line n).cfg.rollBit

/-- The table of R155 for a line, given its window's mask and answer count. -/
def rollResult (s : State) (l : LinkId) (w : RollWindow) (n : LineId) : RollResult :=
  if w.answers = 0 then .query
  else
    let set := w.mask.getLsbD (s.line n).cfg.rollBit.val
    let sense := (s.line n).cfg.sense
    if (rollGroup s l n).length ≤ 1 then
      match sense, set with
      | true, true => .ready
      | true, false => .unknown
      | false, true => .held
      | false, false => .query
    else if (rollGroup s l n).all (fun m => (s.line m).cfg.sense) && !set then .unknown
    else .query

/-- The state that a result becomes, absent for the result query. -/
def RollResult.state : RollResult → Option LineState
  | .ready => some .ready
  | .unknown => some .unknown
  | .held => some .held
  | .query => none

/-- The lines that a close gives a state, with the state (R155 step 1). -/
def rollStates (s : State) (l : LinkId) (w : RollWindow) : List (LineId × LineState) :=
  (s.linesOn l).filterMap fun n => (rollResult s l w n).state.map fun st => (n, st)

/-- The lines that a close has queried (R155 step 2). -/
def rollQueries (s : State) (l : LinkId) (w : RollWindow) : List LineId :=
  (s.linesOn l).filter fun n => rollResult s l w n == .query

/-- The window is closed, its waiting ROLL leaves the control list, and a take held on it may resume. -/
def shutWindow (l : LinkId) (s : State) : State :=
  releaseHold (.rollCall l) (dropControlOn l isRoll (s.modLink l fun k => { k with roll := none }))

/-- The close of a window with its evaluation (R155). -/
def closeWindow (l : LinkId) (w : RollWindow) (s : State) : State :=
  let queries := rollQueries s l w
  let s := setLineStates (rollStates s l w) (shutWindow l s)
  finishOrders .closed w.pending (queries.foldl (fun s n => askQuery n s) s)

/-- ROLL_WINDOW_CLOSE (R155): the window timer has run out. -/
def rollWindowClose (l : LinkId) (s : State) : State :=
  match (s.link l).roll with
  | some w => if w.timer = 0 then closeWindow l w s else s
  | none => s

/-- The link leaves UP with its window open: closed without evaluation, LINK_LOST (R156). -/
def loseWindow (l : LinkId) (s : State) : State :=
  match (s.link l).roll with
  | some w => finishOrders .linkLost w.pending (shutWindow l s)
  | none => s

/-! ### A status reply (R130, R158, R66) -/

/-- A QUEUED record whose generation its line no longer holds is placed again (R60, R66); the catalog re-examines the line once, after
the last. That the link mirror is written as it leaves, before what its placing writes, is the model's choice (log entry 37). -/
def replaceQueued (n : Nat) (s : State) : State :=
  match s.rec? n with
  | none => s
  | some r => placeRaw n (leaveQueue (s.linkOf r.line) (.dest n) s)

/-- The QUEUED records of a line whose generation is neither 0 nor `g`, by rising number. -/
def queuedOtherThan (s : State) (n : LineId) (g : U16) : List Nat :=
  (s.recsOf n).filter fun i =>
    match s.rec? i with
    | some r => r.state == .queued && s.recGen r != 0 && s.recGen r != g
    | none => false

/-- TARGET_LOST (R66): H becomes 0, the line's QUEUED records with a generation are placed again, the changeover check is made. -/
def targetLost (n : LineId) (s : State) : State :=
  if (s.line n).held = 0 then changeoverCheck n s
  else
    let s := writeLineMirror n (s.modLine n fun k => { k with held := 0 })
    let s := (queuedOtherThan s n 0).foldl (fun s i => replaceQueued i s) s
    reexamine n s

/-- The line state that a status byte gives (R130 step 3). -/
def statusState (b : Byte) : LineState :=
  if statusReady b && !statusHold b then .ready else .held

/-- An accepted STATUS reply of a line whose query is outstanding (R158, R130). A line made READY prompts a pick (R132). -/
def statusReply (n : LineId) (b : Byte) (s : State) : State :=
  let old := s.line n
  let s := clearQuery n s
  let s := s.modLine n fun k => { k with statusByte := b, timeouts := 0 }
  let s := if statusTargetLost b then targetLost n s else s
  let s := settleLine old n (s.modLine n fun k => { k with state := statusState b })
  let s := raiseIfChanged old n s
  sweepPages (finishOrders .reply old.queryOrders (pickIfReady old n s))

end Sys2Proof.Machine
end

