-- ==== Sys2Proof/Machine/Links.lean ====
section
/-! DEFINITION. Link states (R136 to R141): SET LINK, coming up and going down, with what the other blocks do then (R31, R32, R62,
R73, R88, R129, R156). -/

namespace Sys2Proof.Machine

/-- A link in a new state shows it: its mirror entry, then LINK_CHANGED (R137, R151). -/
def linkChanged (l : LinkId) (s : State) : State :=
  raise .linkChanged (writeLinkMirror l s)

/-! ### Coming up (R139) -/

/-- A paused reply timer resumes with what it had left (R32). -/
def ReplyTimer.resume : ReplyTimer → ReplyTimer
  | .paused n => .running n
  | .running n => .running n
  | .stopped => .stopped

/-- A running reply timer pauses and keeps what it has left (R31). -/
def ReplyTimer.pause : ReplyTimer → ReplyTimer
  | .running n => .paused n
  | .paused n => .paused n
  | .stopped => .stopped

/-- What the pool does for one record whose link has become UP (R32). A RELEASING record without a send has just passed its release
check, and its RELEASE goes out. -/
def recLinkUp (n : Nat) (s : State) : State :=
  match s.rec? n with
  | none => s
  | some r =>
    match r.state with
    | .releasing =>
      if r.sendCount = 0 then sendRelease n s else s.modRec n fun q => { q with timer := q.timer.resume }
    | .withdrawing =>
      if r.sendCount = 0 then sendWithdraw n s else s.modRec n fun q => { q with timer := q.timer.resume }
    | .delivered => releaseCheck n s
    | .verifyWait | .targetWait | .queued | .sending | .receiptWait
    | .released | .failed | .stale | .missed | .withdrawn => s

/-- A line that owes a target withdrawal on an UP link sends it (R62). -/
def sendOwedTarget (n : LineId) (s : State) : State :=
  match (s.line n).owed with
  | none => s
  | some g =>
    if s.isUp (s.linkOf n) then
      offer (s.linkOf n) (.targetWithdraw n g) (s.modLine n fun k => { k with owed := none })
    else s

/-- Step 1 of R139: the enabled lines of the link become UNKNOWN (R129). -/
def linesUp (l : LinkId) (s : State) : State :=
  setLineStates ((s.linesOn l).map fun n => (n, .unknown)) s

/-- The records of a link that pass the release check, page by page in entry order, a page's in destination-list order (R24, R42). -/
def releasable (s : State) (l : LinkId) : List Nat :=
  s.pages.flatMap fun e => e.2.dests.filter fun n =>
    match s.rec? n with
    | some r => s.linkOf r.line == l && mayRelease s r
    | none => false

/-- Steps 2 and 3 of R139: the records to release change state in destination-list order (R24, R42, log entry 41), the pool's frames
and timers follow by rising record number (R32), then the owed target withdrawals by rising line (R62). -/
def ownersUp (l : LinkId) (s : State) : State :=
  let s := (releasable s l).foldl (fun s n => enterReleasing n s) s
  let s := (s.recsOnLink l).foldl (fun s n => recLinkUp n s) s
  (s.linesOn l).foldl (fun s n => sendOwedTarget n s) s

/-- A CREDIT brings a CONNECTING link UP (R139). -/
def linkUp (l : LinkId) (s : State) : State :=
  let s := s.modLink l fun k => { k with state := .up, credit := Config.creditGrant, silence := some k.silenceLimit }
  pick l (openWindow l [] (ownersUp l (linesUp l (linkChanged l s))))

/-! ### Going down (R140) -/

/-- A record in RECEIPT_WAIT, or one that was SENDING, is placed again without an attempt charged (R31). -/
def returnRec (n : Nat) (s : State) : State :=
  place n (s.modRec n fun r => { r with sent := r.acked, timer := .stopped })

/-- A slot in SENDING or CONFIRM_WAIT returns to QUEUED without an attempt charged (R62). -/
def returnSlot (n : LineId) (s : State) : State :=
  requeueSlot n (fun sl => { sl with sent := sl.acked }) s

/-- The scheduler gives back the transfer that was SENDING (R88). -/
def returnSending (l : LinkId) (s : State) : State :=
  match (s.link l).sending with
  | none => s
  | some x =>
    let s := clearSending l s
    match x with
    | .dest n => returnRec n s
    | .slot n => returnSlot n s

/-- The records of a link that are in RECEIPT_WAIT, by rising number. -/
def receiptWaiters (s : State) (l : LinkId) : List Nat :=
  (s.recsOnLink l).filter fun n =>
    match s.rec? n with
    | some r => r.state == .receiptWait
    | none => false

/-- The lines of a link whose slot is in CONFIRM_WAIT, by rising number. -/
def confirmWaiters (s : State) (l : LinkId) : List LineId :=
  (s.linesOn l).filter fun n =>
    match (s.line n).slot with
    | some sl => sl.state == .confirmWait
    | none => false

/-- Pauses the reply timer of a RELEASING or WITHDRAWING record (R31). -/
def pauseTimer (n : Nat) (s : State) : State :=
  s.modRec n fun r =>
    if r.state = .releasing ∨ r.state = .withdrawing then { r with timer := r.timer.pause } else r

/-- The pool and the catalog return what waits for an answer on the link, in ascending tag order, and pause (R31, R62, R88). -/
def ownersDown (l : LinkId) (s : State) : State :=
  let s := (receiptWaiters s l).foldl (fun s n => returnRec n s) s
  let s := (confirmWaiters s l).foldl (fun s n => returnSlot n s) s
  (s.recsOnLink l).foldl (fun s n => pauseTimer n s) s

/-- The press-line table makes the enabled lines of the link UNREACHABLE (R129). -/
def linesDown (l : LinkId) (s : State) : State :=
  setLineStates ((s.linesOn l).map fun n => (n, .unreachable)) s

/-- The poll unit closes the window and ends the queries of the link (R140, R156, R159). That the window goes first and the
lines follow by ascending number is read from R140 and R129 (log entry 49). -/
def pollDown (l : LinkId) (s : State) : State :=
  let s := loseWindow l s
  (s.linesOn l).foldl (fun s n => endQuery n s) s

/-- Steps 1 to 3 of R140, with the link's new state and, when DOWN, its retry timer. -/
def dropLink (l : LinkId) (st : LinkState) (s : State) : State :=
  s.modLink l fun k => { k with
    state := st
    credit := 0
    silence := none
    retry := if st = .down then some Config.retryMs else none
    wire := none
    control := [] }

/-- An UP link leaves UP for DOWN or DISABLED (R140). The page-end checks follow the event whole (R18): they are the caller's. -/
def linkDown (l : LinkId) (st : LinkState) (s : State) : State :=
  pollDown l (linesDown l (ownersDown l (returnSending l (linkChanged l (dropLink l st s)))))

/-- SILENCE_TIMEOUT (R140): the silence timer of an UP link has run out. -/
def silenceTimeout (l : LinkId) (s : State) : State :=
  if (s.link l).state = .up ∧ (s.link l).silence = some 0 then sweepPages (linkDown l .down s) else s

/-- LOSS_OF_SIGNAL (R137, R140): reported on a link that is not UP it changes nothing. -/
def lossOfSignal (l : LinkId) (s : State) : State :=
  if (s.link l).state = .up then sweepPages (linkDown l .down s) else s

/-- RETRY_TIMEOUT (R140): a DOWN link becomes CONNECTING. -/
def retryTimeout (l : LinkId) (s : State) : State :=
  if (s.link l).state = .down ∧ (s.link l).retry = some 0 then
    linkChanged l (s.modLink l fun k => { k with state := .connecting, retry := none })
  else s

/-! ### SET LINK (R138, R73) -/

/-- A value brought into a range. -/
def clampTo (lo hi v : Nat) : Nat := max lo (min v hi)

/-- The clamped rate, guard and silence limit of R138. -/
def setLinkRate (b : SetLinkBody) : Nat := clampTo 64 250000 b.rate.toNat
def setLinkGuard (b : SetLinkBody) : Nat := clampTo 0 600000 b.guardMs.toNat
def setLinkSilence (b : SetLinkBody) : Nat := clampTo 1000 60000 b.silence.toNat

/-- Whether any value was clamped (R138). -/
def setLinkClamped (b : SetLinkBody) : Bool :=
  setLinkRate b != b.rate.toNat || setLinkGuard b != b.guardMs.toNat || setLinkSilence b != b.silence.toNat

/-- Recomputes a loaded slot's L and urgency without moving it (R73). -/
def recomputeSlot (n : LineId) (s : State) : State :=
  match (s.line n).slot with
  | none => s
  | some sl => s.modSlot n fun q => { q with latestStart := slotLatestStart s n sl.generation
                                             urgent := slotUrgent s n sl.generation }

/-- The records whose L R73 computes anew: those QUEUED, SENDING or in TARGET_WAIT on the link. -/
def recomputable (s : State) (l : LinkId) : List Nat :=
  (s.recsOnLink l).filter fun n =>
    match s.rec? n with
    | some r => r.state == .queued || r.state == .sending || r.state == .targetWait
    | none => false

/-- The recomputation of R73: records, then loaded slots, then the queue's order. -/
def recomputeLink (l : LinkId) (s : State) : State :=
  let s := (recomputable s l).foldl (fun s n => updateL n s) s
  resortQueue l ((s.linesOn l).foldl (fun s n => recomputeSlot n s) s)

/-- Step 2 of R138. -/
def applyEnable (l : LinkId) (enable : Bool) (s : State) : State :=
  match enable, (s.link l).state with
  | true, .disabled => linkChanged l (s.modLink l fun k => { k with state := .connecting })
  | true, .connecting => s
  | true, .up => s
  | true, .down => s
  | false, .disabled => s
  | false, .connecting => linkChanged l (s.modLink l fun k => { k with state := .disabled })
  | false, .up => linkDown l .disabled s
  | false, .down => linkChanged l (s.modLink l fun k => { k with state := .disabled, retry := none })

/-- The effects of an accepted SET LINK (R138 steps 1 to 5). -/
def applySetLink (l : LinkId) (b : SetLinkBody) (s : State) : State :=
  let s := s.modLink l fun k => { k with rate := setLinkRate b, guardMs := setLinkGuard b, silenceLimit := setLinkSilence b }
  let s := applyEnable l b.enable s
  let s := s.modLink l fun k => { k with silence := k.silence.map fun _ => setLinkSilence b }
  writeLinkMirror l (recomputeLink l s)

/-- A SET LINK order taken at `addr` (R138). -/
def takeSetLink (addr : U64) (b : SetLinkBody) (s : State) : State :=
  if b.link.toNat < 4 then
    finalDisposition addr (if setLinkClamped b then .adjusted else .done) 0 (applySetLink (linkOf b.link) b s)
  else refuse addr .badField s

end Sys2Proof.Machine
end

