-- ==== Sys2Proof/Machine/Transfers.lean ====
section
/-! DEFINITION. The running of transfers: frames that have left (R79, R84 to R86, R143), checkpoint acknowledgements (R83), the
window timer (R82), confirms (R60, R61), and the reply timers of records (R30, R34, R37). -/

namespace Sys2Proof.Machine

/-! ### The switch check and the switch (R84, R85) -/

/-- Whether a record's line no longer holds the generation it requires (R84, third condition). -/
def lostGeneration (s : State) : Xfer → Bool
  | .dest n =>
    match s.rec? n with
    | some r => s.recGen r != 0 && (s.line r.line).held != s.recGen r
    | none => false
  | .slot _ => false

/-- Whether the first entry of the queue whose line is READY sorts before the SENDING transfer (R84, first condition). -/
def outranked (s : State) (l : LinkId) (x : Xfer) : Bool :=
  match (s.link l).queue.find? fun y => xferReady s y with
  | some y => (xferKey s y).before (xferKey s x)
  | none => false

/-- The switch check (R84). -/
def switches (s : State) (l : LinkId) (x : Xfer) : Bool :=
  outranked s l x || !xferReady s x || lostGeneration s x

/-- Hands a switched record back to placing, or a slot to its queue (R85). -/
def handBack (x : Xfer) (s : State) : State :=
  match x with
  | .dest n =>
    match s.rec? n with
    | none => s
    | some _ => place n (s.modRec n fun q => { q with sent := q.acked })
  | .slot n => requeueSlot n (fun sl => { sl with sent := sl.acked }) s

/-- The switch (R85); the scheduler then picks, also the transfer just switched away from: at its return to the queue, or here where
it has not returned there. -/
def switchAway (l : LinkId) (x : Xfer) (s : State) : State :=
  pick l (handBack x (clearSending l s))

/-! ### Completion (R28, R59, R86) -/

/-- The owner takes a transfer that has been sent whole. -/
def sentWhole (x : Xfer) (s : State) : State :=
  match x with
  | .dest n => applyChange n (fun r => { r with state := .receiptWait, timer := .running Config.replyMs }) s
  | .slot n => writeLineMirror n (s.modSlot n fun sl => { sl with state := .confirmWait, timer := some Config.replyMs })

/-- Completion: the SENDING slot is emptied, the owner takes the transfer, the scheduler picks (R86). -/
def complete (l : LinkId) (x : Xfer) (s : State) : State :=
  pick l (sentWhole x (clearSending l s))

/-! ### A frame has left (R79, R143) -/

/-- The window timer starts when the window of the SENDING transfer is full (R82). -/
def startWindow (l : LinkId) (x : Xfer) (s : State) : State :=
  match xferInfo s x with
  | some i => if i.windowFull then s.modLink l fun k => { k with windowTimer := some Config.windowMs } else s
  | none => s

/-- What the departure of a DATA frame does for the SENDING transfer (R79). -/
def dataLeft (l : LinkId) (x : Xfer) (off : Nat) (checkpoint last : Bool) (s : State) : State :=
  let s := setSent x off s
  if last then complete l x s
  else if checkpoint then
    let s := s.modLink l fun k => { k with lastCkpt := some off }
    if switches s l x then switchAway l x s else startWindow l x s
  else startWindow l x s

/-- The effects of a departure by the frame's role. A waiting rewind takes the place of them (R83). -/
def departed (l : LinkId) (role : WireRole) (s : State) : State :=
  if (s.link l).rewindPending then rewind l s
  else
    match role with
    | .data x off c last true => if (s.link l).sending = some x then dataLeft l x off c last s else s
    | .data _ _ _ _ false => s
    | .control => s
    | .openFrame => s

/-- The page-end check after a departure: a switched record can have been placed into a final state (R18, R85). -/
def departedPage (role : WireRole) (s : State) : State :=
  match role with
  | .data (.dest n) _ _ _ true => pageEndOf n s
  | .data _ _ _ _ _ => s
  | .control => s
  | .openFrame => s

/-- FRAME_LEFT (R143): the frame on the wire has left, and the next one starts. -/
def frameLeft (l : LinkId) (s : State) : State :=
  match (s.link l).state, (s.link l).wire with
  | .up, some w =>
    departedPage w.role (kick l (departed l w.role (s.modLink l fun k => { k with
      wire := none, counters := { k.counters with framesSent := satInc k.counters.framesSent } })))
  | _, _ => s

/-! ### Checkpoint acknowledgements and the window timer (R82, R83) -/

/-- The transfer of a tag, where it is in SENDING, RECEIPT_WAIT or CONFIRM_WAIT at the line given (R83). -/
def ackedXfer (s : State) (tag : Nat) (n : LineId) : Option Xfer :=
  if tag < Config.slotTagBase then
    match s.rec? tag with
    | some r =>
      if r.line = n ∧ (r.state = .sending ∨ r.state = .receiptWait) then some (.dest tag) else none
    | none => none
  else if tag = Config.slotTagBase + n.val then
    match (s.line n).slot with
    | some sl => if sl.state = .sending ∨ sl.state = .confirmWait then some (.slot n) else none
    | none => none
  else none

/-- R83 step 1: the held offset raises acked. -/
def ackRaises (i : XferInfo) (hd : Nat) : Bool :=
  decide (hd % Config.checkpointBytes = 0) && decide (hd < i.size) && decide (i.acked < hd) && decide (hd ≤ i.sent)

/-- R83 step 1 applied: acked rises, and a window that is no longer full stops its timer (R82). -/
def raiseAcked (l : LinkId) (x : Xfer) (i : XferInfo) (hd : Nat) (s : State) : State :=
  let s := setAcked x hd s
  if (s.link l).sending = some x ∧ { i with acked := hd }.windowFull = false then
    s.modLink l fun k => { k with windowTimer := none }
  else s

/-- R83 step 2: the site has found a gap below the latest checkpoint sent. -/
def gapReported (k : Link) (x : Xfer) (hd c : Nat) : Bool :=
  k.sending == some x && decide (hd < c) && k.lastCkpt == some c

/-- The rewind of a gap: at once on a free wire, else when the frame on the wire has left (R83). -/
def gapRewind (l : LinkId) (s : State) : State :=
  if (s.link l).wire.isSome then s.modLink l fun k => { k with rewindPending := true } else rewind l s

/-- A CKPT_ACK handed to the scheduler (R83): `l` the receiving link, `n` the line its source resolved to. -/
def ckptAck (l : LinkId) (n : LineId) (tag hd c : Nat) (s : State) : State :=
  match ackedXfer s tag n with
  | none => staleTag l s
  | some x =>
    match xferInfo s x with
    | none => staleTag l s
    | some i =>
      let up := ackRaises i hd
      let m := s.linkOf n
      let gap := gapReported (s.link m) x hd c
      let s := if up then raiseAcked m x i hd s else s
      if gap then gapRewind m s else if up then kick m s else staleTag l s

/-- WINDOW_TIMEOUT (R82): the window timer has run out with the window still full. -/
def windowTimeout (l : LinkId) (s : State) : State :=
  let k := s.link l
  match k.sending with
  | none => s
  | some x =>
    match xferInfo s x with
    | none => s
    | some i => if k.windowTimer = some 0 ∧ i.windowFull = true then rewind l s else s

/-! ### Confirms (R60, R61) -/

/-- The DELIVERED claimants of a generation, by rising number (R60 step 4). -/
def deliveredClaimants (s : State) (n : LineId) (g : U16) : List Nat :=
  (claimants s n g).filter fun i =>
    match s.rec? i with
    | some r => r.state == .delivered
    | none => false

/-- The waiting claimants of a generation, by rising number (R60 step 3). -/
def waitingIds (s : State) (n : LineId) (g : U16) : List Nat :=
  (claimants s n g).filter fun i =>
    match s.rec? i with
    | some r => r.state == .targetWait
    | none => false

/-- Steps 2 to 5 of R60, the line holding `g` now. Each waiting claimant is placed, and the link picks, before the next is (log
entry 9); the catalog re-examines the line once, as step 5 (log entry 10). -/
def changeOver (n : LineId) (g : U16) (s : State) : State :=
  let s := (queuedOtherThan s n g).foldl (fun s i => replaceQueued i s) s
  let s := (waitingIds s n g).foldl (fun s i => placeRaw i s) s
  let s := (deliveredClaimants s n g).foldl (fun s i => releaseCheck i s) s
  reexamine n s

/-- A good confirm of the slot's generation (R60). -/
def goodConfirm (n : LineId) (g : U16) (s : State) : State :=
  sweepPages (changeOver n g (writeLineMirror n (s.modLine n fun k => { k with held := g, slot := none })))

/-- The third failed attempt of a target transfer (R61). That FAULT follows the writes that show its reason, the claimants' entries
and the mirror, is read from item 4 of R170 against the order of sentences of R61 (log entry 34). -/
def slotFailed (n : LineId) (g : U16) (s : State) : State :=
  let s := s.modEntry n g fun e => { e with push := false }
  let s := retractMany (claimants s n g) .failed .targetUndelivered s
  sweepPages (reexamine n (raise .fault (idleSlot n s)))

/-- A failed attempt of a target transfer (R61). -/
def slotAttemptFailed (n : LineId) (sl : Slot) (s : State) : State :=
  if Config.maxAttempts ≤ sl.attempts + 1 then slotFailed n sl.generation s
  else requeueSlot n (fun q => { q with attempts := q.attempts + 1, sent := 0, acked := 0 }) s

/-- A RECEIPT with TARGET handed to the catalog (R60): `l` the receiving link, `n` the line its source resolved to. -/
def targetConfirm (l : LinkId) (n : LineId) (tag : Nat) (good : Bool) (s : State) : State :=
  match (s.line n).slot with
  | none => staleTag l s
  | some sl =>
    if tag = Config.slotTagBase + n.val ∧ sl.state = .confirmWait then
      if good then goodConfirm n sl.generation s else slotAttemptFailed n sl s
    else staleTag l s

/-- CONFIRM_TIMEOUT (R61): the slot's reply timer has run out in CONFIRM_WAIT. -/
def confirmTimeout (n : LineId) (s : State) : State :=
  match (s.line n).slot with
  | none => s
  | some sl => if sl.state = .confirmWait ∧ sl.timer = some 0 then slotAttemptFailed n sl s else s

/-! ### Receipts, acknowledgements and reply timers of records (R29, R30, R34, R35, R37, R38) -/

/-- The record an inbound frame answers: in use, at the line its source resolved to, in the state that waits for it (R24). -/
def answered (s : State) (tag : Nat) (n : LineId) (st : DestState) : Option DestRec :=
  match s.rec? tag with
  | some r => if r.line = n ∧ r.state = st then some r else none
  | none => none

/-- A RECEIPT without TARGET handed to the pool (R24, R29, R30). -/
def receipt (l : LinkId) (n : LineId) (tag : Nat) (good : Bool) (s : State) : State :=
  match answered s tag n .receiptWait with
  | none => staleTag l s
  | some _ => if good then deliver tag s else pageEndOf tag (attemptFailed tag s)

/-- A record ends by an answer or for want of one; the catalog re-examines its line and the page-end check is made (R24). -/
def endRec (i : Nat) (r : DestRec) (st : DestState) (d : Detail) (s : State) : State :=
  pageEndOf i (reexamine r.line (finish i st d s))

/-- A RELEASE_ACK handed to the pool (R35). -/
def releaseAck (l : LinkId) (n : LineId) (tag : Nat) (s : State) : State :=
  match answered s tag n .releasing with
  | none => staleTag l s
  | some r => endRec tag r .released .none s

/-- A WITHDRAW_ACK handed to the pool (R38). -/
def withdrawAck (l : LinkId) (n : LineId) (tag : Nat) (s : State) : State :=
  match answered s tag n .withdrawing with
  | none => staleTag l s
  | some r =>
    match r.retract with
    | some (x, d) => endRec tag r x.state d s
    | none => s

/-- Whether a record is in a state with its reply timer run out. -/
def ranOut (r : DestRec) (st : DestState) : Bool :=
  r.state == st && r.timer == .running 0

/-- RECEIPT_TIMEOUT (R30). -/
def receiptTimeout (n : Nat) (s : State) : State :=
  match s.rec? n with
  | none => s
  | some r => if ranOut r .receiptWait then pageEndOf n (attemptFailed n s) else s

/-- RELEASE_TIMEOUT (R34): RELEASE is sent again, or after the third send the record fails NO_RELEASE_ACK. -/
def releaseTimeout (n : Nat) (s : State) : State :=
  match s.rec? n with
  | none => s
  | some r =>
    if ranOut r .releasing then
      if r.sendCount < Config.maxAttempts then sendRelease n s else endRec n r .failed .noReleaseAck s
    else s

/-- WITHDRAW_TIMEOUT (R37): WITHDRAW is sent again, or after the third send the record ends UNCONFIRMED. -/
def withdrawTimeout (n : Nat) (s : State) : State :=
  match s.rec? n with
  | none => s
  | some r =>
    if ranOut r .withdrawing then
      if r.sendCount < Config.maxAttempts then sendWithdraw n s
      else
        match r.retract with
        | some (x, _) => endRec n r x.state .unconfirmed s
        | none => s
    else s

end Sys2Proof.Machine
end

