-- ==== Sys2Proof/Machine/Events.lean ====
section
/-! DEFINITION. The commands that are events inside the part: the ends of DMA reads, deadline firings, timers, and a frame that has
left (R7 to R12, R17, R64, R95, log entry 3). -/

namespace Sys2Proof.Machine

/-! ### Payload reads -/

/-- VERIFY_PASS_END (R7 to R10, R52): the bytes the pass has read. -/
def execVerifyPassEnd (payload : List Byte) (s : State) : Host.Outcome State Fault Refusal :=
  .next (startVerify (passEnd payload s))

/-- VERIFY_READ_ERROR (R11, R52). -/
def execVerifyReadError (s : State) : Host.Outcome State Fault Refusal :=
  .next (startVerify (passReadError s))

/-- SEND_READ_ERROR (R17). -/
def execSendReadError (n : Fin 1024) (s : State) : Host.Outcome State Fault Refusal :=
  .next (pageReadError n.val s)

/-- TARGET_READ_ERROR (R64). -/
def execTargetReadError (n : LineId) (s : State) : Host.Outcome State Fault Refusal :=
  .next (slotReadError n s)

/-! ### The deadline list (R95) -/

/-- Whether the head of the list is due and of a kind. -/
def dueKind (k : DeadlineKind) (s : State) : Bool :=
  match s.deadlines with
  | [] => false
  | d :: _ => s.reached d.due && d.kind == k

/-- The run of due entries, begun by a head of the kind named (log entry 28). -/
def fireKind (k : DeadlineKind) (s : State) : State :=
  if dueKind k s then fireDue startVerify s else s

/-- WARN_FIRING (R96). -/
def execWarnFiring (s : State) : Host.Outcome State Fault Refusal :=
  .next (fireKind .warn s)

/-- MISS_FIRING (R98 to R101). -/
def execMissFiring (s : State) : Host.Outcome State Fault Refusal :=
  .next (fireKind .miss s)

/-- RELEASE_FIRING (R104). -/
def execReleaseFiring (s : State) : Host.Outcome State Fault Refusal :=
  .next (fireKind .release s)

/-! ### Timers -/

/-- RECEIPT_TIMEOUT (R30). -/
def execReceiptTimeout (n : Fin 1024) (s : State) : Host.Outcome State Fault Refusal :=
  .next (receiptTimeout n.val s)

/-- RELEASE_TIMEOUT (R34). -/
def execReleaseTimeout (n : Fin 1024) (s : State) : Host.Outcome State Fault Refusal :=
  .next (releaseTimeout n.val s)

/-- WITHDRAW_TIMEOUT (R37). -/
def execWithdrawTimeout (n : Fin 1024) (s : State) : Host.Outcome State Fault Refusal :=
  .next (withdrawTimeout n.val s)

/-- CONFIRM_TIMEOUT (R61). -/
def execConfirmTimeout (n : LineId) (s : State) : Host.Outcome State Fault Refusal :=
  .next (confirmTimeout n s)

/-- WINDOW_TIMEOUT (R82). -/
def execWindowTimeout (l : LinkId) (s : State) : Host.Outcome State Fault Refusal :=
  .next (windowTimeout l s)

/-- SILENCE_TIMEOUT (R140). -/
def execSilenceTimeout (l : LinkId) (s : State) : Host.Outcome State Fault Refusal :=
  .next (silenceTimeout l s)

/-- LOSS_OF_SIGNAL (R140). -/
def execLossOfSignal (l : LinkId) (s : State) : Host.Outcome State Fault Refusal :=
  .next (lossOfSignal l s)

/-- RETRY_TIMEOUT (R140). -/
def execRetryTimeout (l : LinkId) (s : State) : Host.Outcome State Fault Refusal :=
  .next (retryTimeout l s)

/-- QUERY_TIMEOUT (R159, R131). -/
def execQueryTimeout (n : LineId) (s : State) : Host.Outcome State Fault Refusal :=
  .next (queryTimeout n s)

/-- ROLL_WINDOW_CLOSE (R155). -/
def execRollWindowClose (l : LinkId) (s : State) : Host.Outcome State Fault Refusal :=
  .next (rollWindowClose l s)

/-- REQUERY_TIMEOUT (R160). -/
def execRequeryTimeout (n : LineId) (s : State) : Host.Outcome State Fault Refusal :=
  .next (requeryTimeout n s)

/-! ### The wire -/

/-- FRAME_LEFT (R143). -/
def execFrameLeft (l : LinkId) (s : State) : Host.Outcome State Fault Refusal :=
  .next (frameLeft l s)

end Sys2Proof.Machine
end

