-- ==== Sys2Proof/Machine/Receive.lean ====
section
/-! DEFINITION. Receiving a frame: the four checks of R147 to R149 and the owners they lead to, with CREDIT (R139, R142), ECHO (R146),
ROLL_ANSWER (R154) and STATUS (R158). -/

namespace Sys2Proof.Machine

/-! ### Who sent a frame (R122, R148) -/

/-- The enabled line of a link with the address pair of a source; secondary 7 names no line, since no line has it (R121). -/
def sourceLine (s : State) (l : LinkId) (src : Byte) : Option LineId :=
  if secondaryOf src = 7 then none
  else
    (s.linesOn l).find? fun n =>
      (s.line n).cfg.primary == primaryOf src && (s.line n).cfg.secondary == secondaryOf src

/-- Whether the site of a source address is configured on a link (R122). -/
def sourceSite (s : State) (l : LinkId) (src : Byte) : Bool :=
  (s.linesOn l).any fun n => (s.line n).cfg.primary == primaryOf src

/-- The source taken for a frame, by its kind (R148). -/
inductive Source where
  | anyone
  | site
  | line (n : LineId)
deriving DecidableEq, Repr

/-- The third check (R148). -/
def sourceOf (s : State) (l : LinkId) (kind : Byte) (f : InFrame) : Option Source :=
  if kind = kindCredit then some .anyone
  else if kind = kindEcho ∨ kind = kindRollAnswer then
    if sourceSite s l f.src then some .site else none
  else (sourceLine s l f.src).map Source.line

/-! ### What the link does itself (R141, R142, R146) -/

/-- An accepted frame restarts the silence timer of an UP link (R141). -/
def restartSilence (l : LinkId) (s : State) : State :=
  s.modLink l fun k => { k with silence := some k.silenceLimit }

/-- A CREDIT on an UP link (R142): 8 more, at most 64; what did not fit is counted. -/
def grantCredit (l : LinkId) (s : State) : State :=
  let sum := (s.link l).credit + Config.creditGrant
  let s := s.modLink l fun k => { k with credit := min sum Config.creditMax }
  kick l (if Config.creditMax < sum then
    bumpLink l (fun c => { c with creditOverflow := satAdd c.creditOverflow (sum - Config.creditMax) }) s
  else s)

/-- Whether an echoed count is the present mark count or the one before it, modulo 64 (R146). -/
def echoValid (mark count : Nat) : Bool :=
  count == mark || (count + 1) % 64 == mark

/-- An ECHO judged against the mark count (R146). -/
def echoReceived (l : LinkId) (count : Nat) (s : State) : State :=
  if echoValid (s.link l).markCount count then s
  else raise .inbound (bumpLink l (fun c => { c with staleEcho := satInc c.staleEcho }) s)

/-- A ROLL_ANSWER handed to the poll unit (R154). -/
def rollAnswer (l : LinkId) (mask : U64) (s : State) : State :=
  match (s.link l).roll with
  | none => staleTag l s
  | some _ => s.modLink l fun k => { k with
      roll := k.roll.map fun w => { w with mask := w.mask ||| mask, answers := min (w.answers + 1) 65535 } }

/-- A STATUS handed to the poll unit (R158). -/
def statusReceived (l : LinkId) (n : LineId) (b : Byte) (s : State) : State :=
  if (s.line n).query.isSome then statusReply n b s else staleTag l s

/-! ### The fourth check (R149) -/

/-- A frame from a line, handed to the block that owns what it answers (R149). -/
def fromLine (l : LinkId) (kind : Byte) (f : InFrame) (n : LineId) (s : State) : State :=
  let tag := f.tag.toNat
  if Config.noTagFrom ≤ tag then staleTag l s
  else if kind = kindStatus then statusReceived l n (statusOf f) s
  else if kind = kindCkptAck then ckptAck l n tag (heldOffset f) (ckptOffset f) s
  else if kind = kindReceipt then
    if targetFlag f then targetConfirm l n tag (goodFlag f) s else receipt l n tag (goodFlag f) s
  else if Config.slotTagBase ≤ tag then staleTag l s
  else if kind = kindReleaseAck then releaseAck l n tag s
  else withdrawAck l n tag s

/-- A frame from a site or from anyone (R142, R146, R149, R154). The tag of a CREDIT is not read, and of an ECHO's only the count is
(R180). -/
def fromOther (l : LinkId) (kind : Byte) (f : InFrame) (s : State) : State :=
  if kind = kindCredit then grantCredit l s
  else if kind = kindEcho then echoReceived l (echoCount f) s
  else if Config.noTagFrom ≤ f.tag.toNat then staleTag l s
  else rollAnswer l (answerMask f) s

/-- An accepted frame on an UP link: the silence timer, a query where a line's frame carries SERVICE (R148), then the owner. -/
def accepted (l : LinkId) (kind : Byte) (f : InFrame) (src : Source) (s : State) : State :=
  let s := restartSilence l s
  match src with
  | .line n => fromLine l kind f n (if serviceFlag f then askQuery n s else s)
  | .site => fromOther l kind f s
  | .anyone => fromOther l kind f s

/-- An accepted frame on a CONNECTING link: a CREDIT makes the link UP, any other is discarded (R139). -/
def acceptedConnecting (l : LinkId) (kind : Byte) (s : State) : State :=
  if kind = kindCredit then linkUp l s else s

/-- The four checks, in order, for a frame that has been counted as received (R147 to R149). That a STATUS whose source names no line
any more is counted as of an unknown source, as R148 says, and not as the stale tag of R133, is the model's choice (log entry 57). -/
def checkFrame (l : LinkId) (kind : Byte) (f : InFrame) (s : State) : State :=
  if frameSound kind f = false then
    bumpLink l (fun c => { c with crcRejects := satInc c.crcRejects }) s
  else if f.dest ≠ stationAddress ∨ inboundKind kind = false then
    raise .inbound (bumpLink l (fun c => { c with misrouted := satInc c.misrouted }) s)
  else
    match sourceOf s l kind f with
    | none => bumpLink l (fun c => { c with unknownSource := satInc c.unknownSource }) s
    | some src =>
      if (s.link l).state = .up then accepted l kind f src s else acceptedConnecting l kind s

/-- A complete frame arrives on a link: received and counted while CONNECTING or UP, not at all otherwise (R137, R147). -/
def receive (l : LinkId) (kind : Byte) (f : InFrame) (s : State) : State :=
  match (s.link l).state with
  | .up | .connecting =>
    checkFrame l kind f (s.modLink l fun k => { k with
      counters := { k.counters with framesReceived := satInc k.counters.framesReceived } })
  | .disabled | .down => s

end Sys2Proof.Machine
end

