-- ==== Sys2Proof/Machine/Inbound.lean ====
section
/-! DEFINITION. The commands that are arriving frames, one for each kind (R147 to R149, log entry 19). -/

namespace Sys2Proof.Machine

/-- CREDIT (R139, R142). -/
def execCredit (l : LinkId) (f : InFrame) (s : State) : Host.Outcome State Fault Refusal :=
  .next (receive l kindCredit f s)

/-- CKPT_ACK (R83). -/
def execCkptAck (l : LinkId) (f : InFrame) (s : State) : Host.Outcome State Fault Refusal :=
  .next (receive l kindCkptAck f s)

/-- RECEIPT (R29, R30); one whose TARGET flag is set goes to the catalog (R149). -/
def execReceipt (l : LinkId) (f : InFrame) (s : State) : Host.Outcome State Fault Refusal :=
  .next (receive l kindReceipt f s)

/-- OUTBOUND_KIND_RECEIVED (R147): a frame of the kind code given. -/
def execOutboundKindReceived (l : LinkId) (kind : Byte) (f : InFrame) (s : State) : Host.Outcome State Fault Refusal :=
  .next (receive l kind f s)

/-- TARGET_CONFIRM (R60, R61): a RECEIPT; one whose TARGET flag is clear goes to the pool (R149). -/
def execTargetConfirm (l : LinkId) (f : InFrame) (s : State) : Host.Outcome State Fault Refusal :=
  .next (receive l kindReceipt f s)

/-- RELEASE_ACK (R35). -/
def execReleaseAck (l : LinkId) (f : InFrame) (s : State) : Host.Outcome State Fault Refusal :=
  .next (receive l kindReleaseAck f s)

/-- WITHDRAW_ACK (R38). -/
def execWithdrawAck (l : LinkId) (f : InFrame) (s : State) : Host.Outcome State Fault Refusal :=
  .next (receive l kindWithdrawAck f s)

/-- STATUS (R130, R158). -/
def execStatus (l : LinkId) (f : InFrame) (s : State) : Host.Outcome State Fault Refusal :=
  .next (receive l kindStatus f s)

/-- ROLL_ANSWER (R154). -/
def execRollAnswer (l : LinkId) (f : InFrame) (s : State) : Host.Outcome State Fault Refusal :=
  .next (receive l kindRollAnswer f s)

/-- ECHO (R146). -/
def execEcho (l : LinkId) (f : InFrame) (s : State) : Host.Outcome State Fault Refusal :=
  .next (receive l kindEcho f s)

end Sys2Proof.Machine
end

