-- ==== Sys2Proof/Machine/PressClock.lean ====
section
/-! DEFINITION. The press clock and the elapsed time base (06_the_press_clock.md): advances, holds, pulses, jumps, marks, and the
countdown of every timer. -/

namespace Sys2Proof.Machine

/-! ### Marks (R119, R146) -/

/-- The whole second of a press time (R119). -/
def wholeSecond (v : Nat) : Nat := v / 1000

/-- An UP link sends the mark: its mark count grows by one modulo 64, the MARK frame is offered, its mirror written (R146, R151). -/
def markLink (value : Nat) (s : State) (l : LinkId) : State :=
  if s.isUp l then
    writeLinkMirror l (offer l (.mark (((s.link l).markCount + 1) % 64) value)
      (s.modLink l fun k => { k with markCount := (k.markCount + 1) % 64 }))
  else s

/-- The mark trigger, after an event that found the clock at `old` (R119). That the UP links get the mark by ascending link number, each
with its mirror entry (R151) before the next, and that the summary is written after them all, is the model's choice (log entry
45). -/
def markTrigger (old : Nat) (s : State) : State :=
  if s.clock.clockUnset = false ∧ wholeSecond old ≠ wholeSecond s.clock.value then
    writeSummary ((allLinks.foldl (markLink s.clock.value) s).modClock fun c => { c with snapshot := c.value })
  else s

/-! ### The elapsed time base and the timers on it (R110) -/

/-- A timer in milliseconds counts down and stays at 0 until its expiry is taken (log entry 3). -/
def downTimer (t : Option Nat) : Option Nat := t.map fun n => n - 1

/-- A reply timer counts down while it runs; a paused timer stands still (R31). -/
def ReplyTimer.down : ReplyTimer → ReplyTimer
  | .stopped => .stopped
  | .running n => .running (n - 1)
  | .paused n => .paused n

def Line.tick (k : Line) : Line :=
  { k with
    slot := k.slot.map fun sl => { sl with timer := downTimer sl.timer }
    query := k.query.map fun q => { q with timer := q.timer - 1 }
    requery := downTimer k.requery }

def Link.tick (k : Link) : Link :=
  { k with
    silence := downTimer k.silence
    retry := downTimer k.retry
    windowTimer := downTimer k.windowTimer
    roll := k.roll.map fun w => { w with timer := w.timer - 1 } }

/-- The elapsed base advances by one (R110); past its largest value it is a free value (log entry 8). -/
def advanceElapsed (s : State) : State :=
  if s.clock.elapsed = BitVec.allOnes 48 then
    { s.modClock (fun c => { c with elapsed := Config.elapsedPastEnd s.freeDraws }) with freeDraws := s.freeDraws + 1 }
  else s.modClock fun c => { c with elapsed := c.elapsed + 1 }

/-- One millisecond on every timer of the elapsed base but the hold: reply, confirm, window, silence, retry, roll-call, query,
re-query and loss timers (R110). -/
def tickTimers (s : State) : State :=
  { s with
    recs := s.recs.map fun e => (e.1, { e.2 with timer := e.2.timer.down })
    lines := s.lines.map Line.tick
    links := s.links.map Link.tick
    clock := { s.clock with loss := downTimer s.clock.loss } }

/-! ### Running (R111) -/

/-- The clock comes to its end: CLOCK_END, the loss timer stopped, the summary, CLOCK (R111). -/
def reachEnd (s : State) : State :=
  raise .clock (writeSummary (s.modClock fun c => { c with clockEnd := true, loss := none }))

/-- The value grows by one, and the end of the range stops the clock (R111). That CLOCK_END's summary and CLOCK come before the
firings of this advance is the model's choice (log entry 40). -/
def stepValue (s : State) : State :=
  let s := s.modClock fun c => { c with hold := none, value := c.value + 1 }
  if s.clock.value = Config.maxU32 then reachEnd s else s

/-- An advance of the clock from `old`: due entries fire, the verify engine starting anew after each (R7, R95), then the mark
trigger looks (log entry 13). -/
def afterAdvance (old : Nat) (s : State) : State :=
  markTrigger old (fireDue startVerify s)

/-- One millisecond of the press clock: it stands at its end, gives one to a hold, or advances (R111, R116). -/
def advanceClock (s : State) : State :=
  if s.clock.clockEnd then s
  else
    match s.clock.hold with
    | some (n + 1) => s.modClock fun c => { c with hold := some n }
    | some 0 => afterAdvance s.clock.value (stepValue s)
    | none => afterAdvance s.clock.value (stepValue s)

/-- CLOCK_ADVANCE (R110, R111): one millisecond of the elapsed time base. That the end of the range stops a loss timer which runs out in
that same millisecond, so that no HOLDOVER comes of it, is the model's choice (R111, R118, log entry 56). -/
def execClockAdvance (s : State) : Host.Outcome State Fault Refusal :=
  .next (advanceClock (tickTimers (advanceElapsed s)))

/-- HOLD_END (R116): a hold that has run out becomes absent. -/
def execHoldEnd (s : State) : Host.Outcome State Fault Refusal :=
  if s.clock.hold = some 0 then .next (s.modClock fun c => { c with hold := none }) else .next s

/-- LOSS_TIMER_EXPIRY (R118): a LOCKED clock enters HOLDOVER. -/
def execLossTimerExpiry (s : State) : Host.Outcome State Fault Refusal :=
  if s.clock.loss = some 0 ∧ s.clock.sync = .locked then
    .next (raise .clock (writeSummary (s.modClock fun c => { c with sync := .holdover, loss := none })))
  else .next s

/-! ### Following the pulse (R113 to R117) -/

/-- What an evaluated pulse calls for. -/
inductive PulseAction where
  | inStep
  | hold (ms : Nat)
  | jump (ms : Nat)
  | reject
deriving DecidableEq, Repr

/-- The tables of R114 and R115. -/
def pulseAction (sync : SyncState) (off : Nat) : PulseAction :=
  if off = 0 then .inStep
  else
    match sync with
    | .locked =>
      if off ≤ 100 then .hold off else if off ≤ 899 then .reject else .jump (1000 - off)
    | .free | .acquiring | .holdover =>
      if off ≤ 499 then .hold off else .jump (1000 - off)

/-- An accepted pulse: LOCKED, the loss timer at 3,000 ms, the summary if the sync state changed (R113). -/
def acceptPulse (s : State) : State :=
  let s' := s.modClock fun c => { c with sync := .locked, loss := some Config.lossMs }
  if s.clock.sync = .locked then s' else writeSummary s'

/-- The evaluation of a pulse, any hold having ended (R113 to R117). That the summary write of a jump's pulse comes before the
firings of the jump is the model's choice (log entry 40). -/
def evaluatePulse (s : State) : State :=
  match pulseAction s.clock.sync (s.clock.value % 1000) with
  | .inStep => acceptPulse s
  | .hold n => acceptPulse (s.modClock fun c => { c with hold := some n })
  | .jump n => afterAdvance s.clock.value (acceptPulse (s.modClock fun c => { c with value := c.value + n }))
  | .reject => bumpCounter .syncRejected s

/-- SYNC_PULSE (R113): ignored under INTERNAL and at CLOCK_END. -/
def execSyncPulse (s : State) : Host.Outcome State Fault Refusal :=
  if s.clock.source = .station ∧ s.clock.clockEnd = false then
    .next (evaluatePulse (s.modClock fun c => { c with hold := none }))
  else .next s

/-! ### SET CLOCK (R112, R107) -/

/-- The value a SET CLOCK order sets: 4,294,967,295 is clamped to the value below it (R112). -/
def clampClock (v : U32) : Nat := min v.toNat (Config.maxU32 - 1)

/-- Steps 1 to 4 of R112. -/
def setClockFields (v : Nat) (src : ClockSource) (s : State) : State :=
  s.modClock fun c => { c with
    hold := none
    value := v
    clockEnd := false
    clockUnset := false
    source := src
    sync := match src with | .internal => .free | .station => .acquiring
    loss := none }

/-- The source codes of R112. -/
def clockSourceOf (b : Byte) : Option ClockSource :=
  if b = 0 then some .internal else if b = 1 then some .station else none

/-- The effect of a SET CLOCK order taken at `addr`: steps 1 to 6, then the due entries when the value grew (R112, R107). -/
def takeSetClock (addr : U64) (b : SetClockBody) (s : State) : State :=
  match clockSourceOf b.source with
  | none => refuse addr .badField s
  | some src =>
    let old := s.clock.value
    let s := markTrigger old (writeSummary (setClockFields (clampClock b.value) src s))
    let s := finalDisposition addr (if b.value.toNat = Config.maxU32 then .adjusted else .done) 0 s
    if old < clampClock b.value then fireDue id s else s

end Sys2Proof.Machine
end

