-- ==== Sys2Proof/Machine/Orders.lean ====
section
/-! DEFINITION. Taking an order (R168): CONSIGN (R4, R5, R14), WITHDRAW (R16), ISSUE TARGET (R50, R51, R65), SET PRESS LINE (R125 to
R128), ROLL CALL (R153), QUERY LINE (R161) and a bad kind, with what follows every take. -/

namespace Sys2Proof.Machine

/-! ### What every take does (R166, R168) -/

/-- The record is the one taken last, and the walk has started (R166). -/
def markTaken (addr : U64) (s : State) : State :=
  s.modOrder fun o => { o with cursor := addr, walkStarted := true }

/-- After a take: page-end checks, the firings of entries inserted already due, and an idle verify engine starts, which within the
take takes up nothing (R7, R18, R95). -/
def afterTake (s : State) : State :=
  startVerify (fireDue id (sweepPages s))

/-- TAKEN with detail 0, which is not final and adds nothing (R169). -/
def writeTaken (addr : U64) (s : State) : State :=
  writeDisposition addr .taken 0 s

/-! ### Retiring a page (R14, R16) -/

/-- The entry that owns a page key: the one outside RETIRING (R2). -/
def keyOwner (s : State) (key : PageKey) : Option (Nat × Page) :=
  s.pages.find? fun e => e.2.key == key && e.2.state != .retiring

/-- A page retires by supersession or withdrawal: RETIRING with its cause, out of verification, its live destinations retracted
WITHDRAWN (R13, R14, R16). -/
def retirePage (n : Nat) (p : Page) (why : RetireCause) (d : Detail) (s : State) : State :=
  retractPage p.dests .withdrawn d
    (leaveVerify (.page n) (s.modPage n fun e => { e with state := .retiring, cause := some why }))

/-! ### CONSIGN (R4, R5) -/

/-- The lowest-numbered free page entry (R1). -/
def freeEntry (s : State) : Option Nat :=
  (List.range Config.pageEntries).find? fun n => (s.page? n).isNone

/-- Whether every listed byte names a configured line (R4 check 2, R50 check 2). -/
def linesEnabled (s : State) (ls : List Byte) : Bool :=
  ls.all fun b => (s.line (lineOf b)).enabled

/-- What the checks of R4 find: the first failing check, or the entry to take. -/
def consignCheck (s : State) (b : ConsignBody) : RefusalDetail ⊕ Nat :=
  if consignFieldsOk b = false then .inl .badField
  else if linesEnabled s (b.dests.map fun d => d.line) = false then .inl .lineUnconfigured
  else if (match keyOwner s b.key with | some (_, p) => decide (b.version.toNat ≤ p.version.toNat) | none => false) then
    .inl .oldVersion
  else
    match freeEntry s with
    | none => .inl .tableFull
    | some n => if s.free.length < b.destCount.toNat then .inl .poolFull else .inr n

/-- A page entry as a CONSIGN fills it (R1, R5). -/
def consignPage (addr : U64) (b : ConsignBody) (dests : List Nat) : Page where
  key := b.key
  version := b.version
  generation := b.generation
  deadline := b.deadline.toNat
  release := b.release.map BitVec.toNat
  policy := policyOf b.policy
  statedCrc := b.statedCrc
  computedCrc := none
  size := b.size.toNat
  extents := b.extents
  dests := dests
  orderAddr := addr
  state := .verifyQueued
  cause := none

/-- A destination record as a CONSIGN takes it into use (R3, R23). -/
def consignRec (parent : Nat) (deadline : U32) (d : DestEntry) (entryAddr : U64) : DestRec where
  parent := parent
  line := lineOf d.line
  deadline := (d.override.getD deadline).toNat
  state := .verifyWait
  late := false
  missed := false
  siteHasData := false
  isFallback := false
  attempts := 0
  sent := 0
  acked := 0
  latestStart := 0
  seq := 0
  origin := none
  retract := none
  detail := .none
  sendCount := 0
  timer := .stopped
  entryAddr := entryAddr
  fallback := .none

/-- Takes one record into use with its WARN entry (R5 step 2, R93). -/
def takeRec (n : Nat) (r : DestRec) (s : State) : State :=
  addDeadline ⟨warnDue r.deadline (s.line r.line).cfg.warnLead, n, .warn⟩ (s.putRec n r)

/-- The records of a CONSIGN with their numbers, in body order: destination `i` gets number `i` of `ids`. -/
def consignRecs (parent : Nat) (addr : U64) (b : ConsignBody) (ids : List Nat) : List (Nat × DestRec) :=
  (ids.zip b.dests.zipIdx).map fun x =>
    (x.1, consignRec parent b.deadline x.2.1 (destEntryAddr addr b.extentCount.toNat x.2.2))

/-- Steps 1 to 6 of R5, with the entry to take and the entry superseded. -/
def acceptConsign (addr : U64) (b : ConsignBody) (n : Nat) (old : Option (Nat × Page)) (s : State) : State :=
  let ids := s.free.take b.dests.length
  let s := (s.setFree (s.free.drop b.dests.length)).putPage n (consignPage addr b ids)
  let s := (consignRecs n addr b ids).foldl (fun s x => takeRec x.1 x.2 s) s
  let s := match old with
    | some (m, p) => retirePage m p .superseded .superseded s
    | none => s
  let s := ids.foldl (fun s i => writeEntry i s) (joinVerify (.page n) s)
  writeTaken addr s

/-- A CONSIGN order taken at `addr` (R4, R5). -/
def takeConsign (addr : U64) (b : ConsignBody) (s : State) : State :=
  match consignCheck s b with
  | .inl why => refuse addr why s
  | .inr n => acceptConsign addr b n (keyOwner s b.key) s

/-! ### WITHDRAW (R16) -/

/-- A WITHDRAW order taken at `addr` (R16). -/
def takeWithdraw (addr : U64) (b : WithdrawBody) (s : State) : State :=
  if keyOk b.key = false then refuse addr .badField s
  else
    match keyOwner s b.key with
    | none => refuse addr .noSuchPage s
    | some (n, p) =>
      if b.version ≠ 0 ∧ b.version ≠ p.version then refuse addr .noSuchPage s
      else finalDisposition addr .done 0 (retirePage n p .withdrawn .byOrder s)

/-! ### ISSUE TARGET (R50, R51, R65) -/

/-- Whether an entry of the catalog has not yet reached READY, FAULTED or DROPPED (R53). -/
def CatEntry.open_ (e : CatEntry) : Nat :=
  match e.state with
  | .verifyQueued => 1
  | .verifying => 1
  | .ready => 0
  | .faulted => 0

/-- An entry leaves a catalog: out of verification, out of the catalog, its target entry DROPPED, its order's completion checked
(R53, R65 steps 2 and 3, R67). -/
def dropEntry (n : LineId) (e : CatEntry) (s : State) : State :=
  let s := leaveVerify (.target n e.generation) s
  let s := s.modLine n fun k => { k with catalog := k.catalog.filter fun d => d.generation != e.generation }
  targetProgress e e.open_ 0 (reportEntry e droppedCode 0 s)

/-- Drops the older generation of a line (R65). The changeover check of R63 is made by R51 step 4 (log entry 10). -/
def dropGeneration (n : LineId) (e : CatEntry) (s : State) : State :=
  let g := e.generation
  let s := if (s.line n).slot.map (fun sl => sl.generation) = some g then abortSlot n s else s
  let s := dropEntry n e s
  let s := if (s.line n).held = g then s
    else retractMany (claimants s n g) .stale .none s
  writeLineMirror n s

/-- A catalog entry as an ISSUE TARGET creates it (R46, R51), with the number of its order. -/
def newCatEntry (g : U16) (t : TargetEntry) (entryAddr : U64) (number : Nat) : CatEntry where
  generation := g
  size := t.size.toNat
  extents := t.extents
  statedCrc := t.statedCrc
  computedCrc := none
  state := .verifyQueued
  faultDetail := none
  push := t.push
  report := some (entryAddr, number)

/-- Step 1 of R51 for one target entry: room is made, the entry is added and joins the verify queue. -/
def issueEntry (addr : U64) (number : Nat) (g : U16) (t : TargetEntry) (i : Nat) (s : State) : State :=
  let n := lineOf t.line
  let s := match (s.line n).catalog with
    | e :: _ :: _ => dropGeneration n e s
    | _ => s
  let s := s.modLine n fun k => { k with catalog := k.catalog ++ [newCatEntry g t (targetEntryAddr addr i) number] }
  joinVerify (.target n g) (writeLineMirror n s)

/-- The checks of R50. -/
def issueCheck (s : State) (b : IssueTargetBody) : Option RefusalDetail :=
  let lines := b.entries.map fun t => t.line
  if issueFieldsOk b = false then some .badField
  else if linesEnabled s lines = false then some .lineUnconfigured
  else if lines.any fun l =>
      match (s.line (lineOf l)).catalog.getLast? with
      | some e => decide (b.generation.toNat ≤ e.generation.toNat)
      | none => false
  then some .oldGeneration
  else none

/-- Steps 1 to 4 of R51. That the entries go in body order in steps 2 and 4 too is the model's choice (log entry 55). -/
def acceptIssue (addr : U64) (b : IssueTargetBody) (s : State) : State :=
  let number := freshOrder s
  let s := s.setTargetOrders (s.targetOrders ++ [⟨number, addr, b.entries.length, 0⟩])
  let s := b.entries.zipIdx.foldl (fun s x => issueEntry addr number b.generation x.1 x.2 s) s
  let s := b.entries.zipIdx.foldl (fun s x =>
    hostWrite (targetEntryAddr addr x.2 + 12) (leBytes 1 CatState.verifyQueued.code ++ leBytes 1 0 ++ leBytes 2 0) s) s
  let s := writeTaken addr s
  b.entries.foldl (fun s t => changeoverCheck (lineOf t.line) s) s

/-- An ISSUE TARGET order taken at `addr` (R50, R51). -/
def takeIssueTarget (addr : U64) (b : IssueTargetBody) (s : State) : State :=
  match issueCheck s b with
  | some why => refuse addr why s
  | none => acceptIssue addr b s

/-! ### SET PRESS LINE: the checks (R125) -/

/-- Check 2 of R125. The hop list of a record read by the walk has the length its count gives. -/
def lineFieldsOk (b : SetLineBody) : Bool :=
  decide (1 ≤ b.primary.toNat) && decide (b.primary.toNat ≤ 30) && decide (b.secondary.toNat ≤ 3) &&
    decide (b.link.toNat ≤ 3) && decide (b.hopCount.toNat ≤ 7) && decide (b.hops.length = b.hopCount.toNat) &&
    b.hops.all (fun h => decide (1 ≤ h.toNat) && decide (h.toNat ≤ 254)) &&
    decide (b.rollBit.toNat ≤ 63) && decide (b.sense.toNat ≤ 1) &&
    (match b.alternate with
      | some a => decide (a.toNat ≤ 63) && a != b.line
      | none => true)

/-- The largest warn lead and fallback extension (R125). -/
def leadMax : Nat := 3600000

/-- The configuration an order stores, as clamped (R125). -/
def cfgOf (b : SetLineBody) : LineConfig where
  primary := b.primary
  secondary := b.secondary
  link := linkOf b.link
  path := b.hops
  rollBit := Fin.ofNat 64 b.rollBit.toNat
  sense := b.sense == 1
  warnLead := min b.warnLead.toNat leadMax
  alternate := b.alternate.map lineOf
  extension := min b.extension.toNat leadMax

/-- Whether the order's warn lead or fallback extension was clamped (R125). -/
def lineClamped (b : SetLineBody) : Bool :=
  decide (leadMax < b.warnLead.toNat) || decide (leadMax < b.extension.toNat)

/-- Check 3 of R125: another enabled line has the same link and address pair. -/
def addressTaken (s : State) (n : LineId) (c : LineConfig) : Bool :=
  allLines.any fun m => m != n && (s.line m).enabled && (s.line m).cfg.link == c.link &&
    (s.line m).cfg.primary == c.primary && (s.line m).cfg.secondary == c.secondary

/-- A route change: of link, of address pair or of path (R127). -/
def routeChanged (old new : LineConfig) : Bool :=
  old.link != new.link || old.primary != new.primary || old.secondary != new.secondary || old.path != new.path

/-- Whether a transfer of the line is in SENDING, RECEIPT_WAIT or CONFIRM_WAIT (R125 check 4). -/
def lineBusy (s : State) (n : LineId) : Bool :=
  (s.recs.any fun e => e.2.line == n && (e.2.state == .sending || e.2.state == .receiptWait)) ||
    (match (s.line n).slot with
      | some sl => sl.state == .sending || sl.state == .confirmWait
      | none => false)

/-- The checks of R125. That an order with the enable flag clear is not refused for a hop count above 7 (R125 against R166) is the
model's choice (log entry 54). -/
def setLineCheck (s : State) (b : SetLineBody) : Option RefusalDetail :=
  let n := lineOf b.line
  if 64 ≤ b.line.toNat then some .badField
  else if b.enable = false then none
  else if lineFieldsOk b = false then some .badField
  else if addressTaken s n (cfgOf b) then some .badField
  else if (s.line n).enabled && routeChanged (s.line n).cfg (cfgOf b) && lineBusy s n then some .lineBusy
  else none

/-! ### SET PRESS LINE: enabling (R126) -/

/-- The state of a line freshly enabled or routed: UNKNOWN on an UP link, else UNREACHABLE (R126, R127). -/
def routeState (s : State) (l : LinkId) : LineState :=
  if s.isUp l then .unknown else .unreachable

/-- Steps 1 to 3 of R126. -/
def enableLine (n : LineId) (c : LineConfig) (s : State) : State :=
  let s := s.modLine n fun k => { k with enabled := true, cfg := c }
  askQuery n (setLineState n (routeState s c.link) s)

/-! ### SET PRESS LINE: reconfiguring (R127, R89, R106) -/

/-- Step 2 of R127: the old query ends, the state follows the new route, and on an UP link a fresh query is asked.
That the query's orders end (R159) before the state is set, its mirror written and LINE_CHANGED raised is the model's choice (log
entry 46). -/
def reroute (n : LineId) (l : LinkId) (s : State) : State :=
  askQuery n (setLineState n (routeState s l) (endQuery n s))

/-- The records of a line in QUEUED or TARGET_WAIT, by rising number. -/
def waitingRecs (s : State) (n : LineId) : List Nat :=
  (s.recsOf n).filter fun i =>
    match s.rec? i with
    | some r => r.state == .queued || r.state == .targetWait
    | none => false

/-- The line's transfers that stand in a link's queue, in the order of their sequences (R89). -/
def movers (s : State) (l : LinkId) (n : LineId) : List Xfer :=
  ((s.link l).queue.filter fun x => xferLine s x == some n).foldl (fun acc x => insertBySeq s x acc) []

/-- Moves one transfer from the old link's queue to the new one's (R89). The one pick for the new link follows the last move.
That the old link's mirror is written before what the join writes is the model's choice (log entry 37). -/
def moveXfer (old new : LinkId) (s : State) (x : Xfer) : State :=
  joinQueue new x (leaveQueue old x s)

/-- The scheduler's part of a change of link (R89): every L of the line anew, then the queue entries, then a pick. -/
def moveQueues (n : LineId) (old new : LinkId) (s : State) : State :=
  let s := (waitingRecs s n).foldl (fun s i => updateL i s) s
  let s := recomputeSlot n s
  let s := (movers s old n).foldl (moveXfer old new) s
  pick new (reexamine n s)

/-- The pool's part of a change of link for one record (R31, R32, R127 step 3). -/
def moveRec (up : Bool) (s : State) (i : Nat) : State :=
  if up then recLinkUp i s else pauseTimer i s

/-- A control frame of the line found waiting on the old link (R127 step 3). -/
def moveFrame (new : LinkId) (s : State) (c : CtlFrame) : State :=
  if s.isUp new then offer new c s
  else
    match c with
    | .targetWithdraw n g => s.modLine n fun k => { k with owed := some g }
    | .release _ _ _ _ => s
    | .withdraw _ _ _ _ => s
    | .query _ => s
    | .roll => s
    | .mark _ _ => s

/-- The control frames of the line leave the old link's list for the new one's (R127 step 3). -/
def moveFrames (n : LineId) (old new : LinkId) (frames : List CtlFrame) (s : State) : State :=
  frames.foldl (moveFrame new) (dropControlOn old (CtlFrame.isFor n) s)

/-- Step 3 of R127, in its order: queues, records, owed withdrawal, waiting frames (log entry 23). -/
def moveLink (n : LineId) (old new : LinkId) (s : State) : State :=
  let frames := (s.link old).control.filter (CtlFrame.isFor n)
  let s := moveQueues n old new s
  let s := (s.recsOf n).foldl (moveRec (s.isUp new)) s
  moveFrames n old new frames (sendOwedTarget n s)

/-- A record's L computed anew for a new path; a QUEUED record whose L changed moves (R76, R89). -/
def repathRec (s : State) (i : Nat) : State :=
  match s.rec? i with
  | none => s
  | some r =>
    if recLatestStart s r = r.latestStart then s
    else moveInQueue (s.linkOf r.line) (.dest i) (updateL i s)

/-- Step 4 of R127. -/
def repath (n : LineId) (s : State) : State :=
  reexamine n ((waitingRecs s n).foldl repathRec s)

/-- Re-times one WARN entry (R106). -/
def retimeEntry (lead : Nat) (s : State) (d : DeadlineEntry) : State :=
  match s.rec? d.dest with
  | none => s
  | some r => addDeadline ⟨warnDue r.deadline lead, d.dest, .warn⟩ (removeDeadline d.dest s)

/-- The WARN entries of a line's records, in list order. That they are re-timed in this order is the model's choice (log
entry 39). -/
def warnEntries (s : State) (n : LineId) : List DeadlineEntry :=
  s.deadlines.filter fun d => d.kind == .warn &&
    (match s.rec? d.dest with
      | some r => r.line == n
      | none => false)

/-- Step 5 of R127 (R106). -/
def retime (n : LineId) (lead : Nat) (s : State) : State :=
  (warnEntries s n).foldl (retimeEntry lead) s

/-- Steps 1 to 5 of R127. -/
def reconfigureLine (n : LineId) (c : LineConfig) (s : State) : State :=
  let old := (s.line n).cfg
  let s := s.modLine n fun k => { k with cfg := c }
  let s := if routeChanged old c then reroute n c.link s else s
  let s := if old.link ≠ c.link then moveLink n old.link c.link s else s
  let s := if old.path ≠ c.path then repath n s else s
  if old.warnLead ≠ c.warnLead then retime n c.warnLead s else s

/-! ### SET PRESS LINE: disabling (R128, R39, R67) -/

/-- A live record of a disabled line fails LINE_GONE, whatever its state, and no frame is sent for it (R39). That the link
mirror (detachRec) is written before the record's entry is the model's choice (log entry 37). -/
def loseRec (s : State) (i : Nat) : State :=
  match s.rec? i with
  | none => s
  | some r => if r.state.isFinal then s else finish i .failed .lineGone (detachRec i s)

/-- The catalog clears the line (R67). That of two entries the older is dropped first is the model's choice (log entry 43). -/
def clearCatalog (n : LineId) (s : State) : State :=
  let s := (s.line n).catalog.foldl (fun s e => dropEntry n e s) s
  let s := dropControl (isTargetWithdraw n) (detachSlot n s)
  writeLineMirror n (s.modLine n fun k => { k with slot := none, owed := none, held := 0 })

/-- Steps 1 to 4 of R128; the link then picks anew (R87, log entry 24). -/
def disableLine (n : LineId) (s : State) : State :=
  let s := sweepPages ((s.recsOf n).foldl loseRec s)
  let s := endQuery n (clearCatalog n s)
  let old := s.line n
  let s := changeLine n (fun k => { k with enabled := false, state := .unconfigured, statusByte := 0, timeouts := 0 }) s
  pick (s.linkOf n) (raiseIfChanged old n s)

/-- What an accepted SET PRESS LINE does, by the line's state at take (R125). -/
def applySetLine (b : SetLineBody) (s : State) : State :=
  let n := lineOf b.line
  match b.enable, (s.line n).enabled with
  | true, false => enableLine n (cfgOf b) s
  | true, true => reconfigureLine n (cfgOf b) s
  | false, true => disableLine n s
  | false, false => s

/-- A SET PRESS LINE order taken at `addr` (R125 to R128). -/
def takeSetLine (addr : U64) (b : SetLineBody) (s : State) : State :=
  match setLineCheck s b with
  | some why => refuse addr why s
  | none => finalDisposition addr (if b.enable && lineClamped b then .adjusted else .done) 0 (applySetLine b s)

/-! ### ROLL CALL and QUERY LINE, which can be held (R153, R161, R168) -/

/-- The order unit holds the take: nothing is written and the cursor has not moved (R168). -/
def holdTake (addr : U64) (o : HeldOrder) (s : State) : State :=
  s.modOrder fun q => { q with held := match q.held with | some h => some h | none => some ⟨addr, o, false⟩ }

/-- A ROLL CALL order taken at `addr` (R153). -/
def takeRollCall (addr : U64) (link : Byte) (s : State) : State :=
  let l := linkOf link
  if 4 ≤ link.toNat then refuse addr .badField (markTaken addr s)
  else if s.isUp l = false then refuse addr .linkNotUp (markTaken addr s)
  else
    match (s.link l).roll with
    | none => writeTaken addr (openWindow l [addr] (markTaken addr s))
    | some w =>
      if w.pending.length < Config.rollOrders then
        writeTaken addr ((markTaken addr s).modLink l fun k => { k with roll := some { w with pending := w.pending ++ [addr] } })
      else holdTake addr (.rollCall l) s

/-- A line that QUERY LINE refuses (R161). -/
def LineState.unusable : LineState → Bool
  | .unconfigured | .unreachable => true
  | .unknown | .ready | .held => false

/-- A QUERY LINE order taken at `addr` (R161). -/
def takeQueryLine (addr : U64) (line : Byte) (s : State) : State :=
  let n := lineOf line
  if 64 ≤ line.toNat then refuse addr .badField (markTaken addr s)
  else if (s.line n).state.unusable then refuse addr .lineUnusable (markTaken addr s)
  else
    match (s.line n).query with
    | none => writeTaken addr (sendQuery n [addr] (markTaken addr s))
    | some q =>
      if q.pending.length < Config.queryOrders then
        writeTaken addr ((markTaken addr s).modLine n fun k => { k with query := some { q with pending := q.pending ++ [addr] } })
      else holdTake addr (.queryLine n) s

/-- A record of unknown kind or of kind ANCHOR: refused BAD_KIND, then CHAIN (R168). That a chain which leads back to the desk base has
its REFUSED written there, into the anchor (R168 against R165 and R175), is the model's choice (log entry 53). -/
def takeBadKind (addr : U64) (s : State) : State :=
  raise .chain (refuse addr .badKind s)

/-! ### The take of any order (R168) -/

/-- Takes an order: its owner's effect, with what follows the take. -/
def takeOrder (addr : U64) (o : Order) (s : State) : State :=
  match o with
  | .setLink b => afterTake (takeSetLink addr b (markTaken addr s))
  | .setLine b => afterTake (takeSetLine addr b (markTaken addr s))
  | .setClock b => startVerify (takeSetClock addr b (markTaken addr s))
  | .consign b => afterTake (takeConsign addr b (markTaken addr s))
  | .withdraw b => afterTake (takeWithdraw addr b (markTaken addr s))
  | .issueTarget b => afterTake (takeIssueTarget addr b (markTaken addr s))
  | .rollCall link => takeRollCall addr link s
  | .queryLine line => takeQueryLine addr line s
  | .badKind _ => takeBadKind addr (markTaken addr s)

end Sys2Proof.Machine
end

