-- ==== Sys2Proof/Machine/Walk.lean ====
section
/-! DEFINITION. The order unit's registers (R162 to R165, R171), its walk (R166, R167), the held take (R168) and the resets (R173). -/

namespace Sys2Proof.Machine

/-! ### Part states (R164, R167) -/

/-- The part enters a state with a fault code, and the summary shows it. -/
def enterState (p : PartState) (code : FaultCode) (s : State) : State :=
  writeSummary (s.modOrder fun o => { o with part := p, faultCode := code })

/-- A chain fault: the code, CHAIN_FAULT, the summary, then CHAIN (R167). -/
def chainFault (code : FaultCode) (s : State) : State :=
  raise .chain (enterState .chainFault code s)

/-- A stop that waited ends once no read is in flight and no take is held: the part becomes READY (R164). -/
def endStop (s : State) : State :=
  if s.order.stopping ∧ s.order.walk = .idle ∧ s.order.held = none then
    enterState .ready .none (s.modOrder fun o => { o with stopping := false })
  else s

/-! ### CONTROL (R163, R164) -/

/-- RUN takes a READY part to RUNNING; while the walk-started mark is clear the cursor is set to the anchor (R164). -/
def startWalk (s : State) : State :=
  enterState .running s.order.faultCode
    (s.modOrder fun o => { o with cursor := if o.walkStarted then o.cursor else o.deskBase })

/-- RUN written 1, the mask being stored (R163). -/
def setRun (s : State) : State :=
  match s.order.part with
  | .unset => s.modOrder fun o => { o with run := false }
  | .ready => startWalk (s.modOrder fun o => { o with run := true })
  | .running => s.modOrder fun o => { o with run := true }
  | .chainFault => enterState .running .none (s.modOrder fun o => { o with run := true })

/-- RUN written 0, the mask being stored (R163, R164): a read in flight or a held take delays the stop. -/
def clearRun (s : State) : State :=
  let s := s.modOrder fun o => { o with run := false }
  match s.order.part with
  | .unset => s
  | .ready => s
  | .running =>
    if s.order.walk ≠ .idle ∨ s.order.held.isSome then s.modOrder fun o => { o with stopping := true }
    else enterState .ready s.order.faultCode s
  | .chainFault => enterState .ready .none s

/-- A CONTROL write with RESET clear: the mask, then RUN (R163). -/
def writeControl (run : Bool) (mask : BitVec 9) (s : State) : State :=
  if run then setRun (storeMask mask s) else clearRun (storeMask mask s)

/-- The state right after a reset. What waits outside the part is kept: the commands to come, the writes already issued, the
value last read, the draws of free values (R173, log entry 22). -/
def resetPart (s : State) : State :=
  { State.reset with
    pending := s.pending
    bus := s.bus
    readData := s.readData
    freeDraws := s.freeDraws }

/-- A write of the CONTROL word (R163, R174). -/
def writeControlWord (w : U32) (s : State) : State :=
  if controlReset w then resetPart s else writeControl (controlRun w) (controlMask w) s

/-! ### Addresses (R162, R164, R166) -/

/-- A 64-bit value from its halves. -/
def joinHalves (hi lo : U32) : U64 := hi ++ lo

/-- The upper half of a 64-bit value. -/
def highHalf (a : U64) : U32 := (a >>> 32).setWidth 32

/-- The lower half of a 64-bit value. -/
def lowHalf (a : U64) : U32 := a.setWidth 32

/-- A desk base with its low 12 bits forced to 0 (R164). -/
def deskAlign (a : U64) : U64 := a &&& 0xFFFFFFFFFFFFF000#64

/-- A DESK_BASE write that takes effect (R164, R165). That the whole desk's summary write is the one that shows a new part state is
read from the two rules (log entry 50). -/
def setDeskBase (base : U64) (s : State) : State :=
  let s := s.modOrder fun o => { o with
    deskBase := base, walkStarted := false, part := if base = 0 then .unset else .ready }
  if base = 0 then s else writeDesk s

/-- A write of DESK_BASE_LO: ignored outside UNSET and READY (R164). -/
def writeDeskBase (lo : U32) (s : State) : State :=
  match s.order.part with
  | .unset | .ready => setDeskBase (deskAlign (joinHalves s.order.deskHi lo)) s
  | .running | .chainFault => s

/-- A write of CHAIN_LIMIT_LO; in CHAIN_FAULT the walk retries (R166, R167). -/
def writeChainLimit (lo : U32) (s : State) : State :=
  let s := s.modOrder fun o => { o with chainLimit := joinHalves o.limitHi lo }
  match s.order.part with
  | .chainFault => enterState .running .none s
  | .unset | .ready | .running => s

/-- A write at an offset of the register window (R162, R174). -/
def writeRegister (offset : BitVec 12) (width : AccessWidth) (v : U32) (s : State) : State :=
  if width ≠ .word ∨ offset.toNat % 4 ≠ 0 then s
  else if offset = 0x004 then writeControlWord v s
  else if offset = 0x010 then writeDeskBase v s
  else if offset = 0x014 then s.modOrder fun o => { o with deskHi := v }
  else if offset = 0x018 then writeChainLimit v s
  else if offset = 0x01C then s.modOrder fun o => { o with limitHi := v }
  else s

/-! ### Reads of the window (R162, R163, R171, R174) -/

/-- CONTROL as it reads: RUN as stored, RESET 0, the attention mask (R163, R174). -/
def OrderUnit.control (o : OrderUnit) : U32 :=
  (o.mask.setWidth 32 <<< 16) ||| (if o.run then 1 else 0)

/-- What an aligned 32-bit read at an offset returns (R162, R174): of DESK_BASE and CHAIN_LIMIT the halves in effect, of
CHAIN_CURSOR_HI the captured half where one waits, and 0 at an offset without a register. -/
def OrderUnit.readAt (o : OrderUnit) (offset : BitVec 12) : U32 :=
  if offset = 0x000 then Config.ident
  else if offset = 0x004 then o.control
  else if offset = 0x008 then BitVec.ofNat 32 o.part.code
  else if offset = 0x00C then o.attention.setWidth 32
  else if offset = 0x010 then lowHalf o.deskBase
  else if offset = 0x014 then highHalf o.deskBase
  else if offset = 0x018 then lowHalf o.chainLimit
  else if offset = 0x01C then highHalf o.chainLimit
  else if offset = 0x020 then lowHalf o.cursor
  else if offset = 0x024 then highHalf (o.capture.getD o.cursor)
  else 0

/-- What an aligned 32-bit read at an offset does to the registers: ATTENTION is cleared (R171), CHAIN_CURSOR_LO captures the whole
cursor, CHAIN_CURSOR_HI uses the capture up (R162). -/
def OrderUnit.afterRead (o : OrderUnit) (offset : BitVec 12) : OrderUnit :=
  if offset = 0x00C then { o with attention := 0 }
  else if offset = 0x020 then { o with capture := some o.cursor }
  else if offset = 0x024 then { o with capture := none }
  else o

/-- A read at an offset of the register window; one of another width or alignment returns 0 (R162). The reads that the command
table has rows for are ATTENTION's and CHAIN_CURSOR's (log entry 29). -/
def readRegister (offset : BitVec 12) (width : AccessWidth) (s : State) : State :=
  if width ≠ .word ∨ offset.toNat % 4 ≠ 0 then s.setReadData 0
  else (s.setReadData (s.order.readAt offset)).modOrder fun o => o.afterRead offset

/-- A read of ATTENTION returns the cause bits and clears every bit it returned (R171). -/
def readAttention (s : State) : State :=
  readRegister 0x00C .word s

/-- A read of a half of CHAIN_CURSOR (R162): LO captures the whole, the next HI returns the captured half. -/
def readCursor (h : Half) (s : State) : State :=
  match h with
  | .lo => readRegister 0x020 .word s
  | .hi => readRegister 0x024 .word s

/-! ### The walk (R166, R167) -/

/-- Whether the order unit walks a step now (R166). -/
def walks (o : OrderUnit) : Bool :=
  o.part == .running && o.chainLimit != 0 && o.cursor != o.chainLimit && o.held.isNone && o.walk == .idle && !o.stopping

/-- WALK_STEP: the read of the next field goes out (R166, log entry 2). -/
def walkStep (s : State) : State :=
  if walks s.order then s.modOrder fun o => { o with walk := .nextField } else s

/-- The read in flight has returned. -/
def endRead (s : State) : State :=
  s.modOrder fun o => { o with walk := .idle }

/-- The checks of a next field (R166); a good one has the record read. -/
def nextFieldRead (next : U64) (s : State) : State :=
  if next = 0 then chainFault .nullNext (endRead s)
  else if next.toNat % 16 ≠ 0 then chainFault .misaligned (endRead s)
  else s.modOrder fun o => { o with walk := .record next }

/-- The bytes that a record's read must hold: the header, and the body of a record that is NEW (R166). -/
def recordNeeds (bs : List Byte) : Nat :=
  if bs.length < 16 ∨ recordDisposition bs ≠ 0 then 16 else recordLength bs

/-- A record read whole: a stale one is a chain fault, a NEW one is taken (R166). -/
def recordRead (addr : U64) (bs : List Byte) (s : State) : State :=
  if recordDisposition bs ≠ 0 then chainFault .staleRecord (endRead s)
  else takeOrder addr (readOrder bs) (endRead s)

/-- The bytes that the read in flight asked for. -/
def WalkRead.needs (bs : List Byte) : WalkRead → Nat
  | .idle => 0
  | .nextField => 8
  | .record _ => recordNeeds bs

/-- The bytes of the read in flight have come, and are enough for it (R166). -/
def readData (bs : List Byte) (s : State) : State :=
  match s.order.walk with
  | .idle => s
  | .nextField => nextFieldRead (BitVec.ofNat 64 (fieldNat bs 0 8)) s
  | .record a => recordRead a bs s

/-- The read in flight returns while RUN stands: an error is a chain fault, bytes go on (R166). -/
def readReturned (r : ReadReturn) (s : State) : Host.Outcome State Fault Refusal :=
  match r with
  | .error => .next (chainFault .readError (endRead s))
  | .data bs =>
    if bs.length < s.order.walk.needs bs then .refused (.shortRead bs.length (s.order.walk.needs bs))
    else .next (readData bs s)

/-! ### The held take (R168) -/

/-- A held order is checked and taken afresh. -/
def retake (h : HeldTake) (s : State) : State :=
  match h.order with
  | .rollCall l => takeRollCall h.addr (BitVec.ofNat 8 l.val) s
  | .queryLine n => takeQueryLine h.addr (BitVec.ofNat 8 n.val) s

/-- HELD_TAKE_RESUME (R168, R164): once the window or query has ended; a stop that waited for the take then completes. -/
def resumeHeld (s : State) : State :=
  match s.order.held with
  | some h =>
    if h.ended then endStop (retake h (s.modOrder fun o => { o with held := none })) else s
  | none => s

end Sys2Proof.Machine
end

