-- ==== Sys2Proof/Machine/Registers.lean ====
section
/-! DEFINITION. The commands of the order unit: resets, register accesses and the walk (R162 to R168, R171, R173). -/

namespace Sys2Proof.Machine

/-- POWER_ON_RESET (R173). -/
def execPowerOnReset (s : State) : Host.Outcome State Fault Refusal :=
  .next (resetPart s)

/-- PCIE_FUNDAMENTAL_RESET (R173): acts as power-on reset. -/
def execPcieFundamentalReset (s : State) : Host.Outcome State Fault Refusal :=
  .next (resetPart s)

/-- CONTROL_RESET (R163, R173): the CONTROL word written; with RESET clear it is an ordinary CONTROL write (log entry 20). -/
def execControlReset (word : U32) (s : State) : Host.Outcome State Fault Refusal :=
  .next (writeControlWord word s)

/-- RUN_SET (R163): a CONTROL write with RUN 1, which also stores the mask. -/
def execRunSet (mask : BitVec 9) (s : State) : Host.Outcome State Fault Refusal :=
  .next (setRun (storeMask mask s))

/-- RUN_CLEAR (R163, R164): a CONTROL write with RUN 0, which also stores the mask. -/
def execRunClear (mask : BitVec 9) (s : State) : Host.Outcome State Fault Refusal :=
  .next (clearRun (storeMask mask s))

/-- ATTENTION_MASK_WRITE (R163, R171): a CONTROL write with RESET clear. -/
def execAttentionMaskWrite (run : Bool) (mask : BitVec 9) (s : State) : Host.Outcome State Fault Refusal :=
  .next (writeControl run mask s)

/-- ATTENTION_READ (R171). -/
def execAttentionRead (s : State) : Host.Outcome State Fault Refusal :=
  .next (readAttention s)

/-- DESK_BASE_WRITE (R164, R165): a write of DESK_BASE_LO. -/
def execDeskBaseWrite (lo : U32) (s : State) : Host.Outcome State Fault Refusal :=
  .next (writeDeskBase lo s)

/-- CHAIN_LIMIT_WRITE (R166, R167): a write of CHAIN_LIMIT_LO. -/
def execChainLimitWrite (lo : U32) (s : State) : Host.Outcome State Fault Refusal :=
  .next (writeChainLimit lo s)

/-- CHAIN_CURSOR_READ (R162). -/
def execChainCursorRead (h : Half) (s : State) : Host.Outcome State Fault Refusal :=
  .next (readCursor h s)

/-- REGISTER_WRITE (R162, R174). -/
def execRegisterWrite (offset : BitVec 12) (width : AccessWidth) (value : U32) (s : State) :
    Host.Outcome State Fault Refusal :=
  .next (writeRegister offset width value s)

/-- WALK_STEP (R166). -/
def execWalkStep (s : State) : Host.Outcome State Fault Refusal :=
  .next (walkStep s)

/-- WALK_READ_RETURN (R164, R166): the data are discarded when RUN was cleared meanwhile. -/
def execWalkReadReturn (r : ReadReturn) (s : State) : Host.Outcome State Fault Refusal :=
  if s.order.walk = .idle then .next s
  else if s.order.stopping then .next (endStop (endRead s))
  else readReturned r s

/-- HELD_TAKE_RESUME (R168). -/
def execHeldTakeResume (s : State) : Host.Outcome State Fault Refusal :=
  .next (resumeHeld s)

end Sys2Proof.Machine
end

