-- ==== Sys2Proof/Machine/Takes.lean ====
section
/-! DEFINITION. The commands that take an order (R168, log entry 1). -/

namespace Sys2Proof.Machine

/-- SET_LINK (R138). -/
def execSetLink (addr : U64) (b : SetLinkBody) (s : State) : Host.Outcome State Fault Refusal :=
  .next (takeOrder addr (.setLink b) s)

/-- SET_PRESS_LINE (R125 to R128). -/
def execSetPressLine (addr : U64) (b : SetLineBody) (s : State) : Host.Outcome State Fault Refusal :=
  .next (takeOrder addr (.setLine b) s)

/-- SET_CLOCK (R112). -/
def execSetClock (addr : U64) (b : SetClockBody) (s : State) : Host.Outcome State Fault Refusal :=
  .next (takeOrder addr (.setClock b) s)

/-- CONSIGN (R4, R5). -/
def execConsign (addr : U64) (b : ConsignBody) (s : State) : Host.Outcome State Fault Refusal :=
  .next (takeOrder addr (.consign b) s)

/-- WITHDRAW (R16). -/
def execWithdraw (addr : U64) (b : WithdrawBody) (s : State) : Host.Outcome State Fault Refusal :=
  .next (takeOrder addr (.withdraw b) s)

/-- ISSUE_TARGET (R50, R51). -/
def execIssueTarget (addr : U64) (b : IssueTargetBody) (s : State) : Host.Outcome State Fault Refusal :=
  .next (takeOrder addr (.issueTarget b) s)

/-- ROLL_CALL (R153). -/
def execRollCall (addr : U64) (link : Byte) (s : State) : Host.Outcome State Fault Refusal :=
  .next (takeOrder addr (.rollCall link) s)

/-- QUERY_LINE (R161). -/
def execQueryLine (addr : U64) (line : Byte) (s : State) : Host.Outcome State Fault Refusal :=
  .next (takeOrder addr (.queryLine line) s)

/-- BAD_KIND (R168). -/
def execBadKind (addr : U64) (kind : Byte) (s : State) : Host.Outcome State Fault Refusal :=
  .next (takeOrder addr (.badKind kind) s)

end Sys2Proof.Machine
end

