-- ==== Sys2Proof/Machine/Dispatch.lean ====
section
/-! DEFINITION. The meaning of every command, one arm for each constructor of Instr. -/

namespace Sys2Proof.Machine

def exec (i : Instr) (s : State) : Host.Outcome State Fault Refusal :=
  match i with
  | .powerOnReset => Sys2Proof.Machine.execPowerOnReset s
  | .pcieFundamentalReset => Sys2Proof.Machine.execPcieFundamentalReset s
  | .controlReset word => Sys2Proof.Machine.execControlReset word s
  | .runSet mask => Sys2Proof.Machine.execRunSet mask s
  | .runClear mask => Sys2Proof.Machine.execRunClear mask s
  | .attentionMaskWrite run mask => Sys2Proof.Machine.execAttentionMaskWrite run mask s
  | .attentionRead => Sys2Proof.Machine.execAttentionRead s
  | .deskBaseWrite lo => Sys2Proof.Machine.execDeskBaseWrite lo s
  | .chainLimitWrite lo => Sys2Proof.Machine.execChainLimitWrite lo s
  | .chainCursorRead half => Sys2Proof.Machine.execChainCursorRead half s
  | .registerWrite offset width value => Sys2Proof.Machine.execRegisterWrite offset width value s
  | .walkStep => Sys2Proof.Machine.execWalkStep s
  | .heldTakeResume => Sys2Proof.Machine.execHeldTakeResume s
  | .setLink addr b => Sys2Proof.Machine.execSetLink addr b s
  | .setPressLine addr b => Sys2Proof.Machine.execSetPressLine addr b s
  | .setClock addr b => Sys2Proof.Machine.execSetClock addr b s
  | .consign addr b => Sys2Proof.Machine.execConsign addr b s
  | .withdraw addr b => Sys2Proof.Machine.execWithdraw addr b s
  | .issueTarget addr b => Sys2Proof.Machine.execIssueTarget addr b s
  | .rollCall addr link => Sys2Proof.Machine.execRollCall addr link s
  | .queryLine addr line => Sys2Proof.Machine.execQueryLine addr line s
  | .badKind addr kind => Sys2Proof.Machine.execBadKind addr kind s
  | .verifyPassEnd payload => Sys2Proof.Machine.execVerifyPassEnd payload s
  | .verifyReadError => Sys2Proof.Machine.execVerifyReadError s
  | .sendReadError n => Sys2Proof.Machine.execSendReadError n s
  | .targetReadError n => Sys2Proof.Machine.execTargetReadError n s
  | .clockAdvance => Sys2Proof.Machine.execClockAdvance s
  | .syncPulse => Sys2Proof.Machine.execSyncPulse s
  | .holdEnd => Sys2Proof.Machine.execHoldEnd s
  | .lossTimerExpiry => Sys2Proof.Machine.execLossTimerExpiry s
  | .warnFiring => Sys2Proof.Machine.execWarnFiring s
  | .missFiring => Sys2Proof.Machine.execMissFiring s
  | .releaseFiring => Sys2Proof.Machine.execReleaseFiring s
  | .receiptTimeout n => Sys2Proof.Machine.execReceiptTimeout n s
  | .releaseTimeout n => Sys2Proof.Machine.execReleaseTimeout n s
  | .withdrawTimeout n => Sys2Proof.Machine.execWithdrawTimeout n s
  | .confirmTimeout n => Sys2Proof.Machine.execConfirmTimeout n s
  | .windowTimeout l => Sys2Proof.Machine.execWindowTimeout l s
  | .silenceTimeout l => Sys2Proof.Machine.execSilenceTimeout l s
  | .lossOfSignal l => Sys2Proof.Machine.execLossOfSignal l s
  | .retryTimeout l => Sys2Proof.Machine.execRetryTimeout l s
  | .queryTimeout n => Sys2Proof.Machine.execQueryTimeout n s
  | .rollWindowClose l => Sys2Proof.Machine.execRollWindowClose l s
  | .requeryTimeout n => Sys2Proof.Machine.execRequeryTimeout n s
  | .credit l f => Sys2Proof.Machine.execCredit l f s
  | .ckptAck l f => Sys2Proof.Machine.execCkptAck l f s
  | .receipt l f => Sys2Proof.Machine.execReceipt l f s
  | .outboundKindReceived link kind f => Sys2Proof.Machine.execOutboundKindReceived link kind f s
  | .targetConfirm l f => Sys2Proof.Machine.execTargetConfirm l f s
  | .releaseAck l f => Sys2Proof.Machine.execReleaseAck l f s
  | .withdrawAck l f => Sys2Proof.Machine.execWithdrawAck l f s
  | .status l f => Sys2Proof.Machine.execStatus l f s
  | .rollAnswer l f => Sys2Proof.Machine.execRollAnswer l f s
  | .echo l f => Sys2Proof.Machine.execEcho l f s
  | .frameLeft l => Sys2Proof.Machine.execFrameLeft l s
  | .walkReadReturn r => Sys2Proof.Machine.execWalkReadReturn r s

end Sys2Proof.Machine
end

