-- ==== Sys2Proof/Safety.lean ====
section
/-! DEFINITION. What a safe part is, in the terms the claims use: the invariants of each block, the writes a command issues, the
state in which a command leaves nothing to be done after it. -/

namespace Sys2Proof.Machine

/-! ### Invariants -/

/-- The press clock (R109, R111, R116, R118): the value is a press time, CLOCK_END stands at the largest one and nowhere else, the
sync state is FREE exactly under INTERNAL, a hold is one that a pulse can start, and the loss timer runs exactly while the
clock is LOCKED and short of its end. -/
structure Clock.Sound (c : Clock) : Prop where
  value : c.value ≤ Config.maxU32
  ends : c.clockEnd = true ↔ c.value = Config.maxU32
  sync : c.sync = .free ↔ c.source = .internal
  unset : c.clockUnset = true → c.source = .internal
  hold : ∀ n, c.hold = some n → n ≤ 499 ∧ c.source = .station ∧ c.clockEnd = false
  loss : c.loss.isSome = true ↔ c.sync = .locked ∧ c.clockEnd = false
  snapshot : c.snapshot ≤ Config.maxU32

/-- The order unit (R164, R167): which part states go with which RUN bit, desk base, fault code, walk and stop. A RUN 1 written while a
stop waits stays stored when the part becomes READY (R163, log entry 17), so RUN says nothing of READY and UNSET. -/
structure OrderUnit.Sound (o : OrderUnit) : Prop where
  unset : o.part = .unset ↔ o.deskBase = 0
  aligned : o.deskBase &&& 0xFFF#64 = 0
  running : o.part = .running → o.run = true ∨ o.stopping = true
  faulted : o.part = .chainFault → o.run = true
  stopping : o.stopping = true → o.part = .running ∧ (o.walk ≠ .idle ∨ o.held.isSome = true)
  walk : o.walk ≠ .idle → o.part = .running
  code : o.faultCode ≠ .none ↔ o.part = .chainFault

/-- A link that is not UP has no frame on the wire, none waiting, no transfer in SENDING and no roll-call window (R140, R143, R153). -/
structure Link.Dark (k : Link) : Prop where
  wire : k.wire = none
  control : k.control = []
  sending : k.sending = none
  roll : k.roll = none

/-- A plate link (R136 to R142, R146): values in their ranges, credit only while UP, the silence timer exactly while UP, the retry
timer exactly while DOWN. -/
structure Link.Sound (k : Link) : Prop where
  rate : 64 ≤ k.rate ∧ k.rate ≤ 250000
  guardMs : k.guardMs ≤ 600000
  silenceLimit : 1000 ≤ k.silenceLimit ∧ k.silenceLimit ≤ 60000
  markCount : k.markCount < 64
  credit : k.credit ≤ Config.creditMax
  noCredit : k.state ≠ .up → k.credit = 0
  silence : k.silence.isSome = true ↔ k.state = .up
  retry : k.retry.isSome = true ↔ k.state = .down
  dark : k.state ≠ .up → k.Dark

/-- The configuration of an enabled line lies in the ranges of R121 and R125. -/
structure LineConfig.Sound (c : LineConfig) : Prop where
  primary : 1 ≤ c.primary.toNat ∧ c.primary.toNat ≤ 30
  secondary : c.secondary.toNat ≤ 3
  hops : c.path.length ≤ 7
  hop : ∀ h ∈ c.path, 1 ≤ h.toNat ∧ h.toNat ≤ 254
  warnLead : c.warnLead ≤ 3600000
  extension : c.extension ≤ 3600000

/-- Two lines answer to one address on one link. -/
def LineConfig.sameAddress (a b : LineConfig) : Prop :=
  a.link = b.link ∧ a.primary = b.primary ∧ a.secondary = b.secondary

/-- The press-line table (R121, R122): enabled lines have configurations in range, and no two of them one address on one link. -/
structure State.LinesSound (s : State) : Prop where
  config : ∀ n, (s.line n).enabled = true → (s.line n).cfg.Sound
  distinct : ∀ n m, (s.line n).enabled = true → (s.line m).enabled = true → n ≠ m →
    ¬ (s.line n).cfg.sameAddress (s.line m).cfg

/-- The due times of the deadline list do not fall (R92). -/
def sortedDue (d : List DeadlineEntry) : Prop :=
  d.Pairwise fun a b => a.due ≤ b.due

/-- No entry of the deadline list has had its due time reached (R95). -/
def State.NoneDue (s : State) : Prop :=
  ∀ d ∈ s.deadlines, s.clock.value < d.due

/-- The tables and the deadline list are in their canonical order, a page entry in use is one of the 128, and the list holds no entry
whose due time has been reached (R1, R92, R95). -/
structure State.TablesSound (s : State) : Prop where
  pages : Table.rising s.pages = true
  entries : ∀ p ∈ Table.keys s.pages, p < Config.pageEntries
  recs : Table.rising s.recs = true
  deadlines : sortedDue s.deadlines
  due : s.NoneDue

/-- A transfer waits for a link: its record or slot is QUEUED, at a line routed on that link (R69). -/
def WaitsOn (s : State) (l : LinkId) : Xfer → Prop
  | .dest n => ∃ r, s.rec? n = some r ∧ r.state = .queued ∧ s.linkOf r.line = l
  | .slot n => ∃ sl, (s.line n).slot = some sl ∧ sl.state = .queued ∧ s.linkOf n = l

/-- A transfer is being sent on a link: its record or slot is SENDING, at a line routed on that link (R69). -/
def SendsOn (s : State) (l : LinkId) : Xfer → Prop
  | .dest n => ∃ r, s.rec? n = some r ∧ r.state = .sending ∧ s.linkOf r.line = l
  | .slot n => ∃ sl, (s.line n).slot = some sl ∧ sl.state = .sending ∧ s.linkOf n = l

/-- A transfer stands in a link's queue or its SENDING slot. -/
def StandsOn (s : State) (l : LinkId) (x : Xfer) : Prop :=
  x ∈ (s.link l).queue ∨ (s.link l).sending = some x

/-- The link queues (R69, R74, R75) with what they rest on. A transfer in a queue is QUEUED, one in a SENDING slot is SENDING, each
at a line of that link, so that it stands in one place only; each queue is in the order of R74, no two transfers that stand
somewhere have one sequence, and all of these lie below the next. The free list holds the numbers of no record in use, each once
(R21); a page's destinations are records of its own (R22); live records and loaded slots are at enabled lines (R39, R67). -/
structure State.QueuesSound (s : State) : Prop where
  waits : ∀ l, ∀ x ∈ (s.link l).queue, WaitsOn s l x
  sends : ∀ l x, (s.link l).sending = some x → SendsOn s l x
  order : ∀ l, (s.link l).queue.Pairwise fun x y => (xferKey s x).before (xferKey s y) = true
  sequence : ∀ l m x y, StandsOn s l x → StandsOn s m y → x ≠ y → (xferKey s x).seq ≠ (xferKey s y).seq
  counter : ∀ l x, StandsOn s l x → (xferKey s x).seq < s.seqNext
  free : s.free.Nodup ∧ ∀ n ∈ s.free, s.rec? n = none
  dests : ∀ e ∈ s.pages, e.2.dests.Nodup ∧ ∀ n ∈ e.2.dests, ∃ r, s.rec? n = some r ∧ r.parent = e.1
  enabled : (∀ e ∈ s.recs, e.2.state.isFinal = false → (s.line e.2.line).enabled = true) ∧
    ∀ n, (s.line n).slot ≠ none → (s.line n).enabled = true

/-- A part all of whose blocks are sound. -/
structure State.Sound (s : State) : Prop where
  clock : s.clock.Sound
  order : s.order.Sound
  links : ∀ l, (s.link l).Sound
  lines : s.LinesSound
  tables : s.TablesSound
  queues : s.QueuesSound

/-- A safe run of one command: it ends in a next state, and that state is sound. -/
def SafeStep (c : Instr) (s : State) : Prop :=
  ∃ t, exec c s = .next t ∧ t.Sound

/-! ### Groups of commands -/

/-- The commands by what they can reach: the resets; the register accesses; the walk; the orders that set a link, a press line or
the clock, CONSIGN, the other orders; the press clock's events; the events that end or begin a link's life; CREDIT, which
can bring a link UP; every other event and frame. -/
inductive Group where
  | reset | register | walk | setLink | setLine | setClock | consign | order | clock | linkEvent | credit | event
deriving DecidableEq, Repr

/-- The group of a command. A CONTROL write with RESET set is a reset (R163). -/
def group : Instr → Group
  | .powerOnReset => .reset
  | .pcieFundamentalReset => .reset
  | .controlReset w => if controlReset w then .reset else .register
  | .runSet _ => .register
  | .runClear _ => .register
  | .attentionMaskWrite _ _ => .register
  | .attentionRead => .register
  | .deskBaseWrite _ => .register
  | .chainLimitWrite _ => .register
  | .chainCursorRead _ => .register
  | .registerWrite o w v => if w = .word ∧ o = 0x004 ∧ controlReset v = true then .reset else .register
  | .walkStep => .walk
  | .heldTakeResume => .walk
  | .setLink _ _ => .setLink
  | .setPressLine _ _ => .setLine
  | .setClock _ _ => .setClock
  | .consign _ _ => .consign
  | .withdraw _ _ => .order
  | .issueTarget _ _ => .order
  | .rollCall _ _ => .order
  | .queryLine _ _ => .order
  | .badKind _ _ => .order
  | .verifyPassEnd _ => .event
  | .verifyReadError => .event
  | .sendReadError _ => .event
  | .targetReadError _ => .event
  | .clockAdvance => .clock
  | .syncPulse => .clock
  | .holdEnd => .clock
  | .lossTimerExpiry => .clock
  | .warnFiring => .event
  | .missFiring => .event
  | .releaseFiring => .event
  | .receiptTimeout _ => .event
  | .releaseTimeout _ => .event
  | .withdrawTimeout _ => .event
  | .confirmTimeout _ => .event
  | .windowTimeout _ => .event
  | .silenceTimeout _ => .linkEvent
  | .lossOfSignal _ => .linkEvent
  | .retryTimeout _ => .linkEvent
  | .queryTimeout _ => .event
  | .rollWindowClose _ => .event
  | .requeryTimeout _ => .event
  | .credit _ _ => .credit
  | .ckptAck _ _ => .event
  | .receipt _ _ => .event
  | .outboundKindReceived _ k _ => if k = kindCredit then .credit else .event
  | .targetConfirm _ _ => .event
  | .releaseAck _ _ => .event
  | .withdrawAck _ _ => .event
  | .status _ _ => .event
  | .rollAnswer _ _ => .event
  | .echo _ _ => .event
  | .frameLeft _ => .event
  | .walkReadReturn _ => .walk

/-- The order command that takes an order at an address: the take of a record the walk has read (log entry 1). -/
def orderCommand (addr : U64) : Order → Instr
  | .setLink b => .setLink addr b
  | .setLine b => .setPressLine addr b
  | .setClock b => .setClock addr b
  | .consign b => .consign addr b
  | .withdraw b => .withdraw addr b
  | .issueTarget b => .issueTarget addr b
  | .rollCall l => .rollCall addr l
  | .queryLine n => .queryLine addr n
  | .badKind k => .badKind addr k

/-! ### What a command does -/

/-- A command completes with a next state of which something holds. -/
def Runs (c : Instr) (s : State) (holds : State → Prop) : Prop :=
  ∃ t, exec c s = .next t ∧ holds t

/-- Between two states a write to host memory was issued (R170). -/
def Issued (s t : State) (w : BusWrite) : Prop :=
  ∃ later earlier, t.bus = later ++ w :: (earlier ++ s.bus)

/-- An attention cause stands (R171). -/
def Raised (t : State) (c : Cause) : Prop :=
  t.order.attention.getLsbD c.bit = true

/-- An order record was written a disposition with its detail, bytes 9 to 11 in one write (R177). -/
def Disposed (s t : State) (addr : U64) (d : Disposition) (detail : Nat) : Prop :=
  Issued s t (.write (addr + 9) (leBytes 1 d.code ++ leBytes 2 detail))

/-- An order record got a final disposition: its write, the completion count grown or at its end, ORDER_FINAL (R169). -/
def Finished (s t : State) (addr : U64) (d : Disposition) (detail : Nat) : Prop :=
  Disposed s t addr d detail ∧ Raised t .orderFinal ∧ (satInc s.order.completions).toNat ≤ t.order.completions.toNat

/-- Nothing waits to be done after a command: no deadline is due, no page in use has all its destinations final, and the verify
engine is busy or has nothing to take up (R7, R18, R95). -/
structure State.Settled (s : State) : Prop where
  deadlines : headDue s = false
  pages : ∀ p ∈ Table.keys s.pages, ∀ e, s.page? p = some e → pageEnded s e = false
  verify : s.verify.busy ≠ none ∨ s.verify.queue = []

/-- The catalog has nothing to do for a line: its slot is IDLE and the changeover check would load nothing (R48, R54). -/
structure State.LineCalm (s : State) (n : LineId) : Prop where
  slot : (s.line n).slot = none
  choice : changeoverChoice s n = none

/-! ### What orders carry, in the ranges of their checks -/

/-- A page key in range (R1). -/
structure KeyInRange (k : PageKey) : Prop where
  zone : k.zone.toNat ≤ 15
  section_ : k.section_.toNat ≤ 15
  page : 1 ≤ k.page.toNat ∧ k.page.toNat ≤ 999

/-- An extent that lies in host memory (R4, R50). -/
structure ExtentInRange (e : Extent) : Prop where
  addr : e.addr ≠ 0
  len : 1 ≤ e.len.toNat
  top : e.addr.toNat + e.len.toNat ≤ 2 ^ 64

/-- The first check of CONSIGN (R4). -/
structure ConsignInRange (b : ConsignBody) : Prop where
  key : KeyInRange b.key
  version : 1 ≤ b.version.toNat
  policy : b.policy.toNat ≤ 2
  size : 1 ≤ b.size.toNat ∧ b.size.toNat ≤ 268435456
  extents : 1 ≤ b.extents.length ∧ b.extents.length ≤ 16 ∧ b.extents.length = b.extentCount.toNat
  dests : 1 ≤ b.dests.length ∧ b.dests.length ≤ 64 ∧ b.dests.length = b.destCount.toNat
  extent : ∀ e ∈ b.extents, ExtentInRange e
  sum : (b.extents.map fun e => e.len.toNat).sum = b.size.toNat
  lines : ∀ d ∈ b.dests, d.line.toNat ≤ 63
  distinct : (b.dests.map fun d => d.line).Nodup

/-- One target entry in range (R50). -/
structure TargetInRange (t : TargetEntry) : Prop where
  line : t.line.toNat ≤ 63
  size : 1 ≤ t.size.toNat ∧ t.size.toNat ≤ 4194304
  extents : 1 ≤ t.extents.length ∧ t.extents.length ≤ 4 ∧ t.extents.length = t.extentCount.toNat
  extent : ∀ e ∈ t.extents, ExtentInRange e
  sum : (t.extents.map fun e => e.len.toNat).sum = t.size.toNat

/-- The first check of ISSUE TARGET (R50). -/
structure IssueInRange (b : IssueTargetBody) : Prop where
  generation : 1 ≤ b.generation.toNat
  count : 1 ≤ b.entries.length ∧ b.entries.length ≤ 64 ∧ b.entries.length = b.entryCount.toNat
  entries : ∀ t ∈ b.entries, TargetInRange t
  distinct : (b.entries.map fun t => t.line).Nodup

/-- The second check of SET PRESS LINE (R125). -/
structure LineInRange (b : SetLineBody) : Prop where
  primary : 1 ≤ b.primary.toNat ∧ b.primary.toNat ≤ 30
  secondary : b.secondary.toNat ≤ 3
  link : b.link.toNat ≤ 3
  count : b.hopCount.toNat ≤ 7 ∧ b.hops.length = b.hopCount.toNat
  hop : ∀ h ∈ b.hops, 1 ≤ h.toNat ∧ h.toNat ≤ 254
  rollBit : b.rollBit.toNat ≤ 63
  sense : b.sense.toNat ≤ 1
  alternate : ∀ a, b.alternate = some a → a.toNat ≤ 63 ∧ a ≠ b.line

/-- The configuration that a SET PRESS LINE order gives a line, as clamped (R125). -/
structure Configured (c : LineConfig) (b : SetLineBody) : Prop where
  primary : c.primary = b.primary
  secondary : c.secondary = b.secondary
  link : c.link.val = b.link.toNat
  path : c.path = b.hops
  rollBit : c.rollBit.val = b.rollBit.toNat
  sense : c.sense = true ↔ b.sense = 1
  warnLead : c.warnLead = min b.warnLead.toNat 3600000
  alternate : c.alternate.map (fun a => a.val) = b.alternate.map (fun a => a.toNat)
  extension : c.extension = min b.extension.toNat 3600000

/-- No other enabled line has the link and address pair that an order gives (R125 check 3). -/
def AddressFree (s : State) (n : LineId) (b : SetLineBody) : Prop :=
  ∀ m, m ≠ n → (s.line m).enabled = true →
    ¬ ((s.line m).cfg.link.val = b.link.toNat ∧ (s.line m).cfg.primary = b.primary ∧ (s.line m).cfg.secondary = b.secondary)

/-- The order names another link, address pair or path than the line has (R127). -/
def RouteChanges (c : LineConfig) (b : SetLineBody) : Prop :=
  c.link.val ≠ b.link.toNat ∨ c.primary ≠ b.primary ∨ c.secondary ≠ b.secondary ∨ c.path ≠ b.hops

/-- A transfer of the line is in SENDING, RECEIPT_WAIT or CONFIRM_WAIT (R125 check 4). -/
def LineBusy (s : State) (n : LineId) : Prop :=
  (∃ i r, (i, r) ∈ s.recs ∧ r.line = n ∧ (r.state = .sending ∨ r.state = .receiptWait)) ∨
  ∃ sl, (s.line n).slot = some sl ∧ (sl.state = .sending ∨ sl.state = .confirmWait)

/-! ### Records -/

/-- A record is as its owner says where the scheduler is concerned: it stands in no link queue, unless it is QUEUED, and then in
that of its line's link alone (R69). -/
def InPlace (s : State) (i : Nat) (r : DestRec) : Prop :=
  ∀ l, Xfer.dest i ∈ (s.link l).queue → r.state = .queued ∧ l = s.linkOf r.line

/-- A record stands in no link queue. -/
def Unqueued (s : State) (i : Nat) : Prop := ∀ l, Xfer.dest i ∉ (s.link l).queue

/-- A transfer's record or slot is SENDING. -/
def IsSending (s : State) : Xfer → Prop
  | .dest n => ∃ r, s.rec? n = some r ∧ r.state = .sending
  | .slot n => ∃ sl, (s.line n).slot = some sl ∧ sl.state = .sending

/-- What retraction makes of a record (R36): a final or WITHDRAWING one is left, one whose site holds data is WITHDRAWING with
its retract cause, any other has ended. -/
def Retracted (r r' : DestRec) (x : RetractEnd) (d : Detail) : Prop :=
  if r.state.isFinal = true ∨ r.state = .withdrawing then r'.state = r.state ∧ r'.detail = r.detail ∧ r'.retract = r.retract
  else if r.siteHasData = true then r'.state = .withdrawing ∧ r'.detail = .none ∧ r'.retract = some (x, d)
  else r'.state = x.state ∧ r'.detail = d

/-- What placing makes of a record whose site holds no data, by the table of R25, which is followed against R68 (log entry 58). `s` gives
H and the catalog. -/
def PlacedBy (s : State) (g : U16) (r' : DestRec) : Prop :=
  if g = 0 ∨ (s.line r'.line).held = g then r'.state = .queued ∨ r'.state = .sending
  else
    match (s.line r'.line).entry g with
    | none => r'.state = .stale ∧ r'.detail = .none
    | some e => if e.state = .faulted then r'.state = .failed ∧ r'.detail = .targetSource else r'.state = .targetWait

/-- What placing makes of a record whose site holds data, its page requiring `g`, by the table of R25: QUEUED (and perhaps picked
at once), TARGET_WAIT, or WITHDRAWING with its retract cause. `s` gives H and the catalog. -/
def PlacedWithData (s : State) (g : U16) (r' : DestRec) : Prop :=
  if g = 0 ∨ (s.line r'.line).held = g then r'.state = .queued ∨ r'.state = .sending
  else
    match (s.line r'.line).entry g with
    | none => r'.state = .withdrawing ∧ r'.retract = some (.stale, .none)
    | some e =>
      if e.state = .faulted then r'.state = .withdrawing ∧ r'.retract = some (.failed, .targetSource)
      else r'.state = .targetWait

/-! ### ISSUE TARGET orders -/

/-- An entry of an ISSUE TARGET order that is not final has moved on (R53): the order waits for `done` entries less and has `faults`
faulted ones more; with none left it has its final disposition, and no entry reports to it. Every other order is as before, one at the
same address among them. -/
def OrderProgress (s u : State) (e : CatEntry) (done faults : Nat) : Prop :=
  ∀ ea k o, e.report = some (ea, k) → (s.targetOrders.find? fun t => t.number == k) = some o →
    (∀ t, t.number ≠ k → (t ∈ u.targetOrders ↔ t ∈ s.targetOrders)) ∧
    (done < o.notDone → ⟨k, o.addr, o.notDone - done, o.faulted + faults⟩ ∈ u.targetOrders) ∧
    (o.notDone ≤ done → (∀ t ∈ u.targetOrders, t.number ≠ k) ∧
      Finished s u o.addr (if o.faulted + faults = 0 then .done else .faulted) (o.faulted + faults) ∧
      ∀ m, ∀ c ∈ (u.line m).catalog, ∀ ca, c.report ≠ some (ca, k))

/-! ### Frames -/

/-- A control frame waits for a link or is on its wire. -/
def Offered (t : State) (l : LinkId) (c : CtlFrame) : Prop :=
  c ∈ (t.link l).control ∨ (t.link l).wire = some ⟨ctlFrame t c, .control⟩

/-- A frame of an inbound kind that passes the three checks on an UP link and comes from a line (R147, R148). -/
structure FromLine (s : State) (l : LinkId) (kind : Byte) (f : InFrame) (n : LineId) : Prop where
  up : (s.link l).state = .up
  sound : frameSound kind f = true
  dest : f.dest = 0
  source : sourceLine s l f.src = some n

/-- The host addresses of the bytes that a list of extents holds, first byte first. -/
def extentBytes (es : List Extent) : List U64 :=
  es.flatMap fun e => (List.range e.len.toNat).map fun k => e.addr + BitVec.ofNat 64 k

/-- The host addresses of the bytes that a list of slices reads, first byte first. -/
def sliceBytes (cs : List Slice) : List U64 :=
  cs.flatMap fun c => (List.range c.len).map fun k => c.addr + BitVec.ofNat 64 k

/-- The next DATA frame of a transfer has started onto a link's wire (R28, R59, R79, R80, R122, R142, R144): it begins at the sent offset
and ends at the next multiple of 1,024 or at the size, goes from the station to the line's address pair, carries the tag, CHECKPOINT where
it ends at a multiple of 65,536, LAST where it ends at the size, no other flag, its index or with LAST the CRC-32 as value, and the
payload's bytes; it has taken one credit, and SITE_HAS_DATA is set and for a record that lacked it written. -/
def DataStarts (s t : State) (l : LinkId) (x : Xfer) (i : XferInfo) : Prop :=
  let e := min ((i.sent / 1024 + 1) * 1024) i.size
  (t.link l).credit = (s.link l).credit - 1 ∧
  (∃ f cs, (t.link l).wire = some ⟨f, .data x e (decide (e % 65536 = 0)) (decide (e = i.size)) true⟩ ∧
    f.path = (s.line i.line).cfg.path ∧
    f.dest = addressByte (s.line i.line).cfg.primary (s.line i.line).cfg.secondary ∧ f.src = 0 ∧
    f.kind = 2 ∧ f.tag = BitVec.ofNat 16 x.tag ∧
    (∀ b < 8, f.flags.getLsbD b = (b == 0 && decide (e = i.size) || b == 1 && decide (e % 65536 = 0))) ∧
    f.value = (if e = i.size then i.crc else BitVec.ofNat 32 (i.sent / 1024)) ∧ f.payload = .dma cs ∧
    sliceBytes cs = ((extentBytes i.extents).drop i.sent).take (e - i.sent)) ∧
  (∀ j r, x = .dest j → s.rec? j = some r → ∃ r', t.rec? j = some r' ∧ r'.siteHasData = true ∧ r'.state = r.state ∧
    (r.siteHasData = false → r.origin = none → Issued s t (.write (r.entryAddr + 8) (entryBytes s { r with siteHasData := true })))) ∧
  ∀ n sl, x = .slot n → (s.line n).slot = some sl → ∃ sl', (t.line n).slot = some sl' ∧ sl'.siteHasData = true ∧
    sl'.state = sl.state

/-- The frames received on a link, one more than before (R150). -/
def Link.received (k : Link) : Link :=
  { k with counters := { k.counters with framesReceived := satInc k.counters.framesReceived } }

/-! ### A line that changes its link (R127 step 3) -/

/-- The scheduler's and the catalog's part of a change of link (R67, R89): the line's QUEUED transfers leave the old link's queue for the
new one's in the order of their old sequences and behind those that wait there, with L computed anew; the L of its TARGET_WAIT records
is too; each transfer that joins with its L passed is counted as a predicted late (R72). -/
structure QueuesMoved (s u : State) (n : LineId) (old new : LinkId) : Prop where
  left : ∀ x ∈ (u.link old).queue, xferLine u x ≠ some n
  joined : ∀ x ∈ (s.link old).queue, xferLine s x = some n → x ∈ (u.link new).queue
  order : ∀ x ∈ (s.link old).queue, ∀ y ∈ (s.link old).queue, xferLine s x = some n → xferLine s y = some n →
    (xferKey s x).seq < (xferKey s y).seq → (xferKey u x).seq < (xferKey u y).seq
  behind : ∀ x ∈ (s.link old).queue, ∀ y ∈ (s.link new).queue, xferLine s x = some n →
    (xferKey u y).seq < (xferKey u x).seq
  queued : ∀ i r, s.rec? i = some r → r.line = n → Xfer.dest i ∈ (s.link old).queue →
    ∃ q, u.rec? i = some { r with latestStart := recLatestStart u r, seq := q }
  waiting : ∀ i r, s.rec? i = some r → r.line = n → r.state = .targetWait →
    u.rec? i = some { r with latestStart := recLatestStart u r }
  slot : ∀ sl, (s.line n).slot = some sl → Xfer.slot n ∈ (s.link old).queue → ∃ q, (u.line n).slot = some { sl with
    latestStart := slotLatestStart u n sl.generation, urgent := slotUrgent u n sl.generation, seq := q }
  late : (satAdd s.counters.predictedLates ((s.link old).queue.filter fun x =>
    xferLine s x == some n && decide ((xferKey u x).l < s.clock.value)).length).toNat ≤ u.counters.predictedLates.toNat

/-- The pool's part of a change of link (R31, R32, R33, R37): reply timers pause or resume by the new link's state; where it is UP a
WITHDRAW still owed goes out on it, and a DELIVERED record gets the release check. -/
structure RecordsMoved (s u : State) (n : LineId) (old new : LinkId) : Prop where
  pauses : s.isUp new = false → ∀ i r, s.rec? i = some r → r.line = n → r.state = .releasing ∨ r.state = .withdrawing →
    u.rec? i = some { r with timer := r.timer.pause }
  resumes : s.isUp new = true → ∀ i r, s.rec? i = some r → r.line = n → r.state = .releasing ∨ r.state = .withdrawing →
    r.sendCount ≠ 0 → u.rec? i = some { r with timer := r.timer.resume }
  withdraws : s.isUp new = true → ∀ i r p, s.rec? i = some r → r.line = n → r.state = .withdrawing → r.sendCount = 0 →
    s.page? r.parent = some p → (∀ c ∈ (s.link old).control, isWithdraw i c = false) →
    u.rec? i = some { r with sendCount := 1, timer := .running 2000 } ∧ Offered u new (.withdraw i n p.key p.version)
  releases : s.isUp new = true → ∀ i r p, s.rec? i = some r → r.line = n → r.state = .delivered → s.page? r.parent = some p →
    (∀ c ∈ (s.link old).control, isRelease i c = false) →
    if (p.generation = 0 ∨ (s.line n).held = p.generation) ∧ ∀ x, p.release = some x → x ≤ s.clock.value
    then u.rec? i = some { r with state := .releasing, sendCount := 1, timer := .running 2000 } ∧
      Offered u new (.release i n p.key p.version)
    else u.rec? i = some r
  keeps : ∀ i r, s.rec? i = some r → r.line = n →
    r.state = .verifyWait ∨ r.state.isFinal = true ∨ (r.state = .delivered ∧ s.isUp new = false) → u.rec? i = some r

/-- The control frames of a line that changes its link (R67, R127 step 3, R143): they leave the old link's list. A new link that is UP
takes them behind its own frames, and the target WITHDRAW that the line owed; on one that is not UP the target WITHDRAW is
owed by the line and the others are lost. The line's QUERY has ended with its query. -/
structure FramesMoved (s u : State) (n : LineId) (old new : LinkId) : Prop where
  left : ∀ c ∈ (u.link old).control, CtlFrame.isFor n c = false
  lost : s.isUp new = false → (u.link new).control = []
  owes : s.isUp new = false → ∀ g, CtlFrame.targetWithdraw n g ∈ (s.link old).control → (u.line n).owed = some g
  stays : s.isUp new = false → (∀ g, CtlFrame.targetWithdraw n g ∉ (s.link old).control) → (u.line n).owed = (s.line n).owed
  sends : s.isUp new = true → (u.line n).owed = none ∧ ((∀ g, CtlFrame.targetWithdraw n g ∉ (s.link old).control) →
    ∀ g, (s.line n).owed = some g → Offered u new (.targetWithdraw n g))
  joined : s.isUp new = true → ∀ c ∈ (s.link old).control, CtlFrame.isFor n c = true → c ≠ .query n → Offered u new c
  behind : s.isUp new = true → (s.link new).wire ≠ none → (∀ c ∈ (s.link new).control, CtlFrame.isFor n c = false ∧
      ∀ d ∈ (s.link old).control, CtlFrame.isFor n d = true → c.same d = false) →
    (s.line n).owed = none → (∀ e ∈ s.recs, e.2.line = n → e.2.state ≠ .delivered ∧
      (e.2.state = .withdrawing ∨ e.2.state = .releasing → e.2.sendCount ≠ 0)) →
    (u.link new).control = (s.link new).control ++ .query n ::
      (s.link old).control.filter fun c => CtlFrame.isFor n c && c != .query n

/-- A line that keeps its link (R89): on a new path the L of its QUEUED and TARGET_WAIT records is computed anew and they move within
their queue, keeping their sequences; on the same path no record and no queue changes. Only a transfer that joins a queue where the
counter of sequences has come to its end renumbers them (R75), so `latest` asks that there is room or no changeover to make. -/
structure PathChanged (s u : State) (n : LineId) (newPath : Prop) : Prop where
  latest : newPath → s.seqNext < 4294967295 ∨ changeoverChoice s n = none → ∀ i r, s.rec? i = some r → r.line = n →
    u.rec? i = some (if r.state = .queued ∨ r.state = .targetWait then { r with latestStart := recLatestStart u r } else r)
  stays : newPath → ∀ x ∈ (s.link (s.linkOf n)).queue, xferLine s x = some n → x ∈ (u.link (s.linkOf n)).queue
  order : newPath → (u.link (s.linkOf n)).queue.Pairwise fun x y => (xferKey u x).before (xferKey u y) = true
  same : ¬ newPath → u.recs = s.recs ∧ ∀ l, (u.link l).queue = (s.link l).queue

/-! ### Outcomes of the walk and of a refusal -/

/-- A chain fault (R167): CHAIN_FAULT with its code, CHAIN raised, the summary written; the cursor and RUN stand. -/
def ChainFaulted (s t : State) (code : FaultCode) : Prop :=
  t.order.part = .chainFault ∧ t.order.faultCode = code ∧ t.order.walk = .idle ∧ t.order.cursor = s.order.cursor ∧
  t.order.run = s.order.run ∧ t.order.walkStarted = s.order.walkStarted ∧ t.order.chainLimit = s.order.chainLimit ∧
  Raised t .chain ∧ (s.order.deskBase ≠ 0 → Issued s t (.write (s.order.deskBase + 0x010) (summaryBytes t)))

/-- A command is refused as an order: REFUSED with its detail, the record is the one taken last, and no other block changes
(R168). -/
def Refused (c : Instr) (s : State) (addr : U64) (d : RefusalDetail) : Prop :=
  Runs c s fun t => Finished s t addr .refused d.code ∧ t.order.cursor = addr ∧ t.order.walkStarted = true ∧
    t = { s with order := t.order, bus := t.bus }

end Sys2Proof.Machine
end

