-- ==== Sys2Proof/Certificates/Slice0/Obligations.lean ====
section
/-! DEFINITION. The statements for the provers. Each names the rules it rests on in OBLIGATIONS.json. 'Runs c s P' says that the
command c completes on s with a next state of which P holds; 'Issued s t w' that the write w went out between s and t. -/

section Statements

open Sys2Proof Sys2Proof.Machine

/-! ### The part as a machine of commands -/

/-- The command at the front of the queue runs on the state with the queue's rest. -/
def Obligations.FrontCommandRuns : Prop :=
  ∀ (c : Instr) (cs : List Instr) (s : State), s.pending = c :: cs → step s = exec c { s with pending := cs }

/-- The model's choice (log entry 4): with no command waiting the part idles. -/
def Obligations.EmptyQueueIdles : Prop :=
  ∀ s : State, s.pending = [] → step s = .next s

/-- What reset leaves: the values that R1, R6, R7, R21, R46, R47, R53, R69, R92, R109, R110, R121, R136, R152, R172 and R173 state. -/
def Obligations.ResetValues : Prop :=
  let s := State.reset
  (s.order.part = .unset ∧ s.order.run = false ∧ s.order.mask = 0 ∧ s.order.attention = 0 ∧ s.order.deskBase = 0 ∧
    s.order.chainLimit = 0 ∧ s.order.cursor = 0 ∧ s.order.deskHi = 0 ∧ s.order.limitHi = 0 ∧ s.order.capture = none ∧
    s.order.walkStarted = false ∧ s.order.faultCode = .none ∧ s.order.completions = 0 ∧ s.order.walk = .idle ∧
    s.order.held = none) ∧
  (s.counters = ⟨0, 0, 0, 0, 0⟩) ∧
  (s.clock.value = 0 ∧ s.clock.source = .internal ∧ s.clock.sync = .free ∧ s.clock.clockUnset = true ∧
    s.clock.clockEnd = false ∧ s.clock.hold = none ∧ s.clock.loss = none ∧ s.clock.elapsed = 0) ∧
  (s.pages = [] ∧ s.verify = ⟨[], none⟩ ∧ s.recs = [] ∧ s.free = List.range 1024 ∧ s.deadlines = [] ∧
    s.targetOrders = [] ∧ s.seqNext = 0) ∧
  (∀ n, (s.line n).enabled = false ∧ (s.line n).state = .unconfigured ∧ (s.line n).held = 0 ∧ (s.line n).catalog = [] ∧
    (s.line n).slot = none ∧ (s.line n).owed = none ∧ (s.line n).query = none ∧ (s.line n).requery = none ∧
    (s.line n).statusByte = 0 ∧ (s.line n).timeouts = 0 ∧ (s.line n).changeCount = 0) ∧
  (∀ l, (s.link l).state = .disabled ∧ (s.link l).rate = 64 ∧ (s.link l).guardMs = 0 ∧ (s.link l).silenceLimit = 3000 ∧
    (s.link l).credit = 0 ∧ (s.link l).markCount = 0 ∧ (s.link l).silence = none ∧ (s.link l).retry = none ∧
    (s.link l).control = [] ∧ (s.link l).wire = none ∧ (s.link l).queue = [] ∧ (s.link l).sending = none ∧
    (s.link l).windowTimer = none ∧ (s.link l).roll = none ∧ (s.link l).counters = ⟨0, 0, 0, 0, 0, 0, 0, 0, 0⟩)

/-- The three resets, and a CONTROL write with RESET set, leave every block as reset leaves it and write nothing (R163, R173).
That the commands that wait (t.pending = s.pending) and the writes already issued (t.bus = s.bus) outlast a reset is the model's choice
(log entry 22). -/
def Obligations.ResetsClearThePart : Prop :=
  ∀ (s : State) (w : U32), w.getLsbD 1 = true →
    ∀ c ∈ [Instr.powerOnReset, .pcieFundamentalReset, .controlReset w, .registerWrite 0x004 .word w],
      Runs c s fun t =>
        t.order = State.reset.order ∧ t.counters = State.reset.counters ∧ t.clock = State.reset.clock ∧ t.pages = [] ∧
        t.verify = State.reset.verify ∧ t.recs = [] ∧ t.free = State.reset.free ∧ t.deadlines = [] ∧
        (∀ n, t.line n = State.reset.line n) ∧ (∀ l, t.link l = State.reset.link l) ∧ t.targetOrders = [] ∧
        t.seqNext = 0 ∧ t.bus = s.bus ∧ t.pending = s.pending

/-! ### Invariants and rules of the whole machine -/

/-- The state after reset is sound. -/
def Obligations.ResetIsSound : Prop := State.reset.Sound

/-- Every step keeps the press clock sound (R109, R111, R116, R118). -/
def Obligations.ClockStaysSound : Prop :=
  ∀ s t : State, s.clock.Sound → step s = .next t → t.clock.Sound

/-- Every step keeps the order unit sound (R164, R167). -/
def Obligations.OrderUnitStaysSound : Prop :=
  ∀ s t : State, s.order.Sound → step s = .next t → t.order.Sound

/-- Every step keeps the four links sound (R136 to R143). -/
def Obligations.LinksStaySound : Prop :=
  ∀ s t : State, (∀ l, (s.link l).Sound) → step s = .next t → ∀ l, (t.link l).Sound

/-- Every step keeps the enabled lines in range and their addresses apart (R121, R122). -/
def Obligations.LinesStaySound : Prop :=
  ∀ s t : State, s.LinesSound → step s = .next t → t.LinesSound

/-- Every step keeps the tables in order and the deadline list sorted by due time, and leaves no entry that is due (R1, R92, R95); in
such a state it keeps the link queues in order, with each transfer in one place and a sequence of its own (R69, R74, R75). -/
def Obligations.TablesStaySound : Prop :=
  ∀ s t : State, s.TablesSound → step s = .next t → t.TablesSound ∧ (s.QueuesSound → t.QueuesSound)

/-- While a page entry is in use, no step changes what its CONSIGN gave it, and its destination list only grows (R1). -/
def Obligations.PageEntryFixed : Prop :=
  ∀ (s t : State) (n : Nat) (p p' : Page), step s = .next t → s.page? n = some p → t.page? n = some p' →
    p'.key = p.key ∧ p'.version = p.version ∧ p'.generation = p.generation ∧ p'.deadline = p.deadline ∧
    p'.release = p.release ∧ p'.policy = p.policy ∧ p'.statedCrc = p.statedCrc ∧ p'.size = p.size ∧
    p'.extents = p.extents ∧ p'.orderAddr = p.orderAddr ∧ p.dests <+: p'.dests

/-- Every step sends exactly one MSI when the masked causes go from none to some, and none otherwise (R171). -/
def Obligations.MsiOnFirstMaskedCause : Prop :=
  ∀ s t : State, step s = .next t →
    t.bus.count .msi = s.bus.count .msi +
      if s.order.attention &&& s.order.mask = 0 ∧ t.order.attention &&& t.order.mask ≠ 0 then 1 else 0

/-- A command leaves the commands that wait alone, and only adds writes to those already issued (R170). That
exec leaves the queue alone (t.pending = s.pending) is the model's form (log entry 32), and that a reset too keeps the queue and the
writes already issued is the model's choice (log entry 22). -/
def Obligations.WritesOnlyAdded : Prop :=
  ∀ (c : Instr) (s t : State), exec c s = .next t → t.pending = s.pending ∧ ∃ w, t.bus = w ++ s.bus

/-- Only the clock's own events, SET CLOCK, a walked record and a reset change the press clock, and of these the events never
lower its value (R109). -/
def Obligations.PressClockFrame : Prop :=
  ∀ (c : Instr) (s t : State), exec c s = .next t → group c ≠ .reset → group c ≠ .setClock → group c ≠ .walk →
    s.clock.value ≤ t.clock.value ∧ (group c ≠ .clock → t.clock = s.clock)

/-- Events and orders leave the registers, the walk and the part state alone; they only add causes and completions (R162, R164). An
event that is no order leaves the cursor, the walk-started mark and the held take too, but that the window or query the take
waits for may end (R164, R166, R168). -/
def Obligations.OrderUnitFrame : Prop :=
  ∀ (c : Instr) (s t : State), exec c s = .next t → group c ≠ .reset → group c ≠ .register → group c ≠ .walk →
    t.order.part = s.order.part ∧ t.order.run = s.order.run ∧ t.order.mask = s.order.mask ∧
    t.order.deskBase = s.order.deskBase ∧ t.order.deskHi = s.order.deskHi ∧ t.order.chainLimit = s.order.chainLimit ∧
    t.order.limitHi = s.order.limitHi ∧ t.order.capture = s.order.capture ∧ t.order.faultCode = s.order.faultCode ∧
    t.order.walk = s.order.walk ∧ t.order.stopping = s.order.stopping ∧ t.readData = s.readData ∧
    s.order.attention &&& t.order.attention = s.order.attention ∧
    s.order.completions.toNat ≤ t.order.completions.toNat ∧
    (group c = .event ∨ group c = .linkEvent ∨ group c = .credit ∨ group c = .clock →
      t.order.cursor = s.order.cursor ∧ t.order.walkStarted = s.order.walkStarted ∧ (s.order.held = none → t.order.held = none) ∧
      ∀ h, s.order.held = some h → t.order.held = some h ∨ t.order.held = some { h with ended := true })

/-- Only SET PRESS LINE sets a line up, only SET LINK a link, and only those, the link's own events and CREDIT move a link's state. -/
def Obligations.LineAndLinkFrame : Prop :=
  ∀ (c : Instr) (s t : State), exec c s = .next t → group c ≠ .reset → group c ≠ .walk →
    (group c ≠ .setLine → ∀ n, (t.line n).enabled = (s.line n).enabled ∧ (t.line n).cfg = (s.line n).cfg) ∧
    (group c ≠ .setLink → ∀ l, (t.link l).rate = (s.link l).rate ∧ (t.link l).guardMs = (s.link l).guardMs ∧
      (t.link l).silenceLimit = (s.link l).silenceLimit) ∧
    (group c ≠ .setLink → group c ≠ .linkEvent → group c ≠ .credit → ∀ l, (t.link l).state = (s.link l).state) ∧
    (group c ≠ .clock → group c ≠ .setClock → ∀ l, (t.link l).markCount = (s.link l).markCount)

/-- A register access changes the order unit, the value read and the writes issued, and no other block (R162, R173). -/
def Obligations.RegisterFrame : Prop :=
  ∀ (c : Instr) (s t : State), exec c s = .next t → group c = .register →
    t.counters = s.counters ∧ t.clock = s.clock ∧ t.pages = s.pages ∧ t.verify = s.verify ∧ t.recs = s.recs ∧
    t.free = s.free ∧ t.deadlines = s.deadlines ∧ t.lines = s.lines ∧ t.targetOrders = s.targetOrders ∧
    t.links = s.links ∧ t.seqNext = s.seqNext

/-! ### Registers and the walk -/

/-- A CONTROL write with RESET clear, by each command that makes one (R163, R164, R174). RUN 1 starts the walk from READY or
CHAIN_FAULT; RUN 0 makes the part READY at once, or once the read in flight has returned or the held take has ended. That RUN 1
leaves a waiting stop waiting (log entry 17), and that CONTROL_RESET with RESET clear and ATTENTION_MASK_WRITE are whole CONTROL
writes (log entry 20), are the model's choices. -/
def Obligations.RunWritten : Prop :=
  ∀ (s : State) (w : U32), w.getLsbD 1 = false →
    ∀ c ∈ [if w.getLsbD 0 = true then Instr.runSet (controlMask w) else .runClear (controlMask w),
        .attentionMaskWrite (w.getLsbD 0) (controlMask w), .controlReset w, .registerWrite 0x004 .word w],
      Runs c s fun t =>
        (∀ n < 9, t.order.mask.getLsbD n = w.getLsbD (16 + n)) ∧
        (s.order.part = .unset → t.order.part = .unset ∧ t.order.run = false) ∧
        (w.getLsbD 0 = true → s.order.part ≠ .unset → t.order.part = .running ∧ t.order.run = true ∧
          t.order.stopping = s.order.stopping) ∧
        (w.getLsbD 0 = false → s.order.part ≠ .unset → t.order.run = false ∧
          if s.order.part = .running ∧ (s.order.walk ≠ .idle ∨ s.order.held ≠ none)
          then t.order.part = .running ∧ t.order.stopping = true
          else t.order.part = .ready ∧ t.order.stopping = s.order.stopping) ∧
        t.order.cursor = (if w.getLsbD 0 = true ∧ s.order.part = .ready ∧ s.order.walkStarted = false
          then s.order.deskBase else s.order.cursor) ∧
        t.order.faultCode = (if s.order.part = .chainFault then .none else s.order.faultCode) ∧
        t.order.walk = s.order.walk ∧ t.order.held = s.order.held ∧ t.order.walkStarted = s.order.walkStarted ∧
        t.order.chainLimit = s.order.chainLimit ∧ t.order.attention = s.order.attention ∧
        (t.order.part ≠ s.order.part → s.order.deskBase ≠ 0 →
          Issued s t (.write (s.order.deskBase + 0x010) (summaryBytes t)))

/-- A read of ATTENTION clears what it returned, and changes nothing else (R171). A read of CHAIN_CURSOR LO, then HI, gives one
value, whatever event or walk step comes between; without a capture HI reads the present cursor (R162). What a read of the other
registers returns (R162, R163, R174) is stated of readRegister: the command table has no row for one (log entry 29). -/
def Obligations.RegistersRead : Prop :=
  ∀ s : State,
    (Runs .attentionRead s fun t => t.readData = s.order.attention.setWidth 32 ∧ (∀ c, ¬ Raised t c) ∧
      t = { s with readData := t.readData, order := { s.order with attention := 0 } }) ∧
    (∃ t, exec (.chainCursorRead .lo) s = .next t ∧ t.readData = s.order.cursor.setWidth 32 ∧
      t.order = { s.order with capture := some s.order.cursor } ∧
      ∀ c u, group c ≠ .reset → group c ≠ .register → exec c t = .next u →
        Runs (.chainCursorRead .hi) u fun v => (v.readData ++ t.readData : BitVec 64) = s.order.cursor ∧ v.order.capture = none) ∧
    (s.order.capture = none → Runs (.chainCursorRead .hi) s fun t =>
      t.readData = (s.order.cursor >>> 32).setWidth 32 ∧ t.order = s.order) ∧
    (∀ (o : BitVec 12) (w : AccessWidth), w ≠ .word ∨ o.toNat % 4 ≠ 0 → readRegister o w s = { s with readData := 0 }) ∧
    let value (o : BitVec 12) : U32 := (readRegister o .word s).readData
    (∀ o : BitVec 12, o.toNat % 4 = 0 → o ∉ [0x00C#12, 0x020#12, 0x024#12] →
      readRegister o .word s = { s with readData := value o }) ∧
    value 0x000 = 0x06400101 ∧ value 0x008 = BitVec.ofNat 32 s.order.part.code ∧
    (value 0x004).getLsbD 0 = s.order.run ∧ (∀ n < 9, (value 0x004).getLsbD (16 + n) = s.order.mask.getLsbD n) ∧
    (∀ n, 1 ≤ n → n < 16 ∨ 25 ≤ n → (value 0x004).getLsbD n = false) ∧
    (value 0x014 ++ value 0x010 : BitVec 64) = s.order.deskBase ∧ (value 0x01C ++ value 0x018 : BitVec 64) = s.order.chainLimit ∧
    ∀ o : BitVec 12, o.toNat % 4 = 0 → 0x028 ≤ o.toNat → value o = 0

/-- A write of DESK_BASE_LO (R164, R165): ignored while RUNNING or CHAIN_FAULT, else the base takes effect and the whole desk is
written to it. That exactly these 70 writes go out, with one summary among them where UNSET becomes READY too, is DEDUCED (log entry
50). -/
def Obligations.DeskBaseWritten : Prop :=
  ∀ (s : State) (lo : U32), ∀ c ∈ [Instr.deskBaseWrite lo, .registerWrite 0x010 .word lo],
    (s.order.part = .running ∨ s.order.part = .chainFault → exec c s = .next s) ∧
    (s.order.part = .unset ∨ s.order.part = .ready → Runs c s fun t =>
      t.order.deskBase = ((s.order.deskHi ++ lo : BitVec 64) &&& 0xFFFFFFFFFFFFF000#64) ∧ t.order.walkStarted = false ∧
      (t.order.deskBase = 0 → t.order.part = .unset ∧ t.bus = s.bus) ∧
      (t.order.deskBase ≠ 0 → t.order.part = .ready ∧ t.bus.length = s.bus.length + 70 ∧
        Issued s t (.write (t.order.deskBase + 0x010) (summaryBytes t)) ∧
        (∀ l : LinkId, Issued s t (.write (t.order.deskBase + BitVec.ofNat 64 (0x100 + 64 * l.val)) (linkMirrorBytes (s.link l)))) ∧
        (∀ n : LineId, Issued s t (.write (t.order.deskBase + BitVec.ofNat 64 (0x200 + 32 * n.val)) (lineMirrorBytes (s.line n)))) ∧
        Issued s t (.write (t.order.deskBase + 0xA00) (countersBytes s.counters))))

/-- A write of CHAIN_LIMIT_LO sets the limit and retries a chain fault (R166, R167); a HI half is held, that of DESK_BASE in every
part state (the model's inference, log entry 31); any other write at an offset without a writable register, or of another width,
is ignored (R162, R174). -/
def Obligations.OtherRegistersWritten : Prop :=
  ∀ (s : State) (v : U32),
    (∀ c ∈ [Instr.chainLimitWrite v, .registerWrite 0x018 .word v], Runs c s fun t =>
      t.order.chainLimit = (s.order.limitHi ++ v : BitVec 64) ∧ t.order.cursor = s.order.cursor ∧
      t.order.run = s.order.run ∧ t.order.walk = s.order.walk ∧
      (s.order.part ≠ .chainFault → t.order.part = s.order.part ∧ t.order.faultCode = s.order.faultCode ∧ t.bus = s.bus) ∧
      (s.order.part = .chainFault → t.order.part = .running ∧ t.order.faultCode = .none ∧
        (s.order.deskBase ≠ 0 → Issued s t (.write (s.order.deskBase + 0x010) (summaryBytes t))))) ∧
    exec (.registerWrite 0x014 .word v) s = .next { s with order := { s.order with deskHi := v } } ∧
    exec (.registerWrite 0x01C .word v) s = .next { s with order := { s.order with limitHi := v } } ∧
    ∀ (o : BitVec 12) (w : AccessWidth), w ≠ .word ∨ o ∉ [0x004#12, 0x010#12, 0x014#12, 0x018#12, 0x01C#12] →
      exec (.registerWrite o w v) s = .next s

/-- The walk reads the next field while RUNNING short of the limit, and judges what it reads (R166, R167). That the read is a
command of its own, and its return another, is the model's choice (log entry 2). -/
def Obligations.WalkReadsNext : Prop :=
  ∀ s : State,
    let going := s.order.part = .running ∧ s.order.chainLimit ≠ 0 ∧ s.order.cursor ≠ s.order.chainLimit ∧
      s.order.held = none ∧ s.order.walk = .idle ∧ s.order.stopping = false
    (going → exec .walkStep s = .next { s with order := { s.order with walk := .nextField } }) ∧
    (¬ going → exec .walkStep s = .next s) ∧
    ∀ bs : List Byte, 8 ≤ bs.length → s.order.walk = .nextField → s.order.stopping = false →
      (leNat (bs.take 8) = 0 → Runs (.walkReadReturn (.data bs)) s fun t => ChainFaulted s t .nullNext) ∧
      (leNat (bs.take 8) % 16 ≠ 0 → Runs (.walkReadReturn (.data bs)) s fun t => ChainFaulted s t .misaligned) ∧
      (leNat (bs.take 8) ≠ 0 → leNat (bs.take 8) % 16 = 0 → exec (.walkReadReturn (.data bs)) s =
        .next { s with order := { s.order with walk := .record (BitVec.ofNat 64 (leNat (bs.take 8))) } })

/-- A record read whole is taken as its kind says when its disposition reads NEW, and is a stale record otherwise (R166, R168).
That the order's take is the order's own command is the model's choice (log entry 1). -/
def Obligations.WalkTakesRecord : Prop :=
  ∀ (s : State) (a : U64) (bs : List Byte), s.order.walk = .record a → s.order.stopping = false → 16 ≤ bs.length →
    (fieldNat bs 9 1 ≠ 0 → Runs (.walkReadReturn (.data bs)) s fun t => ChainFaulted s t .staleRecord) ∧
    (fieldNat bs 9 1 = 0 → recordLength bs ≤ bs.length →
      exec (.walkReadReturn (.data bs)) s =
        exec (orderCommand a (readOrder bs)) { s with order := { s.order with walk := .idle } })

/-- A read that returns an error is a chain fault (R166, R167); one that returns after RUN was cleared is discarded, and the part
is READY (R164). Without a read in flight nothing happens, and a return short of the read is refused (log entry 2). -/
def Obligations.WalkReadEnds : Prop :=
  ∀ s : State,
    (s.order.walk = .idle → ∀ x, exec (.walkReadReturn x) s = .next s) ∧
    (s.order.walk ≠ .idle → s.order.stopping = false → Runs (.walkReadReturn .error) s fun t => ChainFaulted s t .readError) ∧
    (s.order.walk ≠ .idle → s.order.stopping = true → s.order.held = none → ∀ x, Runs (.walkReadReturn x) s fun t =>
      t.order.part = .ready ∧ t.order.stopping = false ∧ t.order.walk = .idle ∧ t.order.cursor = s.order.cursor ∧
      t.order.attention = s.order.attention ∧ t = { s with order := t.order, bus := t.bus } ∧
      (s.order.deskBase ≠ 0 → Issued s t (.write (s.order.deskBase + 0x010) (summaryBytes t)))) ∧
    (s.order.stopping = false → ∀ bs, bs.length < s.order.walk.needs bs →
      exec (.walkReadReturn (.data bs)) s = .refused (.shortRead bs.length (s.order.walk.needs bs)))

/-- A ROLL CALL whose window holds 8 orders, or a QUERY LINE whose query holds 4, is held with nothing written and the cursor
unmoved; once the window or query has ended it is taken afresh (R153, R161, R168), and a stop that waited for it ends (R164). -/
def Obligations.HeldTakes : Prop :=
  ∀ s : State,
    (∀ (a : U64) (b : Byte) (l : LinkId) (w : RollWindow), b.toNat = l.val → s.order.held = none → (s.link l).state = .up →
      (s.link l).roll = some w → 8 ≤ w.pending.length →
      exec (.rollCall a b) s = .next { s with order := { s.order with held := some ⟨a, .rollCall l, false⟩ } }) ∧
    (∀ (a : U64) (b : Byte) (n : LineId) (q : Query), b.toNat = n.val → s.order.held = none →
      (s.line n).state ≠ .unconfigured → (s.line n).state ≠ .unreachable → (s.line n).query = some q → 4 ≤ q.pending.length →
      exec (.queryLine a b) s = .next { s with order := { s.order with held := some ⟨a, .queryLine n, false⟩ } }) ∧
    ((∀ h, s.order.held = some h → h.ended = false) → exec .heldTakeResume s = .next s) ∧
    (∀ a l, s.order.held = some ⟨a, .rollCall l, true⟩ → s.order.stopping = false →
      exec .heldTakeResume s =
        exec (.rollCall a (BitVec.ofNat 8 l.val)) { s with order := { s.order with held := none } } ∧
      ((s.link l).state = .up → (s.link l).roll = none → Runs .heldTakeResume s fun t =>
        (t.link l).roll = some ⟨250, 0, 0, [a]⟩ ∧ t.order.held = none ∧ t.order.cursor = a ∧ Disposed s t a .taken 0)) ∧
    (∀ a n, s.order.held = some ⟨a, .queryLine n, true⟩ → s.order.stopping = false →
      exec .heldTakeResume s =
        exec (.queryLine a (BitVec.ofNat 8 n.val)) { s with order := { s.order with held := none } }) ∧
    ∀ a o, s.order.held = some ⟨a, o, true⟩ → s.order.stopping = true → s.order.walk = .idle →
      (match o with | .rollCall l => (s.link l).roll = none | .queryLine n => (s.line n).query = none) →
      Runs .heldTakeResume s fun t => t.order.part = .ready ∧ t.order.stopping = false ∧ t.order.held = none ∧
        t.order.cursor = a ∧ (Disposed s t a .taken 0 ∨ ∃ d : RefusalDetail, Finished s t a .refused d.code)

/-! ### Orders of the desk -/

/-- An accepted SET LINK (R138): values clamped, the state by the enable flag, a running silence timer restarted, the order
ADJUSTED or DONE; a link disabled while UP makes its lines UNREACHABLE (R129). The latest starts of the link's transfers are
computed anew and its queue put back into order, sequences and the SENDING slot kept, no predicted late counted (R73). -/
def Obligations.SetLinkTaken : Prop :=
  ∀ (s : State) (a : U64) (b : SetLinkBody) (l : LinkId), b.link.toNat = l.val →
    Runs (.setLink a b) s fun t =>
      (t.link l).rate = max 64 (min b.rate.toNat 250000) ∧ (t.link l).guardMs = min b.guardMs.toNat 600000 ∧
      (t.link l).silenceLimit = max 1000 (min b.silence.toNat 60000) ∧
      (t.link l).state = (if b.enable = false then .disabled
        else if (s.link l).state = .disabled then .connecting else (s.link l).state) ∧
      ((t.link l).state ≠ (s.link l).state → Raised t .linkChanged) ∧
      (b.enable = true → (t.link l).silence = (s.link l).silence.map fun _ => (t.link l).silenceLimit) ∧
      (b.enable = false → (s.link l).state = .up → (t.link l).credit = 0 ∧ (t.link l).silence = none ∧
        ∀ n, (s.line n).enabled = true → (s.line n).cfg.link = l → (t.line n).state = .unreachable) ∧
      Finished s t a (if (t.link l).rate = b.rate.toNat ∧ (t.link l).guardMs = b.guardMs.toNat ∧
        (t.link l).silenceLimit = b.silence.toNat then .done else .adjusted) 0 ∧
      t.order.cursor = a ∧ t.order.walkStarted = true ∧
      (∀ m, m ≠ l → (t.link m).state = (s.link m).state ∧ (t.link m).rate = (s.link m).rate) ∧
      ∃ u, exec (.setLink a b) s = .next (afterTake u) ∧
        (∀ i r, u.rec? i = some r → u.linkOf r.line = l → r.state ∈ [DestState.queued, .sending, .targetWait] →
          r.latestStart = recLatestStart u r) ∧
        (∀ n sl, (u.line n).enabled = true → u.linkOf n = l → (u.line n).slot = some sl →
          sl.latestStart = slotLatestStart u n sl.generation) ∧
        (s.TablesSound → s.QueuesSound → (u.link l).queue.Pairwise fun x y => (xferKey u x).before (xferKey u y) = true) ∧
        (b.enable = true → u.counters = s.counters ∧ (u.link l).sending = (s.link l).sending ∧
          (∀ x, x ∈ (u.link l).queue ↔ x ∈ (s.link l).queue) ∧
          (Table.rising s.recs = true → ∀ i r, s.rec? i = some r → u.rec? i = some
            (if s.linkOf r.line = l ∧ r.state ∈ [DestState.queued, .sending, .targetWait]
              then { r with latestStart := recLatestStart u r } else r)))

/-- An accepted SET PRESS LINE enables an UNCONFIGURED line (R125, R126). -/
def Obligations.SetLineEnables : Prop :=
  ∀ (s : State) (a : U64) (b : SetLineBody) (n : LineId), b.line.toNat = n.val → b.enable = true →
    (s.line n).enabled = false → (s.line n).state = .unconfigured → (s.line n).query = none →
    LineInRange b → AddressFree s n b →
    Runs (.setPressLine a b) s fun t =>
      (t.line n).enabled = true ∧ Configured (t.line n).cfg b ∧
      (t.line n).state = (if s.isUp (t.line n).cfg.link = true then .unknown else .unreachable) ∧
      (t.line n).query = (if s.isUp (t.line n).cfg.link = true then some ⟨500, []⟩ else none) ∧
      (t.line n).changeCount = satInc (s.line n).changeCount ∧ Raised t .lineChanged ∧
      Finished s t a (if b.warnLead.toNat ≤ 3600000 ∧ b.extension.toNat ≤ 3600000 then .done else .adjusted) 0 ∧
      t.order.cursor = a

/-- An accepted SET PRESS LINE reconfigures an enabled line; on a route change its query ends with its orders DONE, ENDED, its
state follows the new link, and on an UP link it is asked afresh (R125, R127, R159). A new link takes over the line's transfers,
reply timers, owed withdrawal and waiting frames (R31, R32, R67, R89, R143); a new path has the latest starts computed anew (R89);
a new warn lead re-times the WARN of each of its records (R106). -/
def Obligations.SetLineReconfigures : Prop :=
  ∀ (s : State) (a : U64) (b : SetLineBody) (n : LineId), b.line.toNat = n.val → b.enable = true →
    (s.line n).enabled = true → LineInRange b → AddressFree s n b →
    (RouteChanges (s.line n).cfg b → ¬ LineBusy s n) →
    Runs (.setPressLine a b) s fun t =>
      (t.line n).enabled = true ∧ Configured (t.line n).cfg b ∧
      (¬ RouteChanges (s.line n).cfg b → (t.line n).state = (s.line n).state ∧ (t.line n).query = (s.line n).query) ∧
      (RouteChanges (s.line n).cfg b →
        (t.line n).state = (if s.isUp (t.line n).cfg.link = true then .unknown else .unreachable) ∧
        (t.line n).query = (if s.isUp (t.line n).cfg.link = true then some ⟨500, []⟩ else none) ∧
        ∀ q, (s.line n).query = some q → ∀ x ∈ q.pending, Disposed s t x .done 2) ∧
      Finished s t a (if b.warnLead.toNat ≤ 3600000 ∧ b.extension.toNat ≤ 3600000 then .done else .adjusted) 0 ∧
      t.order.cursor = a ∧
      ∃ u, exec (.setPressLine a b) s = .next (afterTake u) ∧
        (∀ i r d, s.rec? i = some r → r.line = n → r.state ≠ .delivered → d ∈ s.deadlines → d.dest = i → d.kind = .warn →
          if min b.warnLead.toNat 3600000 = (s.line n).cfg.warnLead then d ∈ u.deadlines
          else u.deadlines.filter (fun e => e.dest == i) = [⟨r.deadline - min b.warnLead.toNat 3600000, i, .warn⟩]) ∧
        let old := (s.line n).cfg.link
        (∀ new : LinkId, new.val = b.link.toNat → new ≠ old → s.TablesSound → s.QueuesSound →
          QueuesMoved s u n old new ∧ RecordsMoved s u n old new ∧
          ((∀ l, (s.link l).Sound) → ((s.link old).control.Pairwise fun c d => c.same d = false) → FramesMoved s u n old new)) ∧
        (old.val = b.link.toNat → s.TablesSound → s.QueuesSound → PathChanged s u n ((s.line n).cfg.path ≠ b.hops))

/-- An accepted SET PRESS LINE disables an enabled line: its live records fail LINE_GONE, its catalog, slot, owed withdrawal and
H are cleared, its query ends, it is UNCONFIGURED (R128, R39, R67). On a line that is not enabled nothing changes but the
order's own disposition, DONE (R125). That the order is accepted whatever its hop count, above 7 too, is the model's choice (R125 against
R166, log entry 54). -/
def Obligations.SetLineDisables : Prop :=
  ∀ (s : State) (a : U64) (b : SetLineBody) (n : LineId), b.line.toNat = n.val → b.enable = false →
    ((s.line n).enabled = false → s.Settled → Runs (.setPressLine a b) s fun t =>
      Finished s t a .done 0 ∧ t.order.cursor = a ∧ t = { s with order := t.order, bus := t.bus }) ∧
    ((s.line n).enabled = true → ∃ u, exec (.setPressLine a b) s = .next (afterTake u) ∧
      (u.line n).enabled = false ∧ (u.line n).state = .unconfigured ∧ (u.line n).statusByte = 0 ∧
      (u.line n).timeouts = 0 ∧ (u.line n).held = 0 ∧ (u.line n).catalog = [] ∧ (u.line n).slot = none ∧
      (u.line n).owed = none ∧ (u.line n).query = none ∧ (u.line n).requery = none ∧
      (∀ i r, u.rec? i = some r → r.line = n → r.state.isFinal = true) ∧
      (∀ i r r', s.rec? i = some r → r.line = n → r.state.isFinal = false → u.rec? i = some r' →
        r'.state = .failed ∧ r'.detail = .lineGone) ∧
      (∀ q, (s.line n).query = some q → ∀ x ∈ q.pending, Disposed s u x .done 2) ∧
      Finished s u a .done 0 ∧ u.order.cursor = a ∧
      ∀ m, m ≠ n → (u.line m).enabled = (s.line m).enabled ∧ (u.line m).state = (s.line m).state)

/-- An accepted SET CLOCK (R112, R119): the clamped value, the source with its sync state, no hold, no loss timer, flags clear, and
a mark on each UP link when the whole second has changed. Set forward it leaves no deadline due; else nothing fires (R107). -/
def Obligations.SetClockTaken : Prop :=
  ∀ (s : State) (a : U64) (b : SetClockBody) (src : ClockSource),
    (b.source = 0 ∧ src = .internal) ∨ (b.source = 1 ∧ src = .station) →
    Runs (.setClock a b) s fun t =>
      t.clock = { s.clock with
        value := min b.value.toNat 4294967294
        source := src
        sync := (match src with | .internal => .free | .station => .acquiring)
        hold := none
        loss := none
        clockUnset := false
        clockEnd := false
        snapshot := if s.clock.value / 1000 = min b.value.toNat 4294967294 / 1000 then s.clock.snapshot
          else min b.value.toNat 4294967294 } ∧
      (∀ l, (t.link l).markCount =
        if (s.link l).state = .up ∧ s.clock.value / 1000 ≠ min b.value.toNat 4294967294 / 1000
        then ((s.link l).markCount + 1) % 64 else (s.link l).markCount) ∧
      Finished s t a (if b.value.toNat = 4294967295 then .adjusted else .done) 0 ∧ t.order.cursor = a ∧
      (s.clock.value < t.clock.value → sortedDue s.deadlines → t.NoneDue) ∧
      (t.clock.value ≤ s.clock.value → t.deadlines = s.deadlines ∧ t.recs = s.recs)

/-- An accepted CONSIGN of a key that no entry owns (R3, R4, R5): the lowest free page entry, a record for each destination from
the head of the free list, each with its WARN and its entry written, the verify queue's tail, TAKEN last. -/
def Obligations.ConsignAccepted : Prop :=
  ∀ (s : State) (a : U64) (b : ConsignBody) (n : Nat), ConsignInRange b →
    (∀ d ∈ b.dests, ∀ m : LineId, d.line.toNat = m.val → (s.line m).enabled = true) →
    (∀ e ∈ s.pages, e.2.key = b.key → e.2.state = .retiring) →
    s.page? n = none → n < 128 → (∀ m < n, s.page? m ≠ none) → b.dests.length ≤ s.free.length →
    ∃ u, exec (.consign a b) s = .next (afterTake u) ∧
      (∃ p, u.page? n = some p ∧ p.key = b.key ∧ p.version = b.version ∧ p.generation = b.generation ∧
        p.deadline = b.deadline.toNat ∧ p.release = b.release.map (fun x => x.toNat) ∧ p.policy = policyOf b.policy ∧
        p.statedCrc = b.statedCrc ∧ p.computedCrc = none ∧ p.size = b.size.toNat ∧ p.extents = b.extents ∧
        p.dests = s.free.take b.dests.length ∧ p.orderAddr = a ∧ p.state = .verifyQueued ∧ p.cause = none) ∧
      u.free = s.free.drop b.dests.length ∧ u.verify = { s.verify with queue := s.verify.queue ++ [.page n] } ∧
      (∀ i ∈ s.free.take b.dests.length, ∃ k d r, s.free[k]? = some i ∧ b.dests[k]? = some d ∧ u.rec? i = some r ∧
        r.parent = n ∧ r.line.val = d.line.toNat ∧ r.deadline = (d.override.getD b.deadline).toNat ∧
        r.state = .verifyWait ∧ r.attempts = 0 ∧ r.detail = .none ∧ r.siteHasData = false ∧ r.isFallback = false ∧
        ⟨r.deadline - (s.line r.line).cfg.warnLead, i, .warn⟩ ∈ u.deadlines ∧
        Issued s u (.write (a + BitVec.ofNat 64 (48 + 16 * b.extents.length + 16 * k) + 8) [1, 0, 0, 0, 255, 0, 0, 0])) ∧
      u.bus.head? = some (.write (a + 9) [1, 0, 0]) ∧ u.order = { s.order with cursor := a, walkStarted := true }

/-- A page that owns its key retires when a higher version of it is consigned, or when it is withdrawn (R13, R14, R16, R36). -/
def Obligations.PageRetires : Prop :=
  ∀ (s : State) (a : U64) (m : Nat) (p : Page), s.page? m = some p → keyOwner s p.key = some (m, p) →
    (∀ (b : ConsignBody) (n : Nat), consignCheck s b = .inr n → b.key = p.key →
      ∃ u, exec (.consign a b) s = .next (afterTake u) ∧
        u.page? m = some { p with state := .retiring, cause := some .superseded } ∧
        u.verify.busy ≠ some (.page m) ∧ VerifyItem.page m ∉ u.verify.queue ∧
        (∀ i ∈ p.dests, i ∉ s.free → ∀ r, s.rec? i = some r → InPlace s i r →
          ∃ r', u.rec? i = some r' ∧ Retracted r r' .withdrawn .superseded) ∧
        u.bus.head? = some (.write (a + 9) [1, 0, 0])) ∧
    (∀ b : WithdrawBody, KeyInRange b.key → b.key = p.key → (b.version = 0 ∨ b.version = p.version) →
      ∃ u, exec (.withdraw a b) s = .next (afterTake u) ∧
        u.page? m = some { p with state := .retiring, cause := some .withdrawn } ∧
        u.verify.busy ≠ some (.page m) ∧ VerifyItem.page m ∉ u.verify.queue ∧
        (∀ i ∈ p.dests, ∀ r, s.rec? i = some r → InPlace s i r →
          ∃ r', u.rec? i = some r' ∧ Retracted r r' .withdrawn .byOrder) ∧
        Finished s u a .done 0)

/-- An accepted ISSUE TARGET (R46, R49 to R51, R53): each named line gets a catalog entry behind the newest it had, in
VERIFY_QUEUED and at the verify queue; its target entry is written, then TAKEN. The order is one of its own among those not yet final,
also where an earlier one stands at the same address (the number that tells them apart is the model's, log entry 26), and its entries
report to it. A catalog that holds two drops its older (R63, R65): its entry is written DROPPED if its order is not yet final (the order waits for entries, and no drop at a line named earlier was
an entry of it, which could have ended it), its slot no longer holds it, its claimants go STALE unless the line holds it. -/
def Obligations.IssueTargetTaken : Prop :=
  ∀ (s : State) (a : U64) (b : IssueTargetBody), IssueInRange b →
    (∀ t ∈ b.entries, ∀ n : LineId, t.line.toNat = n.val → (s.line n).enabled = true ∧ (s.line n).catalog.length ≤ 2 ∧
      ((s.line n).catalog.map fun e => e.generation).Nodup ∧
      ∀ e ∈ (s.line n).catalog, e.generation.toNat < b.generation.toNat) →
    let room := ∀ t ∈ b.entries, ∀ n : LineId, t.line.toNat = n.val → (s.line n).catalog.length ≤ 1
    ∃ u number, exec (.issueTarget a b) s = .next (afterTake u) ∧ (∀ o ∈ s.targetOrders, o.number ≠ number) ∧
      (room → u.targetOrders = s.targetOrders ++ [⟨number, a, b.entries.length, 0⟩] ∧ u.order.completions = s.order.completions) ∧
      ⟨number, a, b.entries.length, 0⟩ ∈ u.targetOrders ∧
      (∀ k t (n : LineId), b.entries[k]? = some t → t.line.toNat = n.val →
        ((s.line n).catalog.length ≤ 1 → ((u.line n).catalog.map fun e => e.generation) =
          ((s.line n).catalog.map fun e => e.generation) ++ [b.generation]) ∧
        (∃ e, (room → (u.line n).catalog = (s.line n).catalog ++ [e]) ∧
          (u.line n).catalog.getLast? = some e ∧ e.generation = b.generation ∧ e.size = t.size.toNat ∧
          e.extents = t.extents ∧ e.statedCrc = t.statedCrc ∧ e.computedCrc = none ∧ e.state = .verifyQueued ∧
          e.faultDetail = none ∧ e.push = t.push ∧ e.report = some (a + BitVec.ofNat 64 (32 + 80 * k), number)) ∧
        VerifyItem.target n b.generation ∈ u.verify.queue ∧
        Issued s u (.write (a + BitVec.ofNat 64 (32 + 80 * k) + 12) [1, 0, 0, 0]) ∧
        ∀ old new, (s.line n).catalog = [old, new] →
          ((u.line n).catalog.map fun e => e.generation) = [new.generation, b.generation] ∧
          (∀ ea o, old.report = some (ea, o) → (∃ p ∈ s.targetOrders, p.number = o) →
            (∀ j < k, ∀ t' (m : LineId) old' new' ea', b.entries[j]? = some t' → t'.line.toNat = m.val →
              (s.line m).catalog = [old', new'] → old'.report ≠ some (ea', o)) →
            Issued s u (.write (ea + 12) [5, 0, 0, 0])) ∧
          VerifyItem.target n old.generation ∉ u.verify.queue ∧ u.verify.busy ≠ some (.target n old.generation) ∧
          (∀ sl, (u.line n).slot = some sl → sl.generation ≠ old.generation) ∧ (u.line n).held = (s.line n).held ∧
          ((s.line n).held ≠ old.generation → ∀ i r, s.rec? i = some r → claims s n old.generation r = true → InPlace s i r →
            ∃ r', u.rec? i = some r' ∧ Retracted r r' .stale .none)) ∧
      Issued s u (.write (a + 9) [1, 0, 0]) ∧ u.order.cursor = a

/-- A ROLL CALL or QUERY LINE that opens a window or a query, or joins one with room (R153, R157, R161). That the ROLL frame has an
empty path is the model's choice (log entry 47). -/
def Obligations.PollOrdersTaken : Prop :=
  ∀ (s : State) (a : U64) (b : Byte),
    (∀ l : LinkId, b.toNat = l.val → (s.link l).state = .up →
      ((s.link l).roll = none → Runs (.rollCall a b) s fun t =>
        (t.link l).roll = some ⟨250, 0, 0, [a]⟩ ∧ Disposed s t a .taken 0 ∧ t.order.cursor = a ∧
        ((s.link l).wire = none → (s.link l).control = [] →
          (t.link l).wire = some ⟨⟨[], 0xFF, 0x00, 11, 0, 0, 0, .bytes []⟩, .control⟩)) ∧
      ∀ w, (s.link l).roll = some w → w.pending.length < 8 → Runs (.rollCall a b) s fun t =>
        t.link l = { s.link l with roll := some { w with pending := w.pending ++ [a] } } ∧ Disposed s t a .taken 0 ∧
        t.order.cursor = a) ∧
    (∀ n : LineId, b.toNat = n.val → (s.line n).state ≠ .unconfigured → (s.line n).state ≠ .unreachable →
      ((s.line n).query = none → Runs (.queryLine a b) s fun t =>
        t.line n = { s.line n with query := some ⟨500, [a]⟩, requery := none } ∧ Disposed s t a .taken 0 ∧
        t.order.cursor = a ∧
        ((s.link (s.linkOf n)).state = .up → (s.link (s.linkOf n)).wire = none → (s.link (s.linkOf n)).control = [] →
          ∃ f, (t.link (s.linkOf n)).wire = some ⟨f, .control⟩ ∧ f.kind = 9 ∧ f.tag = 0 ∧ f.path = (s.line n).cfg.path)) ∧
      ∀ q, (s.line n).query = some q → q.pending.length < 4 → Runs (.queryLine a b) s fun t =>
        t.line n = { s.line n with query := some { q with pending := q.pending ++ [a] } } ∧ Disposed s t a .taken 0 ∧
        t.order.cursor = a ∧ t.links = s.links)

/-- The checks of CONSIGN, WITHDRAW and ISSUE TARGET, each in its order, and that a refused order changes no other block (R4,
R16, R50, R168). -/
def Obligations.PageOrdersRefused : Prop :=
  ∀ (s : State) (a : U64), s.Settled →
    (∀ b : ConsignBody,
      let known := ∀ d ∈ b.dests, ∀ n : LineId, d.line.toNat = n.val → (s.line n).enabled = true
      let old := ∃ e, keyOwner s b.key = some e ∧ b.version.toNat ≤ e.2.version.toNat
      (¬ ConsignInRange b → Refused (.consign a b) s a .badField) ∧
      (ConsignInRange b → ¬ known → Refused (.consign a b) s a .lineUnconfigured) ∧
      (ConsignInRange b → known → old → Refused (.consign a b) s a .oldVersion) ∧
      (ConsignInRange b → known → ¬ old → (∀ n < 128, s.page? n ≠ none) → Refused (.consign a b) s a .tableFull) ∧
      (ConsignInRange b → known → ¬ old → (∃ n < 128, s.page? n = none) → s.free.length < b.dests.length →
        Refused (.consign a b) s a .poolFull)) ∧
    (∀ b : WithdrawBody,
      (¬ KeyInRange b.key → Refused (.withdraw a b) s a .badField) ∧
      (KeyInRange b.key → keyOwner s b.key = none → Refused (.withdraw a b) s a .noSuchPage) ∧
      (KeyInRange b.key → ∀ e, keyOwner s b.key = some e → b.version ≠ 0 → b.version ≠ e.2.version →
        Refused (.withdraw a b) s a .noSuchPage)) ∧
    (∀ b : IssueTargetBody,
      let known := ∀ t ∈ b.entries, ∀ n : LineId, t.line.toNat = n.val → (s.line n).enabled = true
      (¬ IssueInRange b → Refused (.issueTarget a b) s a .badField) ∧
      (IssueInRange b → ¬ known → Refused (.issueTarget a b) s a .lineUnconfigured) ∧
      (IssueInRange b → known → (∃ t ∈ b.entries, ∃ n : LineId, t.line.toNat = n.val ∧
          ∃ e, (s.line n).catalog.getLast? = some e ∧ b.generation.toNat ≤ e.generation.toNat) →
        Refused (.issueTarget a b) s a .oldGeneration))

/-- The checks of the other orders, in their orders (R112, R125, R138, R153, R161, R168). That a record of unknown kind at the desk base,
the anchor itself, is refused by a write like any other is the model's choice (R168 against R165 and R175, log entry 53). -/
def Obligations.PlainOrdersRefused : Prop :=
  ∀ (s : State) (a : U64), s.Settled →
    (∀ b : SetLinkBody, 4 ≤ b.link.toNat → Refused (.setLink a b) s a .badField) ∧
    (∀ b : SetLineBody,
      (64 ≤ b.line.toNat → Refused (.setPressLine a b) s a .badField) ∧
      ∀ n : LineId, b.line.toNat = n.val → b.enable = true →
        (¬ LineInRange b → Refused (.setPressLine a b) s a .badField) ∧
        (LineInRange b → ¬ AddressFree s n b → Refused (.setPressLine a b) s a .badField) ∧
        (LineInRange b → AddressFree s n b → (s.line n).enabled = true → RouteChanges (s.line n).cfg b → LineBusy s n →
          Refused (.setPressLine a b) s a .lineBusy)) ∧
    (∀ b : SetClockBody, b.source ≠ 0 → b.source ≠ 1 → Refused (.setClock a b) s a .badField) ∧
    (∀ b : Byte, (4 ≤ b.toNat → Refused (.rollCall a b) s a .badField) ∧
      ∀ l : LinkId, b.toNat = l.val → (s.link l).state ≠ .up → Refused (.rollCall a b) s a .linkNotUp) ∧
    (∀ b : Byte, (64 ≤ b.toNat → Refused (.queryLine a b) s a .badField) ∧
      ∀ n : LineId, b.toNat = n.val → (s.line n).state = .unconfigured ∨ (s.line n).state = .unreachable →
        Refused (.queryLine a b) s a .lineUnusable) ∧
    ∀ k : Byte, Refused (.badKind a k) s a .badKind ∧ Runs (.badKind a k) s fun t => Raised t .chain

/-! ### Verification -/

/-- A good pass of a page (R7, R9, R25): ACTIVE with its computed CRC-32, the pass counted, and each destination in VERIFY_WAIT
placed by its line's held generation and catalog. That the counters area goes out with the other counters as they stood before the
pass, ahead of what the outcome does, is the model's choice (log entry 48), as is that R25 and not R68 says what becomes of a record
whose generation is not in the catalog (log entry 58). -/
def Obligations.GoodPass : Prop :=
  ∀ (s : State) (n : Nat) (p : Page) (bytes : List Byte), s.verify.busy = some (.page n) → s.page? n = some p →
    p.statedCrc = none ∨ p.statedCrc = some (crc32 bytes) →
    ∃ u, exec (.verifyPassEnd bytes) s = .next (startVerify (pageEndCheck n u)) ∧
      u.page? n = some { p with state := .active, computedCrc := some (crc32 bytes) } ∧
      u.verify = ⟨s.verify.queue, none⟩ ∧
      (∀ i ∈ p.dests, ∀ r, s.rec? i = some r → r.state = .verifyWait → r.parent = n → r.siteHasData = false → Unqueued s i →
        ∃ r', u.rec? i = some r' ∧ r'.line = r.line ∧ PlacedBy s p.generation r') ∧
      (s.order.deskBase ≠ 0 → s.counters.verifyPasses.toNat < 4294967295 → Issued s u (.write (s.order.deskBase + 0xA00)
        (countersBytes { s.counters with verifyPasses := s.counters.verifyPasses + 1 })))

/-- A page's payload faults: on a CRC-32 mismatch or a read error in its pass, or on a read error while it is sent (R10, R11, R17).
Then it is RETIRING, FAULTED, FAULT is raised, its live destinations are retracted FAILED. A read error for a RETIRING page only
raises FAULT; that the command names the record whose read failed is the model's choice (log entry 14). -/
def Obligations.PageFaults : Prop :=
  ∀ (s : State) (n : Nat) (p : Page), s.page? n = some p →
    let faulted (u : State) (why : SourceFault) (crc : Option U32) : Prop :=
      u.page? n = some { p with state := .retiring, cause := some (.faulted why), computedCrc := crc } ∧ Raised u .fault ∧
      ∀ i ∈ p.dests, ∀ r, s.rec? i = some r → InPlace s i r →
        ∃ r', u.rec? i = some r' ∧ Retracted r r' .failed (match why with | .mismatch => .sourceMismatch | .read => .sourceRead)
    (∀ bytes x, s.verify.busy = some (.page n) → p.statedCrc = some x → x ≠ crc32 bytes →
      ∃ u, exec (.verifyPassEnd bytes) s = .next (startVerify (pageEndCheck n u)) ∧ u.verify.busy = none ∧
        faulted u .mismatch (some (crc32 bytes))) ∧
    (s.verify.busy = some (.page n) →
      ∃ u, exec .verifyReadError s = .next (startVerify (pageEndCheck n u)) ∧ u.verify.busy = none ∧
        faulted u .read p.computedCrc) ∧
    ∀ (i : Fin 1024) r, s.rec? i.val = some r → r.parent = n →
      (p.state = .active →
        ∃ u, exec (.sendReadError i) s = .next (pageEndCheck n u) ∧ faulted u .read p.computedCrc) ∧
      (p.state = .retiring → Runs (.sendReadError i) s fun t =>
        Raised t .fault ∧ t = { s with order := t.order, bus := t.bus })

/-- A good pass of a catalog entry (R52, R53): READY, its target entry written, its order done where it was the last. The changeover check follows (R54, R55, R57): with the
slot IDLE and no claimant of the held generation, the oldest READY generation that has a claimant is loaded, else the newest
pending push, else nothing; a claimant of the held generation blocks it. -/
def Obligations.CatalogReady : Prop :=
  ∀ (s : State) (n : LineId) (g : U16) (e : CatEntry) (bytes : List Byte), s.verify.busy = some (.target n g) →
    (s.line n).entry g = some e → e.statedCrc = none ∨ e.statedCrc = some (crc32 bytes) →
    ∃ u, exec (.verifyPassEnd bytes) s = .next (startVerify (sweepPages u)) ∧ u.verify = ⟨s.verify.queue, none⟩ ∧
      (∃ e', (u.line n).entry g = some e' ∧ e'.state = .ready ∧ e'.computedCrc = some (crc32 bytes) ∧ e'.push = e.push) ∧
      (∀ ea o, e.report = some (ea, o) → Issued s u (.write (ea + 12) [3, 0, 0, 0])) ∧ OrderProgress s u e 1 0 ∧
      ((s.line n).slot = none → (s.line n).enabled = false → (u.line n).slot = none) ∧
      let wanted (h : U16) := ∃ i r, (i, r) ∈ s.recs ∧ claims s n h r = true
      let ready (d : CatEntry) := d.state = .ready ∧ wanted d.generation
      let push (d : CatEntry) := d.state = .ready ∧ d.push = true ∧ (s.line n).held.toNat < d.generation.toNat
      let loads (h : U16) := ∃ sl, (u.line n).slot = some sl ∧ sl.generation = h ∧ sl.attempts = 0 ∧ sl.acked = 0 ∧
        (sl.state = .queued ∨ sl.state = .sending)
      ((s.line n).slot = none → (s.line n).held ≠ 0 → wanted (s.line n).held → (u.line n).slot = none) ∧
      ((s.line n).slot = none → (s.line n).enabled = true → (s.line n).held = 0 ∨ ¬ wanted (s.line n).held →
        ∀ newer d older, (u.line n).catalog = older ++ d :: newer →
          (ready d → (∀ c ∈ older, ¬ ready c) → loads d.generation) ∧
          (push d → (∀ c ∈ newer, ¬ push c) → (∀ c ∈ (u.line n).catalog, ¬ ready c) → loads d.generation) ∧
          ((∀ c ∈ (u.line n).catalog, ¬ ready c ∧ ¬ push c) → (u.line n).slot = none))

/-- A catalog entry faults: on a mismatch or a read error in its pass, or on a read error while its slot is SENDING (R52, R64): it
is FAULTED, FAULT is raised, its target entry shows it, its order counts it and is final where it was the last to wait for (R53), and its
claimants are retracted FAILED, TARGET_SOURCE. The slot's transfer is aborted (R63): a target WITHDRAW goes out, or is owed on a link that is not UP, where the site may hold data. -/
def Obligations.CatalogFaults : Prop :=
  ∀ (s : State) (n : LineId) (g : U16) (e : CatEntry), (s.line n).entry g = some e →
    let faulted (u : State) (why : SourceFault) (crc : Option U32) : Prop :=
      (∃ e', (u.line n).entry g = some e' ∧ e'.state = .faulted ∧ e'.faultDetail = some why ∧ e'.computedCrc = crc) ∧
      Raised u .fault ∧
      (∀ ea o, e.report = some (ea, o) →
        Issued s u (.write (ea + 12) [4, match why with | .mismatch => 4 | .read => 5, 0, 0])) ∧
      ∀ i r, s.rec? i = some r → claims s n g r = true → InPlace s i r →
        ∃ r', u.rec? i = some r' ∧ Retracted r r' .failed .targetSource
    (∀ bytes x, s.verify.busy = some (.target n g) → e.statedCrc = some x → x ≠ crc32 bytes →
      ∃ u, exec (.verifyPassEnd bytes) s = .next (startVerify (sweepPages u)) ∧ faulted u .mismatch (some (crc32 bytes)) ∧
        OrderProgress s u e 1 1) ∧
    (s.verify.busy = some (.target n g) →
      ∃ u, exec .verifyReadError s = .next (startVerify (sweepPages u)) ∧ faulted u .read none ∧ OrderProgress s u e 1 1) ∧
    ∀ sl, (s.line n).slot = some sl → sl.state = .sending → sl.generation = g →
      ∃ u, exec (.targetReadError n) s = .next (sweepPages u) ∧ faulted u .read e.computedCrc ∧ OrderProgress s u e 0 1 ∧
        (∀ sl', (u.line n).slot = some sl' → sl'.generation ≠ g) ∧ (u.line n).held = (s.line n).held ∧
        (sl.siteHasData = true → if s.isUp (s.linkOf n) = true then Offered u (s.linkOf n) (.targetWithdraw n g)
          else (u.line n).owed = some g) ∧
        (sl.siteHasData = false → (u.line n).owed = (s.line n).owed)

/-! ### The press clock -/

/-- One millisecond (R110, R111, R116, R119): the elapsed base and every timer, whatever the press clock then does; the press clock
stands at its end, gives one to a hold, or advances, with the clock's end and the mark of a new second, and leaves no deadline due
(R95). The model's choices: past its largest value the elapsed base is a free value (log entry 8), a timer that has run out stands
at 0 (log entry 3), and so does a hold (log entry 5), and the clock's end stops a loss timer that runs out in that millisecond (log
entry 56). -/
def Obligations.ClockAdvances : Prop :=
  ∀ s : State,
  (∃ u, exec .clockAdvance s = .next (advanceClock u) ∧ u.deadlines = s.deadlines ∧
    (∀ i r, s.rec? i = some r → u.rec? i = some { r with timer := (match r.timer with
      | .running k => .running (k - 1) | .stopped => .stopped | .paused k => .paused k) }) ∧
    (∀ n, u.line n = { s.line n with
      slot := (s.line n).slot.map fun sl => { sl with timer := sl.timer.map fun k => k - 1 }
      query := (s.line n).query.map fun q => { q with timer := q.timer - 1 }
      requery := (s.line n).requery.map fun k => k - 1 }) ∧
    (∀ l, u.link l = { s.link l with
      silence := (s.link l).silence.map fun k => k - 1
      retry := (s.link l).retry.map fun k => k - 1
      windowTimer := (s.link l).windowTimer.map fun k => k - 1
      roll := (s.link l).roll.map fun w => { w with timer := w.timer - 1 } }) ∧
    u.clock = { s.clock with elapsed := u.clock.elapsed, loss := s.clock.loss.map fun k => k - 1 }) ∧
  Runs .clockAdvance s fun t =>
    (s.clock.elapsed ≠ BitVec.allOnes 48 → t.clock.elapsed = s.clock.elapsed + 1) ∧
    (∀ l, (t.link l).silence = (s.link l).silence.map (fun k => k - 1) ∧ (t.link l).retry = (s.link l).retry.map (fun k => k - 1) ∧
      (t.link l).roll = (s.link l).roll.map fun w => { w with timer := w.timer - 1 }) ∧
    (∀ n, (t.line n).query = (s.line n).query.map (fun q => { q with timer := q.timer - 1 }) ∧
      (t.line n).requery = (s.line n).requery.map (fun k => k - 1)) ∧
    t.clock.sync = s.clock.sync ∧ t.clock.source = s.clock.source ∧ t.clock.clockUnset = s.clock.clockUnset ∧
    ((s.clock.clockEnd = true ∨ ∃ k, s.clock.hold = some (k + 1)) →
      t.clock.value = s.clock.value ∧ t.clock.clockEnd = s.clock.clockEnd ∧
      t.clock.hold = (if s.clock.clockEnd = true then s.clock.hold else s.clock.hold.map (fun k => k - 1)) ∧
      t.clock.loss = s.clock.loss.map (fun k => k - 1) ∧ (∀ l, (t.link l).markCount = (s.link l).markCount) ∧
      ∀ i r, s.rec? i = some r → t.rec? i = some { r with timer := (match r.timer with
        | .running k => .running (k - 1) | .stopped => .stopped | .paused k => .paused k) }) ∧
    (s.clock.clockEnd = false → s.clock.hold = none ∨ s.clock.hold = some 0 →
      t.clock.value = s.clock.value + 1 ∧ t.clock.hold = none ∧ (sortedDue s.deadlines → t.NoneDue) ∧
      (s.clock.value + 1 = 4294967295 → t.clock.clockEnd = true ∧ t.clock.loss = none ∧ Raised t .clock) ∧
      (s.clock.value + 1 ≠ 4294967295 → t.clock.clockEnd = false ∧ t.clock.loss = s.clock.loss.map (fun k => k - 1)) ∧
      (∀ l, (t.link l).markCount =
        if s.clock.clockUnset = false ∧ s.clock.value / 1000 ≠ (s.clock.value + 1) / 1000 ∧ (s.link l).state = .up
        then ((s.link l).markCount + 1) % 64 else (s.link l).markCount) ∧
      t.clock.snapshot = (if s.clock.clockUnset = false ∧ s.clock.value / 1000 ≠ (s.clock.value + 1) / 1000
        then s.clock.value + 1 else s.clock.snapshot))

/-- A hold that has run out ends (R116); a loss timer that has run out takes a LOCKED clock to HOLDOVER with CLOCK raised (R118);
a pulse under INTERNAL or at CLOCK_END is ignored (R113). That the commands act only on a hold or a timer that stands at 0 is the
model's choice (log entries 5 and 3). -/
def Obligations.ClockTimersEnd : Prop :=
  ∀ s : State,
    exec .holdEnd s = .next { s with clock := { s.clock with hold := if s.clock.hold = some 0 then none else s.clock.hold } } ∧
    (s.clock.loss = some 0 → s.clock.sync = .locked → Runs .lossTimerExpiry s fun t =>
      t.clock = { s.clock with sync := .holdover, loss := none } ∧ Raised t .clock ∧
      (s.order.deskBase ≠ 0 → Issued s t (.write (s.order.deskBase + 0x010) (summaryBytes t))) ∧
      t = { s with clock := t.clock, order := t.order, bus := t.bus }) ∧
    (s.clock.loss ≠ some 0 ∨ s.clock.sync ≠ .locked → exec .lossTimerExpiry s = .next s) ∧
    (s.clock.source = .internal ∨ s.clock.clockEnd = true → exec .syncPulse s = .next s)

/-- A pulse evaluated while LOCKED acts by its offset (R114); a jump leaves no deadline due (R95). -/
def Obligations.LockedPulse : Prop :=
  ∀ s : State, s.clock.source = .station → s.clock.clockEnd = false → s.clock.sync = .locked →
    let off := s.clock.value % 1000
    Runs .syncPulse s fun t =>
      (off = 0 → t = { s with clock := { s.clock with hold := none, loss := some 3000 } }) ∧
      (1 ≤ off → off ≤ 100 → t = { s with clock := { s.clock with hold := some off, loss := some 3000 } }) ∧
      (101 ≤ off → off ≤ 899 → t.clock = { s.clock with hold := none } ∧
        t.counters = { s.counters with syncRejected := satInc s.counters.syncRejected } ∧
        t = { s with clock := t.clock, counters := t.counters, bus := t.bus }) ∧
      (900 ≤ off → t.clock = { s.clock with
          value := s.clock.value + (1000 - off)
          hold := none
          loss := some 3000
          snapshot := if s.clock.clockUnset = true then s.clock.snapshot else s.clock.value + (1000 - off) } ∧
        (sortedDue s.deadlines → t.NoneDue))

/-- A pulse evaluated while ACQUIRING or HOLDOVER is accepted and acts by its offset (R113, R115, R117); the clock is LOCKED, the summary
shows it, and CLOCK is not raised, nor any cause but by what a jump onto due deadlines does (R95, R119). That the summary is
written before the firings of a jump, and so with the completions that stood before the pulse, is the model's choice (log entry 40). -/
def Obligations.UnlockedPulse : Prop :=
  ∀ s : State, s.clock.source = .station → s.clock.clockEnd = false →
    s.clock.sync = .acquiring ∨ s.clock.sync = .holdover →
    let off := s.clock.value % 1000
    let accepted := { s.clock with hold := none, sync := .locked, loss := some 3000 }
    Runs .syncPulse s fun t =>
      (off = 0 → t.clock = accepted) ∧ (1 ≤ off → off ≤ 499 → t.clock = { accepted with hold := some off }) ∧
      (off ≤ 499 → t = { s with clock := t.clock, bus := t.bus }) ∧
      (500 ≤ off → t.clock = { accepted with
        value := s.clock.value + (1000 - off)
        snapshot := if s.clock.clockUnset = true then s.clock.snapshot else s.clock.value + (1000 - off) }) ∧
      ((∀ d ∈ s.deadlines, t.clock.value < d.due) → t.order = s.order) ∧ (Raised t .clock ↔ Raised s .clock) ∧
      (500 ≤ off → sortedDue s.deadlines → t.NoneDue) ∧
      (s.order.deskBase ≠ 0 → ∃ k : Clock, k.sync = .locked ∧
        Issued s t (.write (s.order.deskBase + 0x010) (summaryBytes { s with clock := k })))

/-! ### Deadlines -/

/-- The transfer time is the least whole number of milliseconds in which the link sends the bits of the frames left, from the
inputs of R70; the latest start is computed from it. -/
def Obligations.TransferTime : Prop :=
  (∀ r rt h rate : Nat, 1 ≤ r → r ≤ 268435456 → rt ≤ 4194304 → h ≤ 7 → 64 ≤ rate → rate ≤ 250000 →
    ∃ o f ft w, o = (if h ≤ 3 then 4 else 8) + 14 ∧ (r ≤ 1024 * f ∧ ∀ k, r ≤ 1024 * k → f ≤ k) ∧
      (rt ≤ 1024 * ft ∧ ∀ k, rt ≤ 1024 * k → ft ≤ k) ∧ w = r + f * o + rt + ft * o ∧
      (10 * w ≤ rate * transferTime r rt h rate ∧ ∀ k, 10 * w ≤ rate * k → transferTime r rt h rate ≤ k) ∧
      10 * w < 4294967296 ∧ transferTime r rt h rate < 67108864) ∧
  ∀ (s : State) (r : DestRec) (p : Page), s.page? r.parent = some p →
    let c := (s.line r.line).cfg
    ∃ rt, (r.state ≠ .targetWait → rt = 0) ∧
      (r.state = .targetWait → ∀ e, (s.line r.line).entry p.generation = some e → rt = e.size) ∧
      recLatestStart s r = r.deadline -
        (transferTime (p.size - r.acked) rt c.path.length (s.link c.link).rate + (s.link c.link).guardMs)

/-- A WARN at the head of the list that is due fires, and the run goes on (R93, R95, R96). A QUEUED record moves to the place its
urgency gives it and keeps its sequence; one in TARGET_WAIT makes the slot loaded for it urgent (R97). That the command is the run
begun by its head is the model's choice (log entry 28). -/
def Obligations.WarnFires : Prop :=
  ∀ (s : State) (d : DeadlineEntry) (ds : List DeadlineEntry) (r : DestRec), s.deadlines = d :: ds → d.kind = .warn →
    d.due ≤ s.clock.value → s.rec? d.dest = some r →
    ∃ u, exec .warnFiring s = .next (fireRun startVerify (4 * ds.length + 3) (startVerify u)) ∧
      (r.state = .queued → s.LineCalm r.line → Xfer.dest d.dest ∈ (s.link (s.linkOf r.line)).queue →
        (u.link (s.linkOf r.line)).queue = insertByKey u (.dest d.dest)
          ((s.link (s.linkOf r.line)).queue.filter fun y => y != .dest d.dest) ∧
        ∃ r', u.rec? d.dest = some r' ∧ r'.late = true ∧ r'.seq = r.seq ∧ r'.latestStart = r.latestStart) ∧
      (∀ sl, r.state = .targetWait → (s.line r.line).slot = some sl → sl.generation ≠ 0 → sl.generation = s.recGen r →
        ∃ sl', (u.line r.line).slot = some sl' ∧ sl'.generation = sl.generation ∧ sl'.urgent = true) ∧
      (r.state ∈ [DestState.verifyWait, .targetWait, .queued, .sending, .receiptWait] →
        (∃ r', u.rec? d.dest = some r' ∧ r'.late = true ∧ r'.missed = r.missed ∧ r'.deadline = r.deadline) ∧ Raised u .late ∧
        u.deadlines = insertDue ⟨r.deadline, d.dest, .miss⟩ ds ∧
        (r.origin = none → Issued s u (.write (r.entryAddr + 8) (entryBytes s { r with late := true })))) ∧
      (r.state = .withdrawing → u.rec? d.dest = some { r with late := true } ∧ u.order = s.order ∧
        u.deadlines = insertDue ⟨r.deadline, d.dest, .miss⟩ ds) ∧
      (r.state = .delivered ∨ r.state = .releasing ∨ r.state.isFinal = true → u = { s with deadlines := ds })

/-- A MISS at the head of the list that is due fires (R98 to R103): MISSED is set and raised, and the late policy is applied, with
the page-end check after it. Under FALLBACK a record is made on the alternate line, its creation written in the origin's entry
(R43, with the detail NONE in every case: log entry 35), or the reason why not is kept and written there; the desk counter of
fallbacks made, or of those failed, grows by one (R102). That the command is the run begun by its head is the model's choice (log
entry 28), as is that the placing of a fallback follows R25 against R68 (log entry 58). -/
def Obligations.MissFires : Prop :=
  ∀ (s : State) (d : DeadlineEntry) (ds : List DeadlineEntry) (r : DestRec) (p : Page), s.deadlines = d :: ds →
    d.kind = .miss → d.due ≤ s.clock.value → s.rec? d.dest = some r → s.page? r.parent = some p →
    ∃ u, exec .missFiring s = .next (fireRun startVerify (4 * ds.length + 3) (startVerify (pageEndOf d.dest u))) ∧
      (r.state = .withdrawing → u.rec? d.dest = some { r with missed := true } ∧ u.order = s.order ∧ u.deadlines = ds) ∧
      (r.state = .delivered ∨ r.state = .releasing ∨ r.state.isFinal = true → u = { s with deadlines := ds }) ∧
      (r.state ∈ [DestState.verifyWait, .targetWait, .queued, .sending, .receiptWait] →
        Raised u .missed ∧
        (r.isFallback = true ∨ p.policy = .continue_ → u.rec? d.dest = some { r with missed := true } ∧ u.deadlines = ds) ∧
        (r.isFallback = false → p.policy = .drop → InPlace s d.dest r →
          ∃ r', u.rec? d.dest = some r' ∧ r'.missed = true ∧ Retracted r r' .missed .none) ∧
        (r.isFallback = false → p.policy = .fallback → InPlace s d.dest r → d.dest ∉ s.free →
          ∃ r', u.rec? d.dest = some r' ∧ r'.missed = true ∧ Retracted r r' .missed .none ∧
          let grew := fun k : DeskCounters =>
            (∀ why, r'.fallback = .failed why → k.fallbacksFailed = satInc s.counters.fallbacksFailed ∧
              k.fallbacksMade = s.counters.fallbacksMade) ∧
            ∀ n, r'.fallback = .made n → k.fallbacksMade = satInc s.counters.fallbacksMade ∧
              k.fallbacksFailed = s.counters.fallbacksFailed
          grew u.counters ∧
          (s.order.deskBase ≠ 0 → s.counters.fallbacksMade ≠ BitVec.allOnes 32 → s.counters.fallbacksFailed ≠ BitVec.allOnes 32 →
            ∃ k : DeskCounters, grew k ∧ Issued s u (.write (s.order.deskBase + 0xA00) (countersBytes k))) ∧
          (∀ why, r'.fallback = .failed why → r.origin = none → Issued s u (.write (r.entryAddr + 8)
            (leBytes 1 r'.state.code ++ leBytes 1 r'.detail.code ++ leBytes 1 r'.attempts ++
              leBytes 1 (flagBit r'.late 0 + flagBit r'.missed 1 + flagBit r'.siteHasData 2) ++ [255, 0] ++
              leBytes 1 why.code ++ [0]))) ∧
          ((s.line r.line).cfg.alternate = none → r'.fallback = .failed .fallbackNone ∧ u.free = s.free) ∧
          ∀ a, (s.line r.line).cfg.alternate = some a →
            let elsewhere := ∀ j ∈ p.dests, ∀ q, s.rec? j = some q → q.line ≠ a
            ((s.line a).enabled = false → r'.fallback = .failed .fallbackLineUnusable ∧ u.free = s.free) ∧
            ((s.line a).enabled = true → ¬ elsewhere → r'.fallback = .failed .fallbackAlreadyDestination ∧ u.free = s.free) ∧
            ((s.line a).enabled = true → elsewhere → s.free = [] → r'.fallback = .failed .fallbackPoolFull) ∧
            ∀ n rest, (s.line a).enabled = true → elsewhere → s.free = n :: rest → s.rec? n = none → Unqueued s n →
              r'.fallback = .made n ∧ u.free = rest ∧
              (∃ p', u.page? r.parent = some p' ∧ p'.dests = p.dests ++ [n]) ∧
              ∃ f, u.rec? n = some f ∧ f.line = a ∧ f.parent = r.parent ∧ f.isFallback = true ∧ f.origin = some d.dest ∧
                f.deadline = min (r.deadline + (s.line r.line).cfg.extension) 4294967295 ∧
                (p.state ≠ .active → f.state = .verifyWait ∧
                  ⟨f.deadline - (s.line a).cfg.warnLead, n, .warn⟩ ∈ u.deadlines) ∧
                (p.state = .active → PlacedBy s p.generation f) ∧
                ∃ first, (first = f.state ∨ first = .queued ∧ f.state = .sending) ∧ Issued s u (.write (r.entryAddr + 8)
                  (leBytes 1 r'.state.code ++ leBytes 1 r'.detail.code ++ leBytes 1 r'.attempts ++
                    leBytes 1 (flagBit r'.late 0 + flagBit r'.missed 1 + flagBit r'.siteHasData 2) ++
                    leBytes 1 a.val ++ leBytes 1 first.code ++ [0, 0]))))

/-- A RELEASE at the head of the list that is due fires (R33, R34, R104): the release check of its record. A firing command finds
nothing to do where the head is not due or of another kind (log entry 28). -/
def Obligations.ReleaseFires : Prop :=
  ∀ s : State,
    (∀ (d : DeadlineEntry) (ds : List DeadlineEntry) (r : DestRec) (p : Page), s.deadlines = d :: ds → d.kind = .release →
      d.due ≤ s.clock.value → s.rec? d.dest = some r → s.page? r.parent = some p →
      let passes := r.state = .delivered ∧ (p.generation = 0 ∨ (s.line r.line).held = p.generation) ∧
        (∀ x, p.release = some x → x ≤ s.clock.value) ∧ (s.link (s.linkOf r.line)).state = .up
      ∃ u, exec .releaseFiring s = .next (fireRun startVerify (4 * ds.length + 3) (startVerify u)) ∧
        (¬ passes → u = { s with deadlines := ds }) ∧
        (passes → u.rec? d.dest = some { r with state := .releasing, sendCount := 1, timer := .running 2000 } ∧
          ((s.link (s.linkOf r.line)).wire = none → (s.link (s.linkOf r.line)).control = [] →
            ∃ f, (u.link (s.linkOf r.line)).wire = some ⟨f, .control⟩ ∧ f.kind = 5 ∧ f.tag = BitVec.ofNat 16 d.dest))) ∧
    ∀ c k, (c, k) ∈ [(Instr.warnFiring, DeadlineKind.warn), (.missFiring, .miss), (.releaseFiring, .release)] →
      (∀ d ∈ s.deadlines.head?, d.kind ≠ k ∨ s.clock.value < d.due) → exec c s = .next s

/-! ### Reply timers, receipts and acknowledgements -/

/-- A RELEASE or WITHDRAW whose reply timer has run out before its third send goes out again (R34, R37); a reply timer that has not
run out, or that another state waits on, does nothing (log entry 3). -/
def Obligations.RepliesResent : Prop :=
  ∀ (s : State) (i : Fin 1024) (r : DestRec), s.rec? i.val = some r →
    (∀ p, s.page? r.parent = some p → r.timer = .running 0 → r.sendCount < 3 →
      ∀ c st kind, (c, st, kind) ∈ [(Instr.releaseTimeout i, DestState.releasing, (5 : Byte)), (.withdrawTimeout i, .withdrawing, 7)] →
        r.state = st → Runs c s fun t =>
          t.rec? i.val = some { r with sendCount := r.sendCount + 1, timer := .running 2000 } ∧
          ((s.link (s.linkOf r.line)).state = .up → (s.link (s.linkOf r.line)).wire = none →
            (s.link (s.linkOf r.line)).control = [] →
            ∃ f, (t.link (s.linkOf r.line)).wire = some ⟨f, .control⟩ ∧ f.kind = kind ∧ f.tag = BitVec.ofNat 16 i.val)) ∧
    ∀ c st, (c, st) ∈ [(Instr.receiptTimeout i, DestState.receiptWait), (.releaseTimeout i, .releasing), (.withdrawTimeout i, .withdrawing)] →
      r.state ≠ st ∨ r.timer ≠ .running 0 → exec c s = .next s

/-- A record ends by its acknowledgement, or for want of one after the third send (R34, R35, R37, R38); the page-end check follows. -/
def Obligations.RecordsEnd : Prop :=
  ∀ (s : State) (i : Fin 1024) (r : DestRec), s.rec? i.val = some r → Unqueued s i.val →
    let ends (c : Instr) (st : DestState) (d : Detail) : Prop :=
      ∃ u, exec c s = .next (pageEndOf i.val u) ∧
        ∃ r', u.rec? i.val = some r' ∧ r'.state = st ∧ r'.detail = d ∧ r'.timer = .stopped
    (∀ l f, FromLine s l 6 f r.line → f.tag.toNat = i.val → r.state = .releasing → ends (.releaseAck l f) .released .none) ∧
    (∀ l f x d, FromLine s l 8 f r.line → f.tag.toNat = i.val → r.state = .withdrawing → r.retract = some (x, d) →
      ends (.withdrawAck l f) x.state d) ∧
    (r.timer = .running 0 → 3 ≤ r.sendCount →
      (r.state = .releasing → ends (.releaseTimeout i) .failed .noReleaseAck) ∧
      ∀ x d, r.state = .withdrawing → r.retract = some (x, d) → ends (.withdrawTimeout i) x.state .unconfirmed)

/-- A RECEIPT without TARGET, or its absence, for a record in RECEIPT_WAIT (R29, R30, R33): delivered and perhaps released at once,
its entry in the deadline list gone but for a RELEASE at a release time to come (R94, R104); or an attempt charged, then placed
again with the next sequence (R75), or FAILED at the third. -/
def Obligations.ReceiptJudged : Prop :=
  ∀ (s : State) (i : Fin 1024) (r : DestRec) (p : Page), s.rec? i.val = some r → s.page? r.parent = some p →
    r.state = .receiptWait → Unqueued s i.val →
    let fails (c : Instr) : Prop :=
      ∃ u, exec c s = .next (pageEndOf i.val u) ∧ ∃ r', u.rec? i.val = some r' ∧ r'.attempts = r.attempts + 1 ∧
        (2 ≤ r.attempts → r'.state = .failed ∧ r'.detail = .noGoodReceipt) ∧
        (r.attempts < 2 → r'.sent = 0 ∧ r'.acked = 0 ∧
          (p.generation = 0 ∨ (s.line r.line).held = p.generation → (r'.state = .queued ∨ r'.state = .sending) ∧
            (s.seqNext + 1 < 4294967295 → r'.seq = s.seqNext)))
    (∀ l f, FromLine s l 4 f r.line → f.flags.getLsbD 2 = false → f.tag.toNat = i.val →
      ∀ c ∈ [Instr.receipt l f, .targetConfirm l f],
        (f.flags.getLsbD 4 = true → Runs c s fun t => ∃ r', t.rec? i.val = some r' ∧ r'.acked = p.size ∧
          if (p.generation = 0 ∨ (s.line r.line).held = p.generation) ∧ (∀ x, p.release = some x → x ≤ s.clock.value)
          then r'.state = .releasing ∧ r'.sendCount = 1 ∧ r'.timer = .running 2000
          else r'.state = .delivered ∧ r'.timer = .stopped ∧ t.deadlines =
            let rest := s.deadlines.filter fun e => e.dest != i.val
            match p.release with
            | some x => if s.clock.value < x then insertDue ⟨x, i.val, .release⟩ rest else rest
            | none => rest) ∧
        (f.flags.getLsbD 4 = false → fails c)) ∧
    (r.timer = .running 0 → fails (.receiptTimeout i))

/-- A RECEIPT with TARGET, or its absence, for a slot in CONFIRM_WAIT (R59 to R61): the line holds the generation and its waiting
records are placed; or an attempt is charged and the slot waits again; or at the third the claimants fail TARGET_UNDELIVERED. -/
def Obligations.ConfirmJudged : Prop :=
  ∀ (s : State) (n : LineId) (sl : Slot), (s.line n).slot = some sl → sl.state = .confirmWait →
    let fails (c : Instr) : Prop :=
      (sl.attempts < 2 → Runs c s fun t => ∃ sl', (t.line n).slot = some sl' ∧ sl'.attempts = sl.attempts + 1 ∧
        sl'.sent = 0 ∧ sl'.acked = 0 ∧ sl'.generation = sl.generation ∧ (sl'.state = .queued ∨ sl'.state = .sending)) ∧
      (2 ≤ sl.attempts → ∃ u, exec c s = .next (sweepPages u) ∧ Raised u .fault ∧ (u.line n).held = (s.line n).held ∧
        (∀ e ∈ (u.line n).catalog, e.generation = sl.generation → e.push = false) ∧
        ∀ i r, s.rec? i = some r → claims s n sl.generation r = true → InPlace s i r →
          ∃ r', u.rec? i = some r' ∧ Retracted r r' .failed .targetUndelivered)
    (∀ l f, FromLine s l 4 f n → f.flags.getLsbD 2 = true → f.tag.toNat = 1024 + n.val →
      ∀ c ∈ [Instr.receipt l f, .targetConfirm l f],
        (f.flags.getLsbD 4 = true → ∃ u, exec c s = .next (sweepPages u) ∧ (u.line n).held = sl.generation ∧
          ∀ i r, s.rec? i = some r → claims s n sl.generation r = true → r.state = .targetWait → Unqueued s i →
            ∃ r', u.rec? i = some r' ∧ (r'.state = .queued ∨ r'.state = .sending)) ∧
        (f.flags.getLsbD 4 = false → fails c)) ∧
    (sl.timer = some 0 → fails (.confirmTimeout n))

/-! ### The wire -/

/-- The window timer's expiry with the window full rewinds the transfer, which a fresh OPEN from acked follows (R78, R82), and a CKPT_ACK
raises acked, reports a gap and so rewinds, or is a stale tag (R83). A raised acked that frees the window stops its timer, and
sending goes on (R82).
A frame that leaves is followed, where no control frame and no OPEN waits, by the next DATA frame of the transfer, if credit and the
window let it go (R79, R80, R142), and by none else. That WINDOW_TIMEOUT acts only on a timer that stands at 0 is the model's choice (log
entry 3). -/
def Obligations.WindowRules : Prop :=
  ∀ (s : State) (l : LinkId),
    let reopens := fun (t : State) (x : Xfer) (acked : Nat) =>
      ((s.link l).state ≠ .up ∨ (s.link l).wire ≠ none ∨ (s.link l).control ≠ [] → (t.link l).openOwed = true) ∧
      ((s.link l).state = .up → (s.link l).wire = none → (s.link l).control = [] → ∃ f, (t.link l).wire = some ⟨f, .openFrame⟩ ∧
        f.kind = 1 ∧ f.tag = BitVec.ofNat 16 x.tag ∧ f.value = BitVec.ofNat 32 acked)
    (∀ x i, (s.link l).sending = some x → xferInfo s x = some i → (s.link l).windowTimer = some 0 → 262144 ≤ i.sent - i.acked →
      Runs (.windowTimeout l) s fun t => (t.link l).windowTimer = none ∧ (t.link l).lastCkpt = none ∧
        (t.link l).counters = { (s.link l).counters with rewinds := satInc (s.link l).counters.rewinds } ∧
        reopens t x i.acked ∧ ∃ i', xferInfo t x = some i' ∧ i'.sent = i.acked ∧ i'.acked = i.acked) ∧
    ((s.link l).windowTimer ≠ some 0 → exec (.windowTimeout l) s = .next s) ∧
    (∀ w x i, (s.link l).state = .up → (s.link l).wire = some w → w.role = .control ∨ w.role = .openFrame →
      (s.link l).rewindPending = false → (s.link l).control = [] → (s.link l).openOwed = false → (s.link l).sending = some x →
      xferInfo s x = some i → i.sent < i.size → Runs (.frameLeft l) s fun t =>
        (1 ≤ (s.link l).credit → i.sent - i.acked < 262144 → DataStarts s t l x i) ∧
        ((s.link l).credit = 0 ∨ 262144 ≤ i.sent - i.acked → (t.link l).wire = none ∧ t = { s with links := t.links }) ∧
        (∀ j r p, x = .dest j → s.rec? j = some r → s.page? r.parent = some p →
          i.line = r.line ∧ i.extents = p.extents ∧ i.size = p.size ∧ i.sent = r.sent ∧ ∀ k, p.computedCrc = some k → i.crc = k) ∧
        ∀ n sl e, x = .slot n → (s.line n).slot = some sl → (s.line n).entry sl.generation = some e →
          i.line = n ∧ i.extents = e.extents ∧ i.size = e.size ∧ i.sent = sl.sent ∧ ∀ k, e.computedCrc = some k → i.crc = k) ∧
    ∀ (f : InFrame) (n : LineId) (x : Xfer) (i : XferInfo), FromLine s l 3 f n → f.tag.toNat = x.tag →
      (match x with
        | .dest j => j < 1024 ∧ ∃ r, s.rec? j = some r ∧ r.line = n ∧ (r.state = .sending ∨ r.state = .receiptWait)
        | .slot m => m = n ∧ ∃ sl, (s.line n).slot = some sl ∧ (sl.state = .sending ∨ sl.state = .confirmWait)) →
      xferInfo s x = some i →
      let hd := f.value.toNat
      let raises := hd % 65536 = 0 ∧ hd < i.size ∧ i.acked < hd ∧ hd ≤ i.sent
      let gap := (s.link l).sending = some x ∧ hd < beNat f.payload ∧ (s.link l).lastCkpt = some (beNat f.payload)
      Runs (.ckptAck l f) s fun t =>
        (∃ i', xferInfo t x = some i' ∧ i'.acked = (if raises then hd else i.acked) ∧
          (¬ gap → i'.sent = i.sent) ∧ (gap → (s.link l).wire = none → f.flags.getLsbD 3 = false → i'.sent = i'.acked)) ∧
        (gap → (s.link l).wire ≠ none → (t.link l).rewindPending = true) ∧
        (gap → (s.link l).wire = none → f.flags.getLsbD 3 = false →
          (t.link l).counters.rewinds = satInc (s.link l).counters.rewinds ∧ (t.link l).lastCkpt = none ∧
          (t.link l).windowTimer = none ∧ reopens t x (if raises then hd else i.acked)) ∧
        (raises → (s.link l).sending = some x → i.sent - hd < 262144 → (t.link l).windowTimer = none) ∧
        (raises → ¬ gap → (s.link l).sending = some x → i.sent - hd < 262144 → (s.link l).wire = none → (s.link l).control = [] →
          (s.link l).openOwed = false → 1 ≤ (s.link l).credit → i.sent < i.size → f.flags.getLsbD 3 = false →
          (∃ w, (t.link l).wire = some w ∧ w.frame.kind = 2 ∧ w.frame.tag = BitVec.ofNat 16 x.tag) ∧ DataStarts s t l x i) ∧
        (t.link l).counters.staleTag = if raises ∨ gap then (s.link l).counters.staleTag
          else satInc (s.link l).counters.staleTag

/-- The frame on the wire has left: it is counted (R150), its departure acts, and the next frame starts (R143). The end of a DATA frame
moves the sent offset (R79) and fills the window (R82). After a CHECKPOINT frame the transfer goes on, or is switched away from and
handed back (R84, R85); after LAST it waits for its answer, and the first entry whose line is READY is picked and opened (R28, R59,
R77, R78, R86). A frame of a stopped transfer has no effect (R87), and a waiting rewind takes the place of a departure and
owes a fresh OPEN, which goes out from acked where no control frame waits (R78, R83). -/
def Obligations.FrameLeaves : Prop :=
  ∀ (s : State) (l : LinkId),
    ((s.link l).state ≠ .up ∨ (s.link l).wire = none → exec (.frameLeft l) s = .next s) ∧
    ∀ w, (s.link l).state = .up → (s.link l).wire = some w →
      let sent := { (s.link l).counters with framesSent := satInc (s.link l).counters.framesSent }
      let first := (s.link l).queue.find? fun y => xferReady s y
      (Runs (.frameLeft l) s fun t => (t.link l).counters.framesSent = sent.framesSent) ∧
      (∀ c cs, (s.link l).rewindPending = false →
        w.role = .control ∨ w.role = .openFrame ∨ (∃ x off k e, w.role = .data x off k e false) → (s.link l).control = c :: cs →
        Runs (.frameLeft l) s fun t =>
          t.link l = { s.link l with control := cs, wire := some ⟨ctlFrame s c, .control⟩, counters := sent } ∧
          t = { s with links := t.links } ∧ ∀ m, m ≠ l → t.link m = s.link m) ∧
      (∀ x i off k, (s.link l).rewindPending = false → w.role = .data x off k false true → (s.link l).sending = some x →
        IsSending s x → xferInfo s x = some i →
        let leaves := (∃ y, first = some y ∧ (xferKey s y).before (xferKey s x) = true) ∨ (s.line i.line).state ≠ .ready ∨
          ∃ j r, x = .dest j ∧ s.rec? j = some r ∧ s.recGen r ≠ 0 ∧ (s.line r.line).held ≠ s.recGen r
        (k = false ∨ ¬ leaves → Runs (.frameLeft l) s fun t => (t.link l).counters = sent ∧ (t.link l).sending = some x ∧
          (t.link l).lastCkpt = (if k = true then some off else (s.link l).lastCkpt) ∧
          (∃ i', xferInfo t x = some i' ∧ i'.sent = off ∧ i'.acked = i.acked) ∧
          (t.link l).windowTimer = if 262144 ≤ off - i.acked then some 2000 else (s.link l).windowTimer) ∧
        (k = true → leaves → s.linkOf i.line = l →
          (∀ j r, x = .dest j → s.rec? j = some r → r.siteHasData = true → Unqueued s j → Runs (.frameLeft l) s fun t =>
            (t.link l).counters = sent ∧ ∃ r', t.rec? j = some r' ∧ r'.line = r.line ∧ r'.attempts = r.attempts ∧
              r'.acked = r.acked ∧ PlacedWithData s (s.recGen r) r' ∧
              (r'.state = .queued ∨ r'.state = .sending → r'.sent = r.acked ∧
                (s.seqNext + 1 < 4294967295 → r'.seq = s.seqNext)) ∧
              (r'.state = .queued → (t.link l).sending ≠ some x)) ∧
          (∀ n sl, x = .slot n → (s.line n).slot = some sl → (∀ m, x ∉ (s.link m).queue) → Runs (.frameLeft l) s fun t =>
            (t.link l).counters = sent ∧ ∃ sl', (t.line n).slot = some sl' ∧ sl'.generation = sl.generation ∧
              sl'.attempts = sl.attempts ∧ sl'.acked = sl.acked ∧ sl'.sent = sl.acked ∧
              (sl'.state = .queued ∨ sl'.state = .sending) ∧ (s.seqNext < 4294967295 → sl'.seq = s.seqNext)))) ∧
      (∀ x i off k, (s.link l).rewindPending = false → w.role = .data x off k true true → (s.link l).sending = some x →
        IsSending s x → xferInfo s x = some i → (∀ m, x ∉ (s.link m).queue) → Runs (.frameLeft l) s fun t =>
          (t.link l).counters = sent ∧ (t.link l).sending = first ∧ (t.link l).windowTimer = none ∧
          (∀ y, first = some y → (t.link l).queue = (s.link l).queue.filter fun z => z != y) ∧
          (∀ y iy, first = some y → xferInfo s y = some iy → (s.link l).control = [] →
            ∃ f, (t.link l).wire = some ⟨f, .openFrame⟩ ∧ f.kind = 1 ∧ f.tag = BitVec.ofNat 16 y.tag ∧
              f.value = BitVec.ofNat 32 iy.acked) ∧
          (∀ j r, x = .dest j → s.rec? j = some r →
            t.rec? j = some { r with state := .receiptWait, sent := off, timer := .running 2000 }) ∧
          ∀ n sl, x = .slot n → (s.line n).slot = some sl →
            (t.line n).slot = some { sl with state := .confirmWait, sent := off, timer := some 2000 }) ∧
      (∀ x i, (s.link l).rewindPending = true → (s.link l).sending = some x → IsSending s x → xferInfo s x = some i →
        (∀ y off k e, w.role = .data y off k e true → y = x) →
        Runs (.frameLeft l) s fun t => (t.link l).rewindPending = false ∧ (t.link l).lastCkpt = none ∧
          (t.link l).windowTimer = none ∧
          (t.link l).counters = { sent with rewinds := satInc (s.link l).counters.rewinds } ∧
          ((s.link l).control ≠ [] → (t.link l).openOwed = true) ∧
          ((s.link l).control = [] → ∃ f, (t.link l).wire = some ⟨f, .openFrame⟩ ∧ f.kind = 1 ∧
            f.tag = BitVec.ofNat 16 x.tag ∧ f.value = BitVec.ofNat 32 i.acked) ∧
          ∃ i', xferInfo t x = some i' ∧ i'.sent = i.acked ∧ i'.acked = i.acked)

/-- A link leaves UP on a run-out silence timer or a loss of signal (R88, R129, R140, R156, R159), and tries again when its retry
timer has run out; otherwise these events change nothing (R137, log entry 3). Its records and slots that were sent or wait for
an answer return to their queue without an attempt charged, and the reply timers of the others pause (R31, R62, R88). -/
def Obligations.LinkGoesDown : Prop :=
  ∀ (s : State) (l : LinkId),
    (∀ c ∈ [Instr.lossOfSignal l, .silenceTimeout l], (s.link l).state = .up →
      (c = .silenceTimeout l → (s.link l).silence = some 0) → Runs c s fun t =>
        (t.link l).state = .down ∧ (t.link l).credit = 0 ∧ (t.link l).silence = none ∧ (t.link l).retry = some 1000 ∧
        (t.link l).Dark ∧ Raised t .linkChanged ∧
        (∀ n, (s.line n).enabled = true → (s.line n).cfg.link = l →
          (t.line n).state = .unreachable ∧ (t.line n).query = none ∧ (t.line n).requery = none ∧
          ∀ q, (s.line n).query = some q → ∀ x ∈ q.pending, Disposed s t x .done 2) ∧
        (∀ w, (s.link l).roll = some w → ∀ x ∈ w.pending, Disposed s t x .done 1) ∧
        ∃ u, t = sweepPages u ∧
          (∀ i r, s.rec? i = some r → s.linkOf r.line = l → InPlace s i r →
            (r.state = .receiptWait ∨ (r.state = .sending ∧ (s.link l).sending = some (.dest i)) →
              s.recGen r = 0 ∨ (s.line r.line).held = s.recGen r → ∃ r', u.rec? i = some r' ∧ r'.state = .queued ∧
                r'.sent = r.acked ∧ r'.acked = r.acked ∧ r'.attempts = r.attempts ∧ r'.timer = .stopped) ∧
            (r.state = .releasing ∨ r.state = .withdrawing → (∀ m, (s.link m).sending ≠ some (.dest i)) →
              u.rec? i = some { r with timer := (match r.timer with
                | .running k => .paused k | .paused k => .paused k | .stopped => .stopped) }) ∧
            (r.state ∈ [DestState.verifyWait, .targetWait, .delivered, .released, .failed, .stale, .missed, .withdrawn] →
              (∀ m, (s.link m).sending ≠ some (.dest i)) → u.rec? i = some r)) ∧
          ∀ n sl, (s.line n).enabled = true → (s.line n).cfg.link = l → (s.line n).slot = some sl →
            (∀ m, Xfer.slot n ∉ (s.link m).queue) →
            sl.state = .confirmWait ∨ (sl.state = .sending ∧ (s.link l).sending = some (.slot n)) →
            ∃ sl', (u.line n).slot = some sl' ∧ sl'.state = .queued ∧ sl'.sent = sl.acked ∧ sl'.acked = sl.acked ∧
              sl'.attempts = sl.attempts ∧ sl'.generation = sl.generation ∧ sl'.siteHasData = sl.siteHasData ∧ sl'.timer = none) ∧
    ((s.link l).state = .down → (s.link l).retry = some 0 → Runs (.retryTimeout l) s fun t =>
      t.link l = { s.link l with state := .connecting, retry := none } ∧ Raised t .linkChanged ∧
      t = { s with links := t.links, order := t.order, bus := t.bus }) ∧
    ((s.link l).state ≠ .up → exec (.lossOfSignal l) s = .next s ∧ exec (.silenceTimeout l) s = .next s) ∧
    ((s.link l).silence ≠ some 0 → exec (.silenceTimeout l) s = .next s) ∧
    ((s.link l).state ≠ .down ∨ (s.link l).retry ≠ some 0 → exec (.retryTimeout l) s = .next s)

/-! ### Arriving frames -/

/-- A CREDIT that passes the checks brings a CONNECTING link UP with its lines UNKNOWN and a roll call (R139, R153), and gives an
UP link 8 credits, at most 64 (R142); an ECHO on an UP link is judged by the mark count (R146). On a link that has come UP paused
reply timers resume, first WITHDRAWs and owed target WITHDRAWs go out, and DELIVERED records are released (R32, R33, R62). -/
def Obligations.CreditAndEcho : Prop :=
  ∀ (s : State) (l : LinkId) (f : InFrame), f.dest = 0 →
    (frameSound 15 f = true → (s.link l).state = .up → Runs (.credit l f) s fun t =>
      (t.link l).silence = some (s.link l).silenceLimit ∧
      ((s.link l).wire ≠ none → (t.link l).credit = min ((s.link l).credit + 8) 64) ∧
      (t.link l).counters = { (s.link l).received.counters with
        creditOverflow := satAdd (s.link l).counters.creditOverflow ((s.link l).credit + 8 - 64) }) ∧
    (frameSound 15 f = true → (s.link l).state = .connecting → Runs (.credit l f) s fun t =>
      (t.link l).state = .up ∧ (t.link l).silence = some (s.link l).silenceLimit ∧ Raised t .linkChanged ∧
      (t.link l).roll = some ⟨250, 0, 0, []⟩ ∧
      (∀ n, (s.line n).enabled = true → (s.line n).cfg.link = l → (t.line n).state = .unknown ∧ (t.line n).owed = none ∧
        ∀ g, (s.line n).owed = some g → Offered t l (.targetWithdraw n g)) ∧
      (∀ i r p, s.rec? i = some r → s.page? r.parent = some p → s.linkOf r.line = l → Unqueued s i →
        (r.state = .withdrawing → r.sendCount = 0 → t.rec? i = some { r with sendCount := 1, timer := .running 2000 } ∧
          Offered t l (.withdraw i r.line p.key p.version)) ∧
        (r.state = .withdrawing ∨ r.state = .releasing → r.sendCount ≠ 0 → t.rec? i = some { r with timer := (match r.timer with
          | .running k => .running k | .paused k => .running k | .stopped => .stopped) }) ∧
        (r.state = .delivered → (p.generation = 0 ∨ (s.line r.line).held = p.generation) →
          (∀ x, p.release = some x → x ≤ s.clock.value) →
          t.rec? i = some { r with state := .releasing, sendCount := 1, timer := .running 2000 } ∧
          Offered t l (.release i r.line p.key p.version))) ∧
      (s.order.deskBase ≠ 0 → Issued s t (.write (s.order.deskBase + BitVec.ofNat 64 (0x100 + 64 * l.val))
        (linkMirrorBytes { (s.link l).received with state := .up, credit := 8 })))) ∧
    (frameSound 14 f = true → (s.link l).state = .up →
      (∃ n, (s.line n).enabled = true ∧ (s.line n).cfg.link = l ∧ (s.line n).cfg.primary = f.src >>> 3) →
      let valid := f.tag.toNat % 64 = (s.link l).markCount ∨ (f.tag.toNat + 1) % 64 = (s.link l).markCount
      Runs (.echo l f) s fun t =>
        (valid → t.link l = { (s.link l).received with silence := some (s.link l).silenceLimit } ∧ t = { s with links := t.links }) ∧
        (¬ valid → (t.link l).counters = { (s.link l).received.counters with
          staleEcho := satInc (s.link l).counters.staleEcho } ∧ (t.link l).silence = some (s.link l).silenceLimit ∧
          Raised t .inbound ∧ t = { s with links := t.links, order := t.order, bus := t.bus }))

/-- A frame of any kind that fails a check is counted and discarded (R137, R147 to R149), also a line's frame with a tag of 1,088 or
more; one other than CREDIT on a CONNECTING link is discarded (R139). That a frame is given in its parts, with its
kind by the command, is the model's choice (log entry 19), as is that a STATUS left without a line by a route change is of an unknown
source (R148 against R133, log entry 57). -/
def Obligations.FramesRejected : Prop :=
  ∀ (s : State) (l : LinkId) (f : InFrame) (k : Byte),
    ∀ c kind, (c, kind) ∈ [(Instr.credit l f, (15 : Byte)), (.ckptAck l f, 3), (.receipt l f, 4), (.targetConfirm l f, 4),
        (.releaseAck l f, 6), (.withdrawAck l f, 8), (.status l f, 10), (.rollAnswer l f, 12), (.echo l f, 14),
        (.outboundKindReceived l k f, k)] →
      let only (t : State) (n : LinkCounters) : Prop :=
        t.link l = { s.link l with counters := n } ∧ (∀ m, m ≠ l → t.link m = s.link m) ∧
        t = { s with links := t.links, order := t.order, bus := t.bus }
      let n := (s.link l).received.counters
      ((s.link l).state = .disabled ∨ (s.link l).state = .down → exec c s = .next s) ∧
      ((s.link l).state = .up ∨ (s.link l).state = .connecting →
        (frameSound kind f = false → Runs c s fun t => only t { n with crcRejects := satInc n.crcRejects } ∧ t.order = s.order) ∧
        (frameSound kind f = true → f.dest ≠ 0 ∨ kind ∉ [(3 : Byte), 4, 6, 8, 10, 12, 14, 15] → Runs c s fun t =>
          only t { n with misrouted := satInc n.misrouted } ∧ Raised t .inbound) ∧
        (frameSound kind f = true → f.dest = 0 → kind ∈ [(3 : Byte), 4, 6, 8, 10, 12, 14, 15] → sourceOf s l kind f = none →
          Runs c s fun t => only t { n with unknownSource := satInc n.unknownSource } ∧ t.order = s.order) ∧
        (frameSound kind f = true → f.dest = 0 → kind ∈ [(3 : Byte), 4, 6, 8, 10, 12, 14] → sourceOf s l kind f ≠ none →
          (s.link l).state = .connecting → Runs c s fun t => only t n ∧ t.order = s.order ∧ t.bus = s.bus)) ∧
      (∀ m, FromLine s l kind f m → kind ∈ [(3 : Byte), 4, 6, 8, 10] → 1088 ≤ f.tag.toNat → f.flags.getLsbD 3 = false →
        Runs c s fun t => t.link l = { s.link l with
            counters := { n with staleTag := satInc n.staleTag }, silence := some (s.link l).silenceLimit } ∧
          (∀ j, j ≠ l → t.link j = s.link j) ∧ t = { s with links := t.links, bus := t.bus })

/-- A STATUS for an outstanding query is stored and sets the line READY or HELD, with H 0 on TARGET_LOST, and the query's orders are
DONE, REPLY (R66, R130, R134, R158); a line made READY has its link pick (R77, R132); without a query, or with a
tag of 1,088 or more (log entry 19), it is a stale tag (R149). A frame of the line that carries SERVICE has the line asked, unless a
query is outstanding, whatever the fourth check finds (R148, R157); that a STATUS which carries it is taken as that query's reply is
DEDUCED (log entry 33). -/
def Obligations.StatusReceived : Prop :=
  ∀ (s : State) (l : LinkId) (f : InFrame) (n : LineId),
    (FromLine s l 10 f n →
      let b : Byte := f.value.setWidth 8
      let st : LineState := if b.getLsbD 0 = true ∧ b.getLsbD 1 = false then .ready else .held
      (∀ q, (s.line n).query = some q → f.tag.toNat < 1088 → Runs (.status l f) s fun t =>
        (t.line n).statusByte = b ∧ (t.line n).timeouts = 0 ∧ (t.line n).query = none ∧ (t.line n).state = st ∧
        (t.line n).held = (if b.getLsbD 2 = true then 0 else (s.line n).held) ∧
        (if st ≠ (s.line n).state ∨ b ≠ (s.line n).statusByte
          then (t.line n).changeCount = satInc (s.line n).changeCount ∧ Raised t .lineChanged
          else (t.line n).changeCount = (s.line n).changeCount) ∧
        (b.getLsbD 2 = false → st = .ready → (s.line n).state ≠ .ready → (s.link l).sending = none →
          (t.link l).sending = (s.link l).queue.find? fun y => xferReady s y || xferLine s y == some n) ∧
        ∀ x ∈ q.pending, Disposed s t x .done 0) ∧
      ((s.line n).query = none ∨ 1088 ≤ f.tag.toNat → f.flags.getLsbD 3 = false → Runs (.status l f) s fun t =>
        t.lines = s.lines ∧ (t.link l).counters = { (s.link l).received.counters with
          staleTag := satInc (s.link l).counters.staleTag }) ∧
      ((s.line n).query = none → f.flags.getLsbD 3 = true → f.tag.toNat < 1088 → Runs (.status l f) s fun t =>
        (t.line n).statusByte = b ∧ (t.line n).query = none ∧ (t.line n).state = st)) ∧
    ∀ c kind, (c, kind) ∈ [(Instr.ckptAck l f, (3 : Byte)), (.receipt l f, 4), (.targetConfirm l f, 4), (.releaseAck l f, 6),
        (.withdrawAck l f, 8), (.status l f, 10)] → FromLine s l kind f n → f.flags.getLsbD 3 = true →
      (kind = 10 → 1088 ≤ f.tag.toNat) → Runs c s fun t =>
        ((s.line n).query = none → (t.line n).query = some ⟨500, []⟩ ∧ (t.line n).requery = none ∧ Offered t l (.query n)) ∧
        ∀ q, (s.line n).query = some q → (t.line n).query = some q ∧ (t.line n).requery = (s.line n).requery

/-- A ROLL_ANSWER adds its mask to an open window (R154), and the window's close gives each line the result of its table, asks the
lines with the result query, and makes the window's orders DONE, CLOSED (R155). That ROLL_WINDOW_CLOSE acts only on a timer that
stands at 0 (log entry 3), and that an answer with a tag of 1,088 or more is a stale tag (log entry 19), are the model's. -/
def Obligations.RollCalls : Prop :=
  ∀ (s : State) (l : LinkId),
    (∀ f : InFrame, frameSound 12 f = true → f.dest = 0 → (s.link l).state = .up →
      (∃ n, (s.line n).enabled = true ∧ (s.line n).cfg.link = l ∧ (s.line n).cfg.primary = f.src >>> 3) →
      Runs (.rollAnswer l f) s fun t => (t.link l).silence = some (s.link l).silenceLimit ∧
        (∀ w, (s.link l).roll = some w → f.tag.toNat < 1088 → t = { s with links := t.links } ∧
          (t.link l).roll = some { w with mask := w.mask ||| BitVec.ofNat 64 (beNat f.payload), answers := min (w.answers + 1) 65535 }) ∧
        ((s.link l).roll = none ∨ 1088 ≤ f.tag.toNat → (t.link l).roll = (s.link l).roll ∧
          (t.link l).counters = { (s.link l).received.counters with
          staleTag := satInc (s.link l).counters.staleTag })) ∧
    ((∀ w, (s.link l).roll = some w → w.timer ≠ 0) → exec (.rollWindowClose l) s = .next s) ∧
    ∀ w, (s.link l).roll = some w → w.timer = 0 → Runs (.rollWindowClose l) s fun t =>
      (t.link l).roll = none ∧ (∀ x ∈ w.pending, Disposed s t x .done 0) ∧
      ∀ n, (s.line n).enabled = true → (s.line n).cfg.link = l →
        let bit := w.mask.getLsbD (s.line n).cfg.rollBit.val
        let mate (m : LineId) : Prop :=
          (s.line m).enabled = true ∧ (s.line m).cfg.link = l ∧ (s.line m).cfg.rollBit = (s.line n).cfg.rollBit
        let shared := ∃ m, m ≠ n ∧ mate m
        let asked : Prop := (t.line n).state = (s.line n).state ∧ ((s.link l).state = .up → (t.line n).query ≠ none)
        (w.answers = 0 → asked) ∧
        (w.answers ≠ 0 → ¬ shared → match (s.line n).cfg.sense, bit with
          | true, true => (t.line n).state = .ready
          | true, false => (t.line n).state = .unknown
          | false, true => (t.line n).state = .held
          | false, false => asked) ∧
        (w.answers ≠ 0 → shared →
          if bit = false ∧ ∀ m, mate m → (s.line m).cfg.sense = true then (t.line n).state = .unknown else asked)

/-- A query timer that has run out makes the line UNKNOWN with one timeout more, and its orders DONE, TIMEOUT (R131, R159); a
re-query timer that has run out asks a line with live work, and starts again without it (R160). That QUERY_TIMEOUT and
REQUERY_TIMEOUT change nothing where the timer does not stand at 0 is the model's choice (log entry 3). -/
def Obligations.QueryTimers : Prop :=
  ∀ (s : State) (n : LineId),
    (∀ q, (s.line n).query = some q → q.timer = 0 → Runs (.queryTimeout n) s fun t =>
      (t.line n).state = .unknown ∧ (t.line n).timeouts = min ((s.line n).timeouts + 1) 255 ∧ (t.line n).query = none ∧
      (t.line n).requery = (if (s.link (s.linkOf n)).state = .up then some 5000 else none) ∧
      (t.line n).statusByte = (s.line n).statusByte ∧
      ((s.line n).state ≠ .unknown → Raised t .lineChanged) ∧ ∀ x ∈ q.pending, Disposed s t x .done 1) ∧
    ((∀ q, (s.line n).query = some q → q.timer ≠ 0) → exec (.queryTimeout n) s = .next s) ∧
    let live := (∃ i r, (i, r) ∈ s.recs ∧ r.line = n ∧ r.state.isFinal = false) ∨ (s.line n).slot ≠ none
    ((s.line n).requery = some 0 → live → (s.line n).query = none → (s.link (s.linkOf n)).state = .up →
      Runs (.requeryTimeout n) s fun t => t.line n = { s.line n with query := some ⟨500, []⟩, requery := none }) ∧
    ((s.line n).requery = some 0 → ¬ live → Runs (.requeryTimeout n) s fun t =>
      t.line n = { s.line n with requery := some 5000 } ∧ t = { s with lines := t.lines }) ∧
    ((s.line n).requery ≠ some 0 → exec (.requeryTimeout n) s = .next s)

end Statements
end

