-- ==== Sys2Proof/Laws/State.lean ====
section
/-! SUPPORT. What each updater of Machine/Ops.lean leaves in each field of the state, and the read views after it. -/

namespace Sys2Proof.Machine

variable (s : State)

@[simp] theorem State.modOrder_pending (f : OrderUnit → OrderUnit) : (s.modOrder f).pending = s.pending := rfl
@[simp] theorem State.modOrder_order (f : OrderUnit → OrderUnit) : (s.modOrder f).order = f s.order := rfl
@[simp] theorem State.modOrder_counters (f : OrderUnit → OrderUnit) : (s.modOrder f).counters = s.counters := rfl
@[simp] theorem State.modOrder_clock (f : OrderUnit → OrderUnit) : (s.modOrder f).clock = s.clock := rfl
@[simp] theorem State.modOrder_pages (f : OrderUnit → OrderUnit) : (s.modOrder f).pages = s.pages := rfl
@[simp] theorem State.modOrder_verify (f : OrderUnit → OrderUnit) : (s.modOrder f).verify = s.verify := rfl
@[simp] theorem State.modOrder_recs (f : OrderUnit → OrderUnit) : (s.modOrder f).recs = s.recs := rfl
@[simp] theorem State.modOrder_free (f : OrderUnit → OrderUnit) : (s.modOrder f).free = s.free := rfl
@[simp] theorem State.modOrder_deadlines (f : OrderUnit → OrderUnit) : (s.modOrder f).deadlines = s.deadlines := rfl
@[simp] theorem State.modOrder_lines (f : OrderUnit → OrderUnit) : (s.modOrder f).lines = s.lines := rfl
@[simp] theorem State.modOrder_targetOrders (f : OrderUnit → OrderUnit) : (s.modOrder f).targetOrders = s.targetOrders := rfl
@[simp] theorem State.modOrder_links (f : OrderUnit → OrderUnit) : (s.modOrder f).links = s.links := rfl
@[simp] theorem State.modOrder_seqNext (f : OrderUnit → OrderUnit) : (s.modOrder f).seqNext = s.seqNext := rfl
@[simp] theorem State.modOrder_bus (f : OrderUnit → OrderUnit) : (s.modOrder f).bus = s.bus := rfl
@[simp] theorem State.modOrder_readData (f : OrderUnit → OrderUnit) : (s.modOrder f).readData = s.readData := rfl
@[simp] theorem State.modOrder_freeDraws (f : OrderUnit → OrderUnit) : (s.modOrder f).freeDraws = s.freeDraws := rfl

@[simp] theorem State.modClock_pending (f : Clock → Clock) : (s.modClock f).pending = s.pending := rfl
@[simp] theorem State.modClock_order (f : Clock → Clock) : (s.modClock f).order = s.order := rfl
@[simp] theorem State.modClock_counters (f : Clock → Clock) : (s.modClock f).counters = s.counters := rfl
@[simp] theorem State.modClock_clock (f : Clock → Clock) : (s.modClock f).clock = f s.clock := rfl
@[simp] theorem State.modClock_pages (f : Clock → Clock) : (s.modClock f).pages = s.pages := rfl
@[simp] theorem State.modClock_verify (f : Clock → Clock) : (s.modClock f).verify = s.verify := rfl
@[simp] theorem State.modClock_recs (f : Clock → Clock) : (s.modClock f).recs = s.recs := rfl
@[simp] theorem State.modClock_free (f : Clock → Clock) : (s.modClock f).free = s.free := rfl
@[simp] theorem State.modClock_deadlines (f : Clock → Clock) : (s.modClock f).deadlines = s.deadlines := rfl
@[simp] theorem State.modClock_lines (f : Clock → Clock) : (s.modClock f).lines = s.lines := rfl
@[simp] theorem State.modClock_targetOrders (f : Clock → Clock) : (s.modClock f).targetOrders = s.targetOrders := rfl
@[simp] theorem State.modClock_links (f : Clock → Clock) : (s.modClock f).links = s.links := rfl
@[simp] theorem State.modClock_seqNext (f : Clock → Clock) : (s.modClock f).seqNext = s.seqNext := rfl
@[simp] theorem State.modClock_bus (f : Clock → Clock) : (s.modClock f).bus = s.bus := rfl
@[simp] theorem State.modClock_readData (f : Clock → Clock) : (s.modClock f).readData = s.readData := rfl
@[simp] theorem State.modClock_freeDraws (f : Clock → Clock) : (s.modClock f).freeDraws = s.freeDraws := rfl

@[simp] theorem State.modVerify_pending (f : VerifyEngine → VerifyEngine) : (s.modVerify f).pending = s.pending := rfl
@[simp] theorem State.modVerify_order (f : VerifyEngine → VerifyEngine) : (s.modVerify f).order = s.order := rfl
@[simp] theorem State.modVerify_counters (f : VerifyEngine → VerifyEngine) : (s.modVerify f).counters = s.counters := rfl
@[simp] theorem State.modVerify_clock (f : VerifyEngine → VerifyEngine) : (s.modVerify f).clock = s.clock := rfl
@[simp] theorem State.modVerify_pages (f : VerifyEngine → VerifyEngine) : (s.modVerify f).pages = s.pages := rfl
@[simp] theorem State.modVerify_verify (f : VerifyEngine → VerifyEngine) : (s.modVerify f).verify = f s.verify := rfl
@[simp] theorem State.modVerify_recs (f : VerifyEngine → VerifyEngine) : (s.modVerify f).recs = s.recs := rfl
@[simp] theorem State.modVerify_free (f : VerifyEngine → VerifyEngine) : (s.modVerify f).free = s.free := rfl
@[simp] theorem State.modVerify_deadlines (f : VerifyEngine → VerifyEngine) : (s.modVerify f).deadlines = s.deadlines := rfl
@[simp] theorem State.modVerify_lines (f : VerifyEngine → VerifyEngine) : (s.modVerify f).lines = s.lines := rfl
@[simp] theorem State.modVerify_targetOrders (f : VerifyEngine → VerifyEngine) : (s.modVerify f).targetOrders = s.targetOrders := rfl
@[simp] theorem State.modVerify_links (f : VerifyEngine → VerifyEngine) : (s.modVerify f).links = s.links := rfl
@[simp] theorem State.modVerify_seqNext (f : VerifyEngine → VerifyEngine) : (s.modVerify f).seqNext = s.seqNext := rfl
@[simp] theorem State.modVerify_bus (f : VerifyEngine → VerifyEngine) : (s.modVerify f).bus = s.bus := rfl
@[simp] theorem State.modVerify_readData (f : VerifyEngine → VerifyEngine) : (s.modVerify f).readData = s.readData := rfl
@[simp] theorem State.modVerify_freeDraws (f : VerifyEngine → VerifyEngine) : (s.modVerify f).freeDraws = s.freeDraws := rfl

@[simp] theorem State.modLine_pending (n : LineId) (f : Line → Line) : (s.modLine n f).pending = s.pending := rfl
@[simp] theorem State.modLine_order (n : LineId) (f : Line → Line) : (s.modLine n f).order = s.order := rfl
@[simp] theorem State.modLine_counters (n : LineId) (f : Line → Line) : (s.modLine n f).counters = s.counters := rfl
@[simp] theorem State.modLine_clock (n : LineId) (f : Line → Line) : (s.modLine n f).clock = s.clock := rfl
@[simp] theorem State.modLine_pages (n : LineId) (f : Line → Line) : (s.modLine n f).pages = s.pages := rfl
@[simp] theorem State.modLine_verify (n : LineId) (f : Line → Line) : (s.modLine n f).verify = s.verify := rfl
@[simp] theorem State.modLine_recs (n : LineId) (f : Line → Line) : (s.modLine n f).recs = s.recs := rfl
@[simp] theorem State.modLine_free (n : LineId) (f : Line → Line) : (s.modLine n f).free = s.free := rfl
@[simp] theorem State.modLine_deadlines (n : LineId) (f : Line → Line) : (s.modLine n f).deadlines = s.deadlines := rfl
@[simp] theorem State.modLine_targetOrders (n : LineId) (f : Line → Line) : (s.modLine n f).targetOrders = s.targetOrders := rfl
@[simp] theorem State.modLine_links (n : LineId) (f : Line → Line) : (s.modLine n f).links = s.links := rfl
@[simp] theorem State.modLine_seqNext (n : LineId) (f : Line → Line) : (s.modLine n f).seqNext = s.seqNext := rfl
@[simp] theorem State.modLine_bus (n : LineId) (f : Line → Line) : (s.modLine n f).bus = s.bus := rfl
@[simp] theorem State.modLine_readData (n : LineId) (f : Line → Line) : (s.modLine n f).readData = s.readData := rfl
@[simp] theorem State.modLine_freeDraws (n : LineId) (f : Line → Line) : (s.modLine n f).freeDraws = s.freeDraws := rfl

@[simp] theorem State.modLink_pending (l : LinkId) (f : Link → Link) : (s.modLink l f).pending = s.pending := rfl
@[simp] theorem State.modLink_order (l : LinkId) (f : Link → Link) : (s.modLink l f).order = s.order := rfl
@[simp] theorem State.modLink_counters (l : LinkId) (f : Link → Link) : (s.modLink l f).counters = s.counters := rfl
@[simp] theorem State.modLink_clock (l : LinkId) (f : Link → Link) : (s.modLink l f).clock = s.clock := rfl
@[simp] theorem State.modLink_pages (l : LinkId) (f : Link → Link) : (s.modLink l f).pages = s.pages := rfl
@[simp] theorem State.modLink_verify (l : LinkId) (f : Link → Link) : (s.modLink l f).verify = s.verify := rfl
@[simp] theorem State.modLink_recs (l : LinkId) (f : Link → Link) : (s.modLink l f).recs = s.recs := rfl
@[simp] theorem State.modLink_free (l : LinkId) (f : Link → Link) : (s.modLink l f).free = s.free := rfl
@[simp] theorem State.modLink_deadlines (l : LinkId) (f : Link → Link) : (s.modLink l f).deadlines = s.deadlines := rfl
@[simp] theorem State.modLink_lines (l : LinkId) (f : Link → Link) : (s.modLink l f).lines = s.lines := rfl
@[simp] theorem State.modLink_targetOrders (l : LinkId) (f : Link → Link) : (s.modLink l f).targetOrders = s.targetOrders := rfl
@[simp] theorem State.modLink_seqNext (l : LinkId) (f : Link → Link) : (s.modLink l f).seqNext = s.seqNext := rfl
@[simp] theorem State.modLink_bus (l : LinkId) (f : Link → Link) : (s.modLink l f).bus = s.bus := rfl
@[simp] theorem State.modLink_readData (l : LinkId) (f : Link → Link) : (s.modLink l f).readData = s.readData := rfl
@[simp] theorem State.modLink_freeDraws (l : LinkId) (f : Link → Link) : (s.modLink l f).freeDraws = s.freeDraws := rfl

@[simp] theorem State.modRec_pending (n : Nat) (f : DestRec → DestRec) : (s.modRec n f).pending = s.pending := rfl
@[simp] theorem State.modRec_order (n : Nat) (f : DestRec → DestRec) : (s.modRec n f).order = s.order := rfl
@[simp] theorem State.modRec_counters (n : Nat) (f : DestRec → DestRec) : (s.modRec n f).counters = s.counters := rfl
@[simp] theorem State.modRec_clock (n : Nat) (f : DestRec → DestRec) : (s.modRec n f).clock = s.clock := rfl
@[simp] theorem State.modRec_pages (n : Nat) (f : DestRec → DestRec) : (s.modRec n f).pages = s.pages := rfl
@[simp] theorem State.modRec_verify (n : Nat) (f : DestRec → DestRec) : (s.modRec n f).verify = s.verify := rfl
@[simp] theorem State.modRec_recs (n : Nat) (f : DestRec → DestRec) : (s.modRec n f).recs = Table.modify s.recs n f := rfl
@[simp] theorem State.modRec_free (n : Nat) (f : DestRec → DestRec) : (s.modRec n f).free = s.free := rfl
@[simp] theorem State.modRec_deadlines (n : Nat) (f : DestRec → DestRec) : (s.modRec n f).deadlines = s.deadlines := rfl
@[simp] theorem State.modRec_lines (n : Nat) (f : DestRec → DestRec) : (s.modRec n f).lines = s.lines := rfl
@[simp] theorem State.modRec_targetOrders (n : Nat) (f : DestRec → DestRec) : (s.modRec n f).targetOrders = s.targetOrders := rfl
@[simp] theorem State.modRec_links (n : Nat) (f : DestRec → DestRec) : (s.modRec n f).links = s.links := rfl
@[simp] theorem State.modRec_seqNext (n : Nat) (f : DestRec → DestRec) : (s.modRec n f).seqNext = s.seqNext := rfl
@[simp] theorem State.modRec_bus (n : Nat) (f : DestRec → DestRec) : (s.modRec n f).bus = s.bus := rfl
@[simp] theorem State.modRec_readData (n : Nat) (f : DestRec → DestRec) : (s.modRec n f).readData = s.readData := rfl
@[simp] theorem State.modRec_freeDraws (n : Nat) (f : DestRec → DestRec) : (s.modRec n f).freeDraws = s.freeDraws := rfl

@[simp] theorem State.putRec_pending (n : Nat) (r : DestRec) : (s.putRec n r).pending = s.pending := rfl
@[simp] theorem State.putRec_order (n : Nat) (r : DestRec) : (s.putRec n r).order = s.order := rfl
@[simp] theorem State.putRec_counters (n : Nat) (r : DestRec) : (s.putRec n r).counters = s.counters := rfl
@[simp] theorem State.putRec_clock (n : Nat) (r : DestRec) : (s.putRec n r).clock = s.clock := rfl
@[simp] theorem State.putRec_pages (n : Nat) (r : DestRec) : (s.putRec n r).pages = s.pages := rfl
@[simp] theorem State.putRec_verify (n : Nat) (r : DestRec) : (s.putRec n r).verify = s.verify := rfl
@[simp] theorem State.putRec_recs (n : Nat) (r : DestRec) : (s.putRec n r).recs = Table.put s.recs n r := rfl
@[simp] theorem State.putRec_free (n : Nat) (r : DestRec) : (s.putRec n r).free = s.free := rfl
@[simp] theorem State.putRec_deadlines (n : Nat) (r : DestRec) : (s.putRec n r).deadlines = s.deadlines := rfl
@[simp] theorem State.putRec_lines (n : Nat) (r : DestRec) : (s.putRec n r).lines = s.lines := rfl
@[simp] theorem State.putRec_targetOrders (n : Nat) (r : DestRec) : (s.putRec n r).targetOrders = s.targetOrders := rfl
@[simp] theorem State.putRec_links (n : Nat) (r : DestRec) : (s.putRec n r).links = s.links := rfl
@[simp] theorem State.putRec_seqNext (n : Nat) (r : DestRec) : (s.putRec n r).seqNext = s.seqNext := rfl
@[simp] theorem State.putRec_bus (n : Nat) (r : DestRec) : (s.putRec n r).bus = s.bus := rfl
@[simp] theorem State.putRec_readData (n : Nat) (r : DestRec) : (s.putRec n r).readData = s.readData := rfl
@[simp] theorem State.putRec_freeDraws (n : Nat) (r : DestRec) : (s.putRec n r).freeDraws = s.freeDraws := rfl

@[simp] theorem State.delRec_pending (n : Nat) : (s.delRec n).pending = s.pending := rfl
@[simp] theorem State.delRec_order (n : Nat) : (s.delRec n).order = s.order := rfl
@[simp] theorem State.delRec_counters (n : Nat) : (s.delRec n).counters = s.counters := rfl
@[simp] theorem State.delRec_clock (n : Nat) : (s.delRec n).clock = s.clock := rfl
@[simp] theorem State.delRec_pages (n : Nat) : (s.delRec n).pages = s.pages := rfl
@[simp] theorem State.delRec_verify (n : Nat) : (s.delRec n).verify = s.verify := rfl
@[simp] theorem State.delRec_recs (n : Nat) : (s.delRec n).recs = Table.del s.recs n := rfl
@[simp] theorem State.delRec_free (n : Nat) : (s.delRec n).free = s.free := rfl
@[simp] theorem State.delRec_deadlines (n : Nat) : (s.delRec n).deadlines = s.deadlines := rfl
@[simp] theorem State.delRec_lines (n : Nat) : (s.delRec n).lines = s.lines := rfl
@[simp] theorem State.delRec_targetOrders (n : Nat) : (s.delRec n).targetOrders = s.targetOrders := rfl
@[simp] theorem State.delRec_links (n : Nat) : (s.delRec n).links = s.links := rfl
@[simp] theorem State.delRec_seqNext (n : Nat) : (s.delRec n).seqNext = s.seqNext := rfl
@[simp] theorem State.delRec_bus (n : Nat) : (s.delRec n).bus = s.bus := rfl
@[simp] theorem State.delRec_readData (n : Nat) : (s.delRec n).readData = s.readData := rfl
@[simp] theorem State.delRec_freeDraws (n : Nat) : (s.delRec n).freeDraws = s.freeDraws := rfl

@[simp] theorem State.modPage_pending (p : Nat) (f : Page → Page) : (s.modPage p f).pending = s.pending := rfl
@[simp] theorem State.modPage_order (p : Nat) (f : Page → Page) : (s.modPage p f).order = s.order := rfl
@[simp] theorem State.modPage_counters (p : Nat) (f : Page → Page) : (s.modPage p f).counters = s.counters := rfl
@[simp] theorem State.modPage_clock (p : Nat) (f : Page → Page) : (s.modPage p f).clock = s.clock := rfl
@[simp] theorem State.modPage_pages (p : Nat) (f : Page → Page) : (s.modPage p f).pages = Table.modify s.pages p f := rfl
@[simp] theorem State.modPage_verify (p : Nat) (f : Page → Page) : (s.modPage p f).verify = s.verify := rfl
@[simp] theorem State.modPage_recs (p : Nat) (f : Page → Page) : (s.modPage p f).recs = s.recs := rfl
@[simp] theorem State.modPage_free (p : Nat) (f : Page → Page) : (s.modPage p f).free = s.free := rfl
@[simp] theorem State.modPage_deadlines (p : Nat) (f : Page → Page) : (s.modPage p f).deadlines = s.deadlines := rfl
@[simp] theorem State.modPage_lines (p : Nat) (f : Page → Page) : (s.modPage p f).lines = s.lines := rfl
@[simp] theorem State.modPage_targetOrders (p : Nat) (f : Page → Page) : (s.modPage p f).targetOrders = s.targetOrders := rfl
@[simp] theorem State.modPage_links (p : Nat) (f : Page → Page) : (s.modPage p f).links = s.links := rfl
@[simp] theorem State.modPage_seqNext (p : Nat) (f : Page → Page) : (s.modPage p f).seqNext = s.seqNext := rfl
@[simp] theorem State.modPage_bus (p : Nat) (f : Page → Page) : (s.modPage p f).bus = s.bus := rfl
@[simp] theorem State.modPage_readData (p : Nat) (f : Page → Page) : (s.modPage p f).readData = s.readData := rfl
@[simp] theorem State.modPage_freeDraws (p : Nat) (f : Page → Page) : (s.modPage p f).freeDraws = s.freeDraws := rfl

@[simp] theorem State.putPage_pending (p : Nat) (e : Page) : (s.putPage p e).pending = s.pending := rfl
@[simp] theorem State.putPage_order (p : Nat) (e : Page) : (s.putPage p e).order = s.order := rfl
@[simp] theorem State.putPage_counters (p : Nat) (e : Page) : (s.putPage p e).counters = s.counters := rfl
@[simp] theorem State.putPage_clock (p : Nat) (e : Page) : (s.putPage p e).clock = s.clock := rfl
@[simp] theorem State.putPage_pages (p : Nat) (e : Page) : (s.putPage p e).pages = Table.put s.pages p e := rfl
@[simp] theorem State.putPage_verify (p : Nat) (e : Page) : (s.putPage p e).verify = s.verify := rfl
@[simp] theorem State.putPage_recs (p : Nat) (e : Page) : (s.putPage p e).recs = s.recs := rfl
@[simp] theorem State.putPage_free (p : Nat) (e : Page) : (s.putPage p e).free = s.free := rfl
@[simp] theorem State.putPage_deadlines (p : Nat) (e : Page) : (s.putPage p e).deadlines = s.deadlines := rfl
@[simp] theorem State.putPage_lines (p : Nat) (e : Page) : (s.putPage p e).lines = s.lines := rfl
@[simp] theorem State.putPage_targetOrders (p : Nat) (e : Page) : (s.putPage p e).targetOrders = s.targetOrders := rfl
@[simp] theorem State.putPage_links (p : Nat) (e : Page) : (s.putPage p e).links = s.links := rfl
@[simp] theorem State.putPage_seqNext (p : Nat) (e : Page) : (s.putPage p e).seqNext = s.seqNext := rfl
@[simp] theorem State.putPage_bus (p : Nat) (e : Page) : (s.putPage p e).bus = s.bus := rfl
@[simp] theorem State.putPage_readData (p : Nat) (e : Page) : (s.putPage p e).readData = s.readData := rfl
@[simp] theorem State.putPage_freeDraws (p : Nat) (e : Page) : (s.putPage p e).freeDraws = s.freeDraws := rfl

@[simp] theorem State.delPage_pending (p : Nat) : (s.delPage p).pending = s.pending := rfl
@[simp] theorem State.delPage_order (p : Nat) : (s.delPage p).order = s.order := rfl
@[simp] theorem State.delPage_counters (p : Nat) : (s.delPage p).counters = s.counters := rfl
@[simp] theorem State.delPage_clock (p : Nat) : (s.delPage p).clock = s.clock := rfl
@[simp] theorem State.delPage_pages (p : Nat) : (s.delPage p).pages = Table.del s.pages p := rfl
@[simp] theorem State.delPage_verify (p : Nat) : (s.delPage p).verify = s.verify := rfl
@[simp] theorem State.delPage_recs (p : Nat) : (s.delPage p).recs = s.recs := rfl
@[simp] theorem State.delPage_free (p : Nat) : (s.delPage p).free = s.free := rfl
@[simp] theorem State.delPage_deadlines (p : Nat) : (s.delPage p).deadlines = s.deadlines := rfl
@[simp] theorem State.delPage_lines (p : Nat) : (s.delPage p).lines = s.lines := rfl
@[simp] theorem State.delPage_targetOrders (p : Nat) : (s.delPage p).targetOrders = s.targetOrders := rfl
@[simp] theorem State.delPage_links (p : Nat) : (s.delPage p).links = s.links := rfl
@[simp] theorem State.delPage_seqNext (p : Nat) : (s.delPage p).seqNext = s.seqNext := rfl
@[simp] theorem State.delPage_bus (p : Nat) : (s.delPage p).bus = s.bus := rfl
@[simp] theorem State.delPage_readData (p : Nat) : (s.delPage p).readData = s.readData := rfl
@[simp] theorem State.delPage_freeDraws (p : Nat) : (s.delPage p).freeDraws = s.freeDraws := rfl

@[simp] theorem State.setFree_pending (x : List Nat) : (s.setFree x).pending = s.pending := rfl
@[simp] theorem State.setFree_order (x : List Nat) : (s.setFree x).order = s.order := rfl
@[simp] theorem State.setFree_counters (x : List Nat) : (s.setFree x).counters = s.counters := rfl
@[simp] theorem State.setFree_clock (x : List Nat) : (s.setFree x).clock = s.clock := rfl
@[simp] theorem State.setFree_pages (x : List Nat) : (s.setFree x).pages = s.pages := rfl
@[simp] theorem State.setFree_verify (x : List Nat) : (s.setFree x).verify = s.verify := rfl
@[simp] theorem State.setFree_recs (x : List Nat) : (s.setFree x).recs = s.recs := rfl
@[simp] theorem State.setFree_free (x : List Nat) : (s.setFree x).free = x := rfl
@[simp] theorem State.setFree_deadlines (x : List Nat) : (s.setFree x).deadlines = s.deadlines := rfl
@[simp] theorem State.setFree_lines (x : List Nat) : (s.setFree x).lines = s.lines := rfl
@[simp] theorem State.setFree_targetOrders (x : List Nat) : (s.setFree x).targetOrders = s.targetOrders := rfl
@[simp] theorem State.setFree_links (x : List Nat) : (s.setFree x).links = s.links := rfl
@[simp] theorem State.setFree_seqNext (x : List Nat) : (s.setFree x).seqNext = s.seqNext := rfl
@[simp] theorem State.setFree_bus (x : List Nat) : (s.setFree x).bus = s.bus := rfl
@[simp] theorem State.setFree_readData (x : List Nat) : (s.setFree x).readData = s.readData := rfl
@[simp] theorem State.setFree_freeDraws (x : List Nat) : (s.setFree x).freeDraws = s.freeDraws := rfl

@[simp] theorem State.setDeadlines_pending (d : List DeadlineEntry) : (s.setDeadlines d).pending = s.pending := rfl
@[simp] theorem State.setDeadlines_order (d : List DeadlineEntry) : (s.setDeadlines d).order = s.order := rfl
@[simp] theorem State.setDeadlines_counters (d : List DeadlineEntry) : (s.setDeadlines d).counters = s.counters := rfl
@[simp] theorem State.setDeadlines_clock (d : List DeadlineEntry) : (s.setDeadlines d).clock = s.clock := rfl
@[simp] theorem State.setDeadlines_pages (d : List DeadlineEntry) : (s.setDeadlines d).pages = s.pages := rfl
@[simp] theorem State.setDeadlines_verify (d : List DeadlineEntry) : (s.setDeadlines d).verify = s.verify := rfl
@[simp] theorem State.setDeadlines_recs (d : List DeadlineEntry) : (s.setDeadlines d).recs = s.recs := rfl
@[simp] theorem State.setDeadlines_free (d : List DeadlineEntry) : (s.setDeadlines d).free = s.free := rfl
@[simp] theorem State.setDeadlines_deadlines (d : List DeadlineEntry) : (s.setDeadlines d).deadlines = d := rfl
@[simp] theorem State.setDeadlines_lines (d : List DeadlineEntry) : (s.setDeadlines d).lines = s.lines := rfl
@[simp] theorem State.setDeadlines_targetOrders (d : List DeadlineEntry) : (s.setDeadlines d).targetOrders = s.targetOrders := rfl
@[simp] theorem State.setDeadlines_links (d : List DeadlineEntry) : (s.setDeadlines d).links = s.links := rfl
@[simp] theorem State.setDeadlines_seqNext (d : List DeadlineEntry) : (s.setDeadlines d).seqNext = s.seqNext := rfl
@[simp] theorem State.setDeadlines_bus (d : List DeadlineEntry) : (s.setDeadlines d).bus = s.bus := rfl
@[simp] theorem State.setDeadlines_readData (d : List DeadlineEntry) : (s.setDeadlines d).readData = s.readData := rfl
@[simp] theorem State.setDeadlines_freeDraws (d : List DeadlineEntry) : (s.setDeadlines d).freeDraws = s.freeDraws := rfl

@[simp] theorem State.setCounters_pending (c : DeskCounters) : (s.setCounters c).pending = s.pending := rfl
@[simp] theorem State.setCounters_order (c : DeskCounters) : (s.setCounters c).order = s.order := rfl
@[simp] theorem State.setCounters_counters (c : DeskCounters) : (s.setCounters c).counters = c := rfl
@[simp] theorem State.setCounters_clock (c : DeskCounters) : (s.setCounters c).clock = s.clock := rfl
@[simp] theorem State.setCounters_pages (c : DeskCounters) : (s.setCounters c).pages = s.pages := rfl
@[simp] theorem State.setCounters_verify (c : DeskCounters) : (s.setCounters c).verify = s.verify := rfl
@[simp] theorem State.setCounters_recs (c : DeskCounters) : (s.setCounters c).recs = s.recs := rfl
@[simp] theorem State.setCounters_free (c : DeskCounters) : (s.setCounters c).free = s.free := rfl
@[simp] theorem State.setCounters_deadlines (c : DeskCounters) : (s.setCounters c).deadlines = s.deadlines := rfl
@[simp] theorem State.setCounters_lines (c : DeskCounters) : (s.setCounters c).lines = s.lines := rfl
@[simp] theorem State.setCounters_targetOrders (c : DeskCounters) : (s.setCounters c).targetOrders = s.targetOrders := rfl
@[simp] theorem State.setCounters_links (c : DeskCounters) : (s.setCounters c).links = s.links := rfl
@[simp] theorem State.setCounters_seqNext (c : DeskCounters) : (s.setCounters c).seqNext = s.seqNext := rfl
@[simp] theorem State.setCounters_bus (c : DeskCounters) : (s.setCounters c).bus = s.bus := rfl
@[simp] theorem State.setCounters_readData (c : DeskCounters) : (s.setCounters c).readData = s.readData := rfl
@[simp] theorem State.setCounters_freeDraws (c : DeskCounters) : (s.setCounters c).freeDraws = s.freeDraws := rfl

@[simp] theorem State.setTargetOrders_pending (x : List TargetOrder) : (s.setTargetOrders x).pending = s.pending := rfl
@[simp] theorem State.setTargetOrders_order (x : List TargetOrder) : (s.setTargetOrders x).order = s.order := rfl
@[simp] theorem State.setTargetOrders_counters (x : List TargetOrder) : (s.setTargetOrders x).counters = s.counters := rfl
@[simp] theorem State.setTargetOrders_clock (x : List TargetOrder) : (s.setTargetOrders x).clock = s.clock := rfl
@[simp] theorem State.setTargetOrders_pages (x : List TargetOrder) : (s.setTargetOrders x).pages = s.pages := rfl
@[simp] theorem State.setTargetOrders_verify (x : List TargetOrder) : (s.setTargetOrders x).verify = s.verify := rfl
@[simp] theorem State.setTargetOrders_recs (x : List TargetOrder) : (s.setTargetOrders x).recs = s.recs := rfl
@[simp] theorem State.setTargetOrders_free (x : List TargetOrder) : (s.setTargetOrders x).free = s.free := rfl
@[simp] theorem State.setTargetOrders_deadlines (x : List TargetOrder) : (s.setTargetOrders x).deadlines = s.deadlines := rfl
@[simp] theorem State.setTargetOrders_lines (x : List TargetOrder) : (s.setTargetOrders x).lines = s.lines := rfl
@[simp] theorem State.setTargetOrders_targetOrders (x : List TargetOrder) : (s.setTargetOrders x).targetOrders = x := rfl
@[simp] theorem State.setTargetOrders_links (x : List TargetOrder) : (s.setTargetOrders x).links = s.links := rfl
@[simp] theorem State.setTargetOrders_seqNext (x : List TargetOrder) : (s.setTargetOrders x).seqNext = s.seqNext := rfl
@[simp] theorem State.setTargetOrders_bus (x : List TargetOrder) : (s.setTargetOrders x).bus = s.bus := rfl
@[simp] theorem State.setTargetOrders_readData (x : List TargetOrder) : (s.setTargetOrders x).readData = s.readData := rfl
@[simp] theorem State.setTargetOrders_freeDraws (x : List TargetOrder) : (s.setTargetOrders x).freeDraws = s.freeDraws := rfl

@[simp] theorem State.setSeq_pending (n : Nat) : (s.setSeq n).pending = s.pending := rfl
@[simp] theorem State.setSeq_order (n : Nat) : (s.setSeq n).order = s.order := rfl
@[simp] theorem State.setSeq_counters (n : Nat) : (s.setSeq n).counters = s.counters := rfl
@[simp] theorem State.setSeq_clock (n : Nat) : (s.setSeq n).clock = s.clock := rfl
@[simp] theorem State.setSeq_pages (n : Nat) : (s.setSeq n).pages = s.pages := rfl
@[simp] theorem State.setSeq_verify (n : Nat) : (s.setSeq n).verify = s.verify := rfl
@[simp] theorem State.setSeq_recs (n : Nat) : (s.setSeq n).recs = s.recs := rfl
@[simp] theorem State.setSeq_free (n : Nat) : (s.setSeq n).free = s.free := rfl
@[simp] theorem State.setSeq_deadlines (n : Nat) : (s.setSeq n).deadlines = s.deadlines := rfl
@[simp] theorem State.setSeq_lines (n : Nat) : (s.setSeq n).lines = s.lines := rfl
@[simp] theorem State.setSeq_targetOrders (n : Nat) : (s.setSeq n).targetOrders = s.targetOrders := rfl
@[simp] theorem State.setSeq_links (n : Nat) : (s.setSeq n).links = s.links := rfl
@[simp] theorem State.setSeq_seqNext (n : Nat) : (s.setSeq n).seqNext = n := rfl
@[simp] theorem State.setSeq_bus (n : Nat) : (s.setSeq n).bus = s.bus := rfl
@[simp] theorem State.setSeq_readData (n : Nat) : (s.setSeq n).readData = s.readData := rfl
@[simp] theorem State.setSeq_freeDraws (n : Nat) : (s.setSeq n).freeDraws = s.freeDraws := rfl

@[simp] theorem State.setReadData_pending (w : U32) : (s.setReadData w).pending = s.pending := rfl
@[simp] theorem State.setReadData_order (w : U32) : (s.setReadData w).order = s.order := rfl
@[simp] theorem State.setReadData_counters (w : U32) : (s.setReadData w).counters = s.counters := rfl
@[simp] theorem State.setReadData_clock (w : U32) : (s.setReadData w).clock = s.clock := rfl
@[simp] theorem State.setReadData_pages (w : U32) : (s.setReadData w).pages = s.pages := rfl
@[simp] theorem State.setReadData_verify (w : U32) : (s.setReadData w).verify = s.verify := rfl
@[simp] theorem State.setReadData_recs (w : U32) : (s.setReadData w).recs = s.recs := rfl
@[simp] theorem State.setReadData_free (w : U32) : (s.setReadData w).free = s.free := rfl
@[simp] theorem State.setReadData_deadlines (w : U32) : (s.setReadData w).deadlines = s.deadlines := rfl
@[simp] theorem State.setReadData_lines (w : U32) : (s.setReadData w).lines = s.lines := rfl
@[simp] theorem State.setReadData_targetOrders (w : U32) : (s.setReadData w).targetOrders = s.targetOrders := rfl
@[simp] theorem State.setReadData_links (w : U32) : (s.setReadData w).links = s.links := rfl
@[simp] theorem State.setReadData_seqNext (w : U32) : (s.setReadData w).seqNext = s.seqNext := rfl
@[simp] theorem State.setReadData_bus (w : U32) : (s.setReadData w).bus = s.bus := rfl
@[simp] theorem State.setReadData_readData (w : U32) : (s.setReadData w).readData = w := rfl
@[simp] theorem State.setReadData_freeDraws (w : U32) : (s.setReadData w).freeDraws = s.freeDraws := rfl

@[simp] theorem State.emit_pending (w : BusWrite) : (s.emit w).pending = s.pending := rfl
@[simp] theorem State.emit_order (w : BusWrite) : (s.emit w).order = s.order := rfl
@[simp] theorem State.emit_counters (w : BusWrite) : (s.emit w).counters = s.counters := rfl
@[simp] theorem State.emit_clock (w : BusWrite) : (s.emit w).clock = s.clock := rfl
@[simp] theorem State.emit_pages (w : BusWrite) : (s.emit w).pages = s.pages := rfl
@[simp] theorem State.emit_verify (w : BusWrite) : (s.emit w).verify = s.verify := rfl
@[simp] theorem State.emit_recs (w : BusWrite) : (s.emit w).recs = s.recs := rfl
@[simp] theorem State.emit_free (w : BusWrite) : (s.emit w).free = s.free := rfl
@[simp] theorem State.emit_deadlines (w : BusWrite) : (s.emit w).deadlines = s.deadlines := rfl
@[simp] theorem State.emit_lines (w : BusWrite) : (s.emit w).lines = s.lines := rfl
@[simp] theorem State.emit_targetOrders (w : BusWrite) : (s.emit w).targetOrders = s.targetOrders := rfl
@[simp] theorem State.emit_links (w : BusWrite) : (s.emit w).links = s.links := rfl
@[simp] theorem State.emit_seqNext (w : BusWrite) : (s.emit w).seqNext = s.seqNext := rfl
@[simp] theorem State.emit_bus (w : BusWrite) : (s.emit w).bus = w :: s.bus := rfl
@[simp] theorem State.emit_readData (w : BusWrite) : (s.emit w).readData = s.readData := rfl
@[simp] theorem State.emit_freeDraws (w : BusWrite) : (s.emit w).freeDraws = s.freeDraws := rfl

/-! ### One line, one link -/

theorem State.line_modLine (n m : LineId) (f : Line → Line) :
    (s.modLine n f).line m = if m = n then f (s.line n) else s.line m := by
  unfold State.line State.modLine
  simp only [Fin.getElem_fin]
  by_cases h : m = n
  · subst h; simp
  · have hv : n.val ≠ m.val := fun e => h (Fin.ext e.symm)
    rw [Vector.getElem_set_ne _ _ hv]; simp [h]

@[simp] theorem State.line_modLine_self (n : LineId) (f : Line → Line) :
    (s.modLine n f).line n = f (s.line n) := by
  simp [State.line_modLine]

@[simp] theorem State.link_modLink_self (l : LinkId) (f : Link → Link) :
    (s.modLink l f).link l = f (s.link l) := by
  simp [State.link, State.modLink]

theorem State.link_modLink (l m : LinkId) (f : Link → Link) :
    (s.modLink l f).link m = if m = l then f (s.link l) else s.link m := by
  unfold State.link State.modLink
  simp only [Fin.getElem_fin]
  by_cases h : m = l
  · subst h; simp
  · have hv : l.val ≠ m.val := fun e => h (Fin.ext e.symm)
    rw [Vector.getElem_set_ne _ _ hv]; simp [h]

@[simp] theorem State.line_modOrder (f : OrderUnit → OrderUnit) (n : LineId) : (s.modOrder f).line n = s.line n := rfl
@[simp] theorem State.line_modClock (f : Clock → Clock) (n : LineId) : (s.modClock f).line n = s.line n := rfl
@[simp] theorem State.line_modVerify (f : VerifyEngine → VerifyEngine) (n : LineId) : (s.modVerify f).line n = s.line n := rfl
@[simp] theorem State.line_modLink (l : LinkId) (f : Link → Link) (n : LineId) : (s.modLink l f).line n = s.line n := rfl
@[simp] theorem State.line_modRec (n : Nat) (f : DestRec → DestRec) (k : LineId) : (s.modRec n f).line k = s.line k := rfl
@[simp] theorem State.line_putRec (n : Nat) (r : DestRec) (k : LineId) : (s.putRec n r).line k = s.line k := rfl
@[simp] theorem State.line_delRec (n : Nat) (k : LineId) : (s.delRec n).line k = s.line k := rfl
@[simp] theorem State.line_modPage (p : Nat) (f : Page → Page) (n : LineId) : (s.modPage p f).line n = s.line n := rfl
@[simp] theorem State.line_putPage (p : Nat) (e : Page) (n : LineId) : (s.putPage p e).line n = s.line n := rfl
@[simp] theorem State.line_delPage (p : Nat) (n : LineId) : (s.delPage p).line n = s.line n := rfl
@[simp] theorem State.line_setFree (x : List Nat) (n : LineId) : (s.setFree x).line n = s.line n := rfl
@[simp] theorem State.line_setDeadlines (d : List DeadlineEntry) (n : LineId) : (s.setDeadlines d).line n = s.line n := rfl
@[simp] theorem State.line_setCounters (c : DeskCounters) (n : LineId) : (s.setCounters c).line n = s.line n := rfl
@[simp] theorem State.line_setTargetOrders (x : List TargetOrder) (n : LineId) : (s.setTargetOrders x).line n = s.line n := rfl
@[simp] theorem State.line_setSeq (n : Nat) (k : LineId) : (s.setSeq n).line k = s.line k := rfl
@[simp] theorem State.line_setReadData (w : U32) (n : LineId) : (s.setReadData w).line n = s.line n := rfl
@[simp] theorem State.line_emit (w : BusWrite) (n : LineId) : (s.emit w).line n = s.line n := rfl

@[simp] theorem State.link_modOrder (f : OrderUnit → OrderUnit) (m : LinkId) : (s.modOrder f).link m = s.link m := rfl
@[simp] theorem State.link_modClock (f : Clock → Clock) (m : LinkId) : (s.modClock f).link m = s.link m := rfl
@[simp] theorem State.link_modVerify (f : VerifyEngine → VerifyEngine) (m : LinkId) : (s.modVerify f).link m = s.link m := rfl
@[simp] theorem State.link_modLine (n : LineId) (f : Line → Line) (m : LinkId) : (s.modLine n f).link m = s.link m := rfl
@[simp] theorem State.link_modRec (n : Nat) (f : DestRec → DestRec) (m : LinkId) : (s.modRec n f).link m = s.link m := rfl
@[simp] theorem State.link_putRec (n : Nat) (r : DestRec) (m : LinkId) : (s.putRec n r).link m = s.link m := rfl
@[simp] theorem State.link_delRec (n : Nat) (m : LinkId) : (s.delRec n).link m = s.link m := rfl
@[simp] theorem State.link_modPage (p : Nat) (f : Page → Page) (m : LinkId) : (s.modPage p f).link m = s.link m := rfl
@[simp] theorem State.link_putPage (p : Nat) (e : Page) (m : LinkId) : (s.putPage p e).link m = s.link m := rfl
@[simp] theorem State.link_delPage (p : Nat) (m : LinkId) : (s.delPage p).link m = s.link m := rfl
@[simp] theorem State.link_setFree (x : List Nat) (m : LinkId) : (s.setFree x).link m = s.link m := rfl
@[simp] theorem State.link_setDeadlines (d : List DeadlineEntry) (m : LinkId) : (s.setDeadlines d).link m = s.link m := rfl
@[simp] theorem State.link_setCounters (c : DeskCounters) (m : LinkId) : (s.setCounters c).link m = s.link m := rfl
@[simp] theorem State.link_setTargetOrders (x : List TargetOrder) (m : LinkId) : (s.setTargetOrders x).link m = s.link m := rfl
@[simp] theorem State.link_setSeq (n : Nat) (m : LinkId) : (s.setSeq n).link m = s.link m := rfl
@[simp] theorem State.link_setReadData (w : U32) (m : LinkId) : (s.setReadData w).link m = s.link m := rfl
@[simp] theorem State.link_emit (w : BusWrite) (m : LinkId) : (s.emit w).link m = s.link m := rfl

@[simp] theorem State.rec_modOrder (f : OrderUnit → OrderUnit) (i : Nat) : (s.modOrder f).rec? i = s.rec? i := rfl
@[simp] theorem State.rec_modClock (f : Clock → Clock) (i : Nat) : (s.modClock f).rec? i = s.rec? i := rfl
@[simp] theorem State.rec_modVerify (f : VerifyEngine → VerifyEngine) (i : Nat) : (s.modVerify f).rec? i = s.rec? i := rfl
@[simp] theorem State.rec_modLine (n : LineId) (f : Line → Line) (i : Nat) : (s.modLine n f).rec? i = s.rec? i := rfl
@[simp] theorem State.rec_modLink (l : LinkId) (f : Link → Link) (i : Nat) : (s.modLink l f).rec? i = s.rec? i := rfl
@[simp] theorem State.rec_modPage (p : Nat) (f : Page → Page) (i : Nat) : (s.modPage p f).rec? i = s.rec? i := rfl
@[simp] theorem State.rec_putPage (p : Nat) (e : Page) (i : Nat) : (s.putPage p e).rec? i = s.rec? i := rfl
@[simp] theorem State.rec_delPage (p : Nat) (i : Nat) : (s.delPage p).rec? i = s.rec? i := rfl
@[simp] theorem State.rec_setFree (x : List Nat) (i : Nat) : (s.setFree x).rec? i = s.rec? i := rfl
@[simp] theorem State.rec_setDeadlines (d : List DeadlineEntry) (i : Nat) : (s.setDeadlines d).rec? i = s.rec? i := rfl
@[simp] theorem State.rec_setCounters (c : DeskCounters) (i : Nat) : (s.setCounters c).rec? i = s.rec? i := rfl
@[simp] theorem State.rec_setTargetOrders (x : List TargetOrder) (i : Nat) : (s.setTargetOrders x).rec? i = s.rec? i := rfl
@[simp] theorem State.rec_setSeq (n : Nat) (i : Nat) : (s.setSeq n).rec? i = s.rec? i := rfl
@[simp] theorem State.rec_setReadData (w : U32) (i : Nat) : (s.setReadData w).rec? i = s.rec? i := rfl
@[simp] theorem State.rec_emit (w : BusWrite) (i : Nat) : (s.emit w).rec? i = s.rec? i := rfl

@[simp] theorem State.page_modOrder (f : OrderUnit → OrderUnit) (i : Nat) : (s.modOrder f).page? i = s.page? i := rfl
@[simp] theorem State.page_modClock (f : Clock → Clock) (i : Nat) : (s.modClock f).page? i = s.page? i := rfl
@[simp] theorem State.page_modVerify (f : VerifyEngine → VerifyEngine) (i : Nat) : (s.modVerify f).page? i = s.page? i := rfl
@[simp] theorem State.page_modLine (n : LineId) (f : Line → Line) (i : Nat) : (s.modLine n f).page? i = s.page? i := rfl
@[simp] theorem State.page_modLink (l : LinkId) (f : Link → Link) (i : Nat) : (s.modLink l f).page? i = s.page? i := rfl
@[simp] theorem State.page_modRec (n : Nat) (f : DestRec → DestRec) (i : Nat) : (s.modRec n f).page? i = s.page? i := rfl
@[simp] theorem State.page_putRec (n : Nat) (r : DestRec) (i : Nat) : (s.putRec n r).page? i = s.page? i := rfl
@[simp] theorem State.page_delRec (n : Nat) (i : Nat) : (s.delRec n).page? i = s.page? i := rfl
@[simp] theorem State.page_setFree (x : List Nat) (i : Nat) : (s.setFree x).page? i = s.page? i := rfl
@[simp] theorem State.page_setDeadlines (d : List DeadlineEntry) (i : Nat) : (s.setDeadlines d).page? i = s.page? i := rfl
@[simp] theorem State.page_setCounters (c : DeskCounters) (i : Nat) : (s.setCounters c).page? i = s.page? i := rfl
@[simp] theorem State.page_setTargetOrders (x : List TargetOrder) (i : Nat) : (s.setTargetOrders x).page? i = s.page? i := rfl
@[simp] theorem State.page_setSeq (n : Nat) (i : Nat) : (s.setSeq n).page? i = s.page? i := rfl
@[simp] theorem State.page_setReadData (w : U32) (i : Nat) : (s.setReadData w).page? i = s.page? i := rfl
@[simp] theorem State.page_emit (w : BusWrite) (i : Nat) : (s.emit w).page? i = s.page? i := rfl

/-- Whether its mirror is written or not (log entry 52), the counters change as asked and nothing else of any link does. -/
@[simp] theorem bumpLink_link (l m : LinkId) (f : LinkCounters → LinkCounters) :
    (bumpLink l f s).link m = if m = l then { s.link l with counters := f (s.link l).counters } else s.link m := by
  unfold bumpLink
  split
  · next h => split <;> simp_all
  · rw [← State.link_modLink s l m fun k => { k with counters := f k.counters }]
    unfold writeLinkMirror deskWrite; split <;> rfl

end Sys2Proof.Machine
end

