-- ==== Sys2Proof/Laws/Table.lean ====
section
/-! SUPPORT. What the sparse tables of Machine/Table.lean hold after each change, and that every change keeps their form. -/

namespace Sys2Proof.Machine

variable {α : Type}

theorem Table.get_modify (t : Table α) (n m : Nat) (f : α → α) :
    Table.get (Table.modify t n f) m = if m = n then (Table.get t n).map f else Table.get t m := by
  induction t with
  | nil => simp [Table.modify, Table.get]
  | cons e t ih =>
    obtain ⟨k, a⟩ := e
    by_cases hk : k = n
    · subst hk
      by_cases hm : m = k
      · subst hm; simp [Table.modify, Table.get]
      · have : ¬ k = m := fun h => hm h.symm
        simp [Table.modify, Table.get, hm, this]
    · by_cases hm : k = m
      · subst hm; simp [Table.modify, Table.get, hk]
      · simp only [Table.modify, Table.get, hk, hm, if_false, ih]

@[simp] theorem Table.get_modify_self (t : Table α) (n : Nat) (f : α → α) :
    Table.get (Table.modify t n f) n = (Table.get t n).map f := by
  simp [Table.get_modify]

theorem Table.get_modify_ne (t : Table α) {n m : Nat} (f : α → α) (h : m ≠ n) :
    Table.get (Table.modify t n f) m = Table.get t m := by
  simp [Table.get_modify, h]

theorem Table.keys_modify (t : Table α) (n : Nat) (f : α → α) :
    Table.keys (Table.modify t n f) = Table.keys t := by
  induction t with
  | nil => rfl
  | cons e t ih =>
    obtain ⟨k, a⟩ := e
    simp only [Table.keys] at ih
    by_cases hk : k = n <;> simp [Table.modify, Table.keys, hk, ih]

/-- The canonical form says that the numbers rise strictly. -/
theorem Table.rising_iff (t : Table α) : Table.rising t = true ↔ (Table.keys t).Pairwise (· < ·) := by
  induction t with
  | nil => simp [Table.rising, Table.keys]
  | cons e t ih =>
    cases t with
    | nil => simp [Table.rising, Table.keys]
    | cons e' t =>
      simp only [Table.rising, Bool.and_eq_true, decide_eq_true_eq, ih]
      simp only [Table.keys, List.map_cons, List.pairwise_cons, List.mem_cons, forall_eq_or_imp]
      constructor
      · rintro ⟨h, h1, h2⟩
        exact ⟨⟨h, fun a ha => lt_trans h (h1 a ha)⟩, h1, h2⟩
      · rintro ⟨⟨h, _⟩, h1, h2⟩
        exact ⟨h, h1, h2⟩

theorem Table.rising_modify {t : Table α} (h : Table.rising t = true) (n : Nat) (f : α → α) :
    Table.rising (Table.modify t n f) = true := by
  rw [Table.rising_iff, Table.keys_modify]; exact (Table.rising_iff t).1 h

theorem Table.rising_del {t : Table α} (h : Table.rising t = true) (n : Nat) :
    Table.rising (Table.del t n) = true := by
  rw [Table.rising_iff] at h ⊢
  exact h.sublist (List.Sublist.map _ List.filter_sublist)

theorem Table.mem_keys_put (t : Table α) (n : Nat) (a : α) (k : Nat) :
    k ∈ Table.keys (Table.put t n a) ↔ k = n ∨ k ∈ Table.keys t := by
  induction t with
  | nil => simp [Table.put, Table.keys]
  | cons e t ih =>
    obtain ⟨j, b⟩ := e
    simp only [Table.keys] at ih
    unfold Table.put
    split
    · simp [Table.keys]
    · split
      · rename_i hj; subst hj; simp [Table.keys]
      · simp only [Table.keys, List.map_cons, List.mem_cons, ih]; tauto

theorem Table.rising_put {t : Table α} (h : Table.rising t = true) (n : Nat) (a : α) :
    Table.rising (Table.put t n a) = true := by
  rw [Table.rising_iff] at h ⊢
  induction t with
  | nil => simp [Table.put, Table.keys]
  | cons e t ih =>
    obtain ⟨j, b⟩ := e
    simp only [Table.keys, List.map_cons, List.pairwise_cons] at h
    unfold Table.put
    split
    · rename_i hlt
      simp only [Table.keys, List.map_cons, List.pairwise_cons, List.mem_cons, forall_eq_or_imp]
      exact ⟨⟨hlt, fun k hk => lt_trans hlt (h.1 k hk)⟩, h⟩
    · split
      · rename_i hj; subst hj
        simpa only [Table.keys, List.map_cons, List.pairwise_cons] using h
      · rename_i h1 h2
        simp only [Table.keys, List.map_cons, List.pairwise_cons]
        refine ⟨fun k hk => ?_, ih h.2⟩
        rcases (Table.mem_keys_put t n a k).1 hk with rfl | hk
        · omega
        · exact h.1 k hk

theorem Table.get_put (t : Table α) (n m : Nat) (a : α) :
    Table.rising t = true →
    Table.get (Table.put t n a) m = if m = n then some a else Table.get t m := by
  rw [Table.rising_iff]
  induction t with
  | nil =>
    intro _
    by_cases h : n = m
    · subst h; simp [Table.put, Table.get]
    · have : ¬ m = n := fun e => h e.symm
      simp [Table.put, Table.get, h, this]
  | cons e t ih =>
    obtain ⟨j, b⟩ := e
    intro h
    simp only [Table.keys, List.map_cons, List.pairwise_cons] at h
    have ih := ih h.2
    unfold Table.put
    split
    · by_cases hm : n = m
      · subst hm; simp [Table.get]
      · have : ¬ m = n := fun e => hm e.symm
        simp [Table.get, hm, this]
    · split
      · rename_i hj; subst hj
        by_cases hm : j = m
        · subst hm; simp [Table.get]
        · have : ¬ m = j := fun e => hm e.symm
          simp [Table.get, hm, this]
      · rename_i h1 h2
        by_cases hm : j = m
        · subst hm; simp [Table.get, h2]
        · simp only [Table.get, hm, if_false, ih]

theorem Table.get_del (t : Table α) (n m : Nat) :
    Table.get (Table.del t n) m = if m = n then none else Table.get t m := by
  induction t with
  | nil => simp [Table.del, Table.get]
  | cons e t ih =>
    obtain ⟨k, a⟩ := e
    simp only [Table.del] at ih
    by_cases hk : k = n
    · subst hk
      simp only [Table.del, List.filter_cons, bne_self_eq_false, Bool.false_eq_true, if_false, ih]
      by_cases hm : m = k
      · simp [hm]
      · have : ¬ k = m := fun e => hm e.symm
        simp [Table.get, hm, this]
    · have hb : (k != n) = true := by simp [hk]
      simp only [Table.del, List.filter_cons, hb, if_true]
      by_cases hm : k = m
      · subst hm; simp [Table.get, hk]
      · simp only [Table.get, hm, if_false, ih]

end Sys2Proof.Machine
end

