-- ==== Sys2Proof/Laws/Calm.lean ====
section
/-! SUPPORT. Calm changes: the primitive changes out of which every block's shared operations are made, and one lemma for each
operation. A calm change touches no press-clock field, no configuration of a line or link, no link state, no register or walk
field of the order unit, neither the queue of commands nor a value read; it only adds bus writes and attention causes. -/

namespace Sys2Proof.Machine

/-- The order unit less what other blocks move in it: the causes, the completion count, the end of a held take's wait. -/
def OrderUnit.core (o : OrderUnit) : OrderUnit :=
  { o with attention := 0, completions := 0, held := o.held.map fun h => { h with ended := false } }

/-- What a calm change keeps of the order unit. -/
structure OrderKeeps (o o' : OrderUnit) : Prop where
  core : o'.core = o.core
  attention : o.attention &&& o'.attention = o.attention
  completions : o.completions.toNat ≤ o'.completions.toNat

/-- What a calm change keeps of a page entry: all that its CONSIGN gave it, and the destinations it has (R1). -/
structure PageKeeps (p p' : Page) : Prop where
  key : p'.key = p.key
  version : p'.version = p.version
  generation : p'.generation = p.generation
  deadline : p'.deadline = p.deadline
  release : p'.release = p.release
  policy : p'.policy = p.policy
  statedCrc : p'.statedCrc = p.statedCrc
  size : p'.size = p.size
  extents : p'.extents = p.extents
  orderAddr : p'.orderAddr = p.orderAddr
  dests : p.dests <+: p'.dests

/-- What a still change keeps of a line besides: all that the press-line table and the poll unit hold, H, and the empty catalog
and IDLE slot of a line that is not enabled. -/
structure LineStill (k k' : Line) : Prop where
  state : k'.state = k.state
  statusByte : k'.statusByte = k.statusByte
  timeouts : k'.timeouts = k.timeouts
  changeCount : k'.changeCount = k.changeCount
  query : k'.query = k.query
  requery : k'.requery = k.requery
  held : k'.held = k.held
  catalog : k.catalog = [] → k'.catalog = []
  slot : k.enabled = false → k.slot = none → k'.slot = none

/-- What a calm change keeps of a line, and with `q` what a still change keeps. -/
structure LineKeeps (q : Bool) (k k' : Line) : Prop where
  enabled : k'.enabled = k.enabled
  cfg : k'.cfg = k.cfg
  still : q = true → LineStill k k'

/-- What a calm change keeps of a link: its state and configuration, its timers of the elapsed base but the window's, and that a
link which is not UP has nothing on the wire, waiting, in SENDING or open. With `q` its roll-call window as well. -/
structure LinkKeeps (q : Bool) (k k' : Link) : Prop where
  state : k'.state = k.state
  rate : k'.rate = k.rate
  guardMs : k'.guardMs = k.guardMs
  silenceLimit : k'.silenceLimit = k.silenceLimit
  markCount : k'.markCount = k.markCount
  silence : k'.silence = k.silence
  retry : k'.retry = k.retry
  credit : k'.credit ≤ k.credit
  wire : k.state ≠ .up → k.wire = none → k'.wire = none
  control : k.state ≠ .up → k.control = [] → k'.control = []
  sending : k.state ≠ .up → k.sending = none → k'.sending = none
  roll : k.state ≠ .up → k.roll = none → k'.roll = none
  still : q = true → k'.roll = k.roll

/-- A change of a link's other fields. -/
theorem LinkKeeps.same {q : Bool} {k k' : Link} (h1 : k'.state = k.state) (h2 : k'.rate = k.rate) (h3 : k'.guardMs = k.guardMs)
    (h4 : k'.silenceLimit = k.silenceLimit) (h5 : k'.markCount = k.markCount) (h6 : k'.silence = k.silence)
    (h7 : k'.retry = k.retry) (h8 : k'.credit ≤ k.credit) (hw : k'.wire = k.wire) (hc : k'.control = k.control)
    (hs : k'.sending = k.sending) (hr : k'.roll = k.roll) : LinkKeeps q k k' :=
  ⟨h1, h2, h3, h4, h5, h6, h7, h8, fun _ h => hw ▸ h, fun _ h => hc ▸ h, fun _ h => hs ▸ h, fun _ h => hr ▸ h, fun _ => hr⟩

/-- A change of a link that is UP. -/
theorem LinkKeeps.up {q : Bool} {k k' : Link} (hu : k.state = .up) (h1 : k'.state = k.state) (h2 : k'.rate = k.rate)
    (h3 : k'.guardMs = k.guardMs) (h4 : k'.silenceLimit = k.silenceLimit) (h5 : k'.markCount = k.markCount)
    (h6 : k'.silence = k.silence) (h7 : k'.retry = k.retry) (h8 : k'.credit ≤ k.credit) (hr : k'.roll = k.roll) :
    LinkKeeps q k k' :=
  ⟨h1, h2, h3, h4, h5, h6, h7, h8, fun h => absurd hu h, fun h => absurd hu h, fun h => absurd hu h, fun h => absurd hu h,
    fun _ => hr⟩

theorem LineKeeps.plain {k k' : Line} (he : k'.enabled = k.enabled) (hc : k'.cfg = k.cfg) : LineKeeps false k k' :=
  ⟨he, hc, nofun⟩

/-- One primitive calm change. -/
inductive Prim (q : Bool) (s : State) : State → Prop
  | write (a : U64) (bytes : List Byte) : Prim q s (hostWrite a bytes s)
  | raise (c : Cause) : Prim q s (raise c s)
  | order (f : OrderUnit → OrderUnit) (h : ∀ o, OrderKeeps o (f o)) (ha : ∀ o, (f o).attention = o.attention) :
    Prim q s (s.modOrder f)
  | verify (f : VerifyEngine → VerifyEngine) : Prim q s (s.modVerify f)
  | line (n : LineId) (f : Line → Line) (h : LineKeeps q (s.line n) (f (s.line n))) : Prim q s (s.modLine n f)
  | link (l : LinkId) (f : Link → Link) (h : LinkKeeps q (s.link l) (f (s.link l))) : Prim q s (s.modLink l f)
  | modRec (n : Nat) (f : DestRec → DestRec) : Prim q s (s.modRec n f)
  | putRec (n : Nat) (r : DestRec) : Prim q s (s.putRec n r)
  | delRec (n : Nat) : Prim q s (s.delRec n)
  | modPage (n : Nat) (f : Page → Page) (h : ∀ p, PageKeeps p (f p)) : Prim q s (s.modPage n f)
  | delPage (n : Nat) : Prim q s (s.delPage n)
  | free (f : List Nat) : Prim q s (s.setFree f)
  | deadlines (d : List DeadlineEntry) (h : sortedDue s.deadlines → sortedDue d) : Prim q s (s.setDeadlines d)
  | counters (c : DeskCounters) : Prim q s (s.setCounters c)
  | targetOrders (t : List TargetOrder) : Prim q s (s.setTargetOrders t)
  | seq (n : Nat) : Prim q s (s.setSeq n)

/-- Any number of primitive calm changes; with `q` they are still, which all are that neither the press-line table nor the poll
unit makes. -/
abbrev Calm (q : Bool) : State → State → Prop := Relation.ReflTransGen fun s t => Prim q s t

variable {q : Bool} {b s : State}

theorem Calm.refl (s : State) : Calm q s s := Relation.ReflTransGen.refl

/-- A calm change that follows a calm change is calm. -/
theorem Calm.step {t : State} (h : Calm q b s) (p : Prim q s t) : Calm q b t := Relation.ReflTransGen.tail h p

/-! ### Primitives -/

theorem modVerify_calm (f : VerifyEngine → VerifyEngine) (h : Calm q b s) : Calm q b (s.modVerify f) := h.step (.verify f)

theorem modRec_calm (n : Nat) (f : DestRec → DestRec) (h : Calm q b s) : Calm q b (s.modRec n f) := h.step (.modRec n f)

theorem putRec_calm (n : Nat) (r : DestRec) (h : Calm q b s) : Calm q b (s.putRec n r) := h.step (.putRec n r)

theorem delRec_calm (n : Nat) (h : Calm q b s) : Calm q b (s.delRec n) := h.step (.delRec n)

theorem modPage_calm (n : Nat) (f : Page → Page) (hf : ∀ p, PageKeeps p (f p)) (h : Calm q b s) :
    Calm q b (s.modPage n f) := h.step (.modPage n f hf)

/-- A change of state, cause or computed CRC-32 keeps the rest of a page. -/
theorem PageKeeps.fields (p : Page) (st : PageState) (c : Option RetireCause) (k : Option U32) :
    PageKeeps p { p with state := st, cause := c, computedCrc := k } :=
  ⟨rfl, rfl, rfl, rfl, rfl, rfl, rfl, rfl, rfl, rfl, List.prefix_rfl⟩

theorem delPage_calm (n : Nat) (h : Calm q b s) : Calm q b (s.delPage n) := h.step (.delPage n)

theorem setFree_calm (f : List Nat) (h : Calm q b s) : Calm q b (s.setFree f) := h.step (.free f)

theorem setCounters_calm (c : DeskCounters) (h : Calm q b s) : Calm q b (s.setCounters c) := h.step (.counters c)

theorem setTargetOrders_calm (t : List TargetOrder) (h : Calm q b s) : Calm q b (s.setTargetOrders t) :=
  h.step (.targetOrders t)

theorem setSeqNext_calm (n : Nat) (h : Calm q b s) : Calm q b (s.setSeq n) := h.step (.seq n)

theorem modLine_calm (n : LineId) (f : Line → Line) (hf : ∀ k, LineKeeps q k (f k)) (h : Calm q b s) :
    Calm q b (s.modLine n f) := h.step (.line n f (hf _))

theorem modLink_calm (l : LinkId) (f : Link → Link) (hf : ∀ k, LinkKeeps q k (f k)) (h : Calm q b s) :
    Calm q b (s.modLink l f) := h.step (.link l f (hf _))

theorem modOrder_calm (f : OrderUnit → OrderUnit) (hf : ∀ o, OrderKeeps o (f o)) (ha : ∀ o, (f o).attention = o.attention)
    (h : Calm q b s) : Calm q b (s.modOrder f) := h.step (.order f hf ha)

theorem foldl_calm {α : Type} (f : State → α → State) (hf : ∀ (s : State) (a : α), Calm q b s → Calm q b (f s a)) (xs : List α)
    (h : Calm q b s) : Calm q b (xs.foldl f s) := by
  induction xs generalizing s with
  | nil => exact h
  | cons x xs ih => exact ih (hf s x h)

theorem ite_calm {p : Prop} [Decidable p] {t u : State} (ht : Calm q b t) (hu : Calm q b u) :
    Calm q b (if p then t else u) := by
  split <;> assumption

/-! ### Ops -/

theorem hostWrite_calm (a : U64) (bytes : List Byte) (h : Calm q b s) : Calm q b (hostWrite a bytes s) := h.step (.write a bytes)

theorem deskWrite_calm (off : Nat) (bytes : List Byte) (h : Calm q b s) : Calm q b (deskWrite off bytes s) := by
  unfold deskWrite; exact ite_calm h (hostWrite_calm _ _ h)

theorem raise_calm (c : Cause) (h : Calm q b s) : Calm q b (raise c s) := h.step (.raise c)

theorem writeSummary_calm (h : Calm q b s) : Calm q b (writeSummary s) := deskWrite_calm _ _ h
theorem writeCounters_calm (h : Calm q b s) : Calm q b (writeCounters s) := deskWrite_calm _ _ h
theorem writeLinkMirror_calm (l : LinkId) (h : Calm q b s) : Calm q b (writeLinkMirror l s) := deskWrite_calm _ _ h
theorem writeLineMirror_calm (n : LineId) (h : Calm q b s) : Calm q b (writeLineMirror n s) := deskWrite_calm _ _ h

theorem bumpCounter_calm (c : DeskCounter) (h : Calm q b s) : Calm q b (bumpCounter c s) := by
  unfold bumpCounter; exact ite_calm h (writeCounters_calm (setCounters_calm _ h))

theorem writeDisposition_calm (a : U64) (d : Disposition) (n : Nat) (h : Calm q b s) :
    Calm q b (writeDisposition a d n s) := hostWrite_calm _ _ h

theorem satInc_ge (c : U32) : c.toNat ≤ (satInc c).toNat := by
  unfold satInc satAdd
  rw [BitVec.toNat_ofNat]
  have := c.isLt
  rw [Nat.mod_eq_of_lt (by omega)]
  omega

theorem finalDisposition_calm (a : U64) (d : Disposition) (n : Nat) (h : Calm q b s) :
    Calm q b (finalDisposition a d n s) := by
  unfold finalDisposition
  exact raise_calm _ (writeSummary_calm (modOrder_calm _ (fun o => ⟨rfl, BitVec.and_self, satInc_ge _⟩) (fun _ => rfl)
    (writeDisposition_calm _ _ _ h)))

theorem refuse_calm (a : U64) (d : RefusalDetail) (h : Calm q b s) : Calm q b (refuse a d s) := finalDisposition_calm _ _ _ h

theorem bumpLink_calm (l : LinkId) (f : LinkCounters → LinkCounters) (h : Calm q b s) : Calm q b (bumpLink l f s) := by
  unfold bumpLink; refine ite_calm h ?_
  exact writeLinkMirror_calm l (modLink_calm l _ (fun _ => .same rfl rfl rfl rfl rfl rfl rfl le_rfl rfl rfl rfl rfl) h)

theorem staleTag_calm (l : LinkId) (h : Calm q b s) : Calm q b (staleTag l s) := bumpLink_calm _ _ h

/-! ### Wire -/

theorem modSlot_calm (n : LineId) (f : Slot → Slot) (h : Calm q b s) : Calm q b (s.modSlot n f) :=
  modLine_calm n _ (fun _ => ⟨rfl, rfl, fun _ => ⟨rfl, rfl, rfl, rfl, rfl, rfl, rfl, fun h => h, fun _ h => by simp [h]⟩⟩) h

theorem setSent_calm (x : Xfer) (v : Nat) (h : Calm q b s) : Calm q b (setSent x v s) := by
  cases x
  · exact modRec_calm _ _ h
  · exact modSlot_calm _ _ h

theorem setAcked_calm (x : Xfer) (v : Nat) (h : Calm q b s) : Calm q b (setAcked x v s) := by
  cases x
  · exact modRec_calm _ _ h
  · exact modSlot_calm _ _ h

theorem writeEntry_calm (n : Nat) (h : Calm q b s) : Calm q b (writeEntry n s) := by
  unfold writeEntry
  repeat' split
  all_goals first | exact h | exact hostWrite_calm _ _ h

theorem startOpen_calm (l : LinkId) (x : Xfer) (i : XferInfo) (hu : (s.link l).state = .up) (h : Calm q b s) :
    Calm q b (startOpen l x i s) :=
  h.step (.link l _ (.up hu rfl rfl rfl rfl rfl rfl rfl le_rfl rfl))

theorem markHasData_calm (x : Xfer) (h : Calm q b s) : Calm q b (markHasData x s) := by
  unfold markHasData
  repeat' split
  · exact h
  · exact h
  · exact writeEntry_calm _ (modRec_calm _ _ h)
  · exact modSlot_calm _ _ h

theorem startData_calm (l : LinkId) (x : Xfer) (i : XferInfo) (hu : (s.link l).state = .up) (h : Calm q b s) :
    Calm q b (startData l x i s) :=
  markHasData_calm x (h.step (.link l _ (.up hu rfl rfl rfl rfl rfl rfl rfl (Nat.sub_le _ _) rfl)))

theorem kick_calm (l : LinkId) (h : Calm q b s) : Calm q b (kick l s) := by
  unfold kick
  dsimp only
  split
  · exact h
  · next hu =>
    have hu : (s.link l).state = .up := by simpa using fun h => hu (.inl h)
    repeat' split
    · exact h.step (.link l _ (.up hu rfl rfl rfl rfl rfl rfl rfl le_rfl rfl))
    · exact h
    · exact h
    · exact startOpen_calm _ _ _ hu h
    · exact startData_calm _ _ _ hu h
    · exact h

theorem offer_calm (l : LinkId) (c : CtlFrame) (h : Calm q b s) : Calm q b (offer l c s) := by
  unfold offer
  split
  · next hu =>
    have hu : (s.link l).state = .up := by simpa [State.isUp] using hu
    exact kick_calm l (h.step (.link l _ (.up hu rfl rfl rfl rfl rfl rfl rfl le_rfl rfl)))
  · exact h

theorem dropControlOn_calm (l : LinkId) (p : CtlFrame → Bool) (h : Calm q b s) : Calm q b (dropControlOn l p s) :=
  modLink_calm l _ (fun _ => ⟨rfl, rfl, rfl, rfl, rfl, rfl, rfl, le_rfl, fun _ h => h, fun _ h => by simp [h], fun _ h => h,
    fun _ h => h, fun _ => rfl⟩) h

theorem dropControl_calm (p : CtlFrame → Bool) (h : Calm q b s) : Calm q b (dropControl p s) :=
  foldl_calm _ (fun _ l h => dropControlOn_calm l p h) _ h

/-! ### Scheduler -/

theorem updateL_calm (n : Nat) (h : Calm q b s) : Calm q b (updateL n s) := by
  unfold updateL; split
  · exact h
  · exact modRec_calm _ _ h

theorem refreshFirst_calm (l : LinkId) (h : Calm q b s) : Calm q b (refreshFirst l s) := by
  unfold refreshFirst
  refine modLink_calm l _ (fun k => ?_) h
  dsimp only
  split <;> exact .same rfl rfl rfl rfl rfl rfl rfl le_rfl rfl rfl rfl rfl

theorem schedMirror_calm (l : LinkId) (h : Calm q b s) : Calm q b (schedMirror l s) :=
  writeLinkMirror_calm l (refreshFirst_calm l h)

theorem setSeq_calm (x : Xfer) (v : Nat) (h : Calm q b s) : Calm q b (setSeq x v s) := by
  cases x
  · exact modRec_calm _ _ h
  · exact modSlot_calm _ _ h

theorem renumberFrom_calm (xs : List Xfer) (v : Nat) (h : Calm q b s) : Calm q b (renumberFrom v xs s) := by
  induction xs generalizing v s with
  | nil => exact h
  | cons x xs ih => exact ih _ (setSeq_calm _ _ h)

theorem renumber_calm (h : Calm q b s) : Calm q b (renumber s) := setSeqNext_calm _ (renumberFrom_calm _ _ h)

theorem roomForSeq_calm (h : Calm q b s) : Calm q b (roomForSeq s) := ite_calm (renumber_calm h) h

theorem joinQueue_calm (l : LinkId) (x : Xfer) (h : Calm q b s) : Calm q b (joinQueue l x s) := by
  unfold joinQueue
  dsimp only
  refine schedMirror_calm l ?_
  split
  · exact bumpCounter_calm _ (modLink_calm l _ (fun _ => .same rfl rfl rfl rfl rfl rfl rfl le_rfl rfl rfl rfl rfl) (setSeqNext_calm _ (setSeq_calm _ _ (roomForSeq_calm h))))
  · exact modLink_calm l _ (fun _ => .same rfl rfl rfl rfl rfl rfl rfl le_rfl rfl rfl rfl rfl) (setSeqNext_calm _ (setSeq_calm _ _ (roomForSeq_calm h)))

theorem leaveQueue_calm (l : LinkId) (x : Xfer) (h : Calm q b s) : Calm q b (leaveQueue l x s) :=
  ite_calm (schedMirror_calm l (modLink_calm l _ (fun _ => .same rfl rfl rfl rfl rfl rfl rfl le_rfl rfl rfl rfl rfl) h)) h

theorem moveInQueue_calm (l : LinkId) (x : Xfer) (h : Calm q b s) : Calm q b (moveInQueue l x s) :=
  ite_calm (schedMirror_calm l (modLink_calm l _ (fun _ => .same rfl rfl rfl rfl rfl rfl rfl le_rfl rfl rfl rfl rfl) h)) h

theorem resortQueue_calm (l : LinkId) (h : Calm q b s) : Calm q b (resortQueue l s) :=
  schedMirror_calm l (modLink_calm l _ (fun _ => .same rfl rfl rfl rfl rfl rfl rfl le_rfl rfl rfl rfl rfl) h)

theorem beginSending_calm (l : LinkId) (x : Xfer) (hu : (s.link l).state = .up) (h : Calm q b s) :
    Calm q b (beginSending l x s) := by
  unfold beginSending
  refine schedMirror_calm l ?_
  have h1 := h.step (.link l (fun k : Link => { k with
    queue := k.queue.filter fun y => y != x
    sending := some x
    sendingSlack := slack (xferKey s x).l s.clock.value
    lastCkpt := none
    windowTimer := none
    rewindPending := false
    openOwed := true }) (.up hu rfl rfl rfl rfl rfl rfl rfl le_rfl rfl))
  cases x
  · exact writeEntry_calm _ (modRec_calm _ _ h1)
  · exact writeLineMirror_calm _ (modSlot_calm _ _ h1)

theorem pick_calm (l : LinkId) (h : Calm q b s) : Calm q b (pick l s) := by
  unfold pick
  dsimp only
  split
  · next hu =>
    split
    · exact kick_calm l (beginSending_calm l _ hu.1 h)
    · exact h
  · exact h

theorem clearSending_calm (l : LinkId) (h : Calm q b s) : Calm q b (clearSending l s) :=
  schedMirror_calm l (modLink_calm l _ (fun _ => ⟨rfl, rfl, rfl, rfl, rfl, rfl, rfl, le_rfl, fun _ h => h, fun _ h => h,
    fun _ _ => rfl, fun _ h => h, fun _ => rfl⟩) h)

theorem stopSending_calm (l : LinkId) (x : Xfer) (h : Calm q b s) : Calm q b (stopSending l x s) :=
  ite_calm (clearSending_calm l (modLink_calm l _ (fun _ => ⟨rfl, rfl, rfl, rfl, rfl, rfl, rfl, le_rfl,
    fun _ h => by simp [h], fun _ h => h, fun _ h => h, fun _ h => h, fun _ => rfl⟩) h)) h

theorem rewind_calm (l : LinkId) (h : Calm q b s) : Calm q b (rewind l s) := by
  unfold rewind
  repeat' split
  · exact h
  · exact h
  · exact kick_calm l (bumpLink_calm l _ (modLink_calm l _ (fun _ => .same rfl rfl rfl rfl rfl rfl rfl le_rfl rfl rfl rfl rfl) (setSent_calm _ _ h)))

/-! ### Catalog -/

theorem reportEntry_calm (e : CatEntry) (st d : Nat) (h : Calm q b s) : Calm q b (reportEntry e st d s) := by
  unfold reportEntry; split
  · exact h
  · exact hostWrite_calm _ _ h

theorem forgetOrder_calm (k : Nat) (h : Calm q b s) : Calm q b (forgetOrder k s) := by
  unfold forgetOrder
  refine foldl_calm _ (fun s n h => ?_) _ h
  exact modLine_calm n _ (fun k => ⟨rfl, rfl, fun _ => ⟨rfl, rfl, rfl, rfl, rfl, rfl, rfl, fun h => by simp [h], fun _ h => h⟩⟩) h

theorem endTargetOrder_calm (t : TargetOrder) (h : Calm q b s) : Calm q b (endTargetOrder t s) :=
  ite_calm (forgetOrder_calm _ (finalDisposition_calm _ _ _ (setTargetOrders_calm _ h))) h

theorem targetProgress_calm (e : CatEntry) (d f : Nat) (h : Calm q b s) : Calm q b (targetProgress e d f s) := by
  unfold targetProgress
  repeat' split
  · exact h
  · exact h
  · exact endTargetOrder_calm _ (setTargetOrders_calm _ h)

theorem modEntry_calm (n : LineId) (g : U16) (f : CatEntry → CatEntry) (h : Calm q b s) : Calm q b (s.modEntry n g f) :=
  modLine_calm n _ (fun k => ⟨rfl, rfl, fun _ => ⟨rfl, rfl, rfl, rfl, rfl, rfl, rfl, fun h => by simp [h], fun _ h => h⟩⟩) h

theorem setCatState_calm (n : LineId) (g : U16) (f : CatEntry → CatEntry) (d k : Nat) (h : Calm q b s) :
    Calm q b (setCatState n g f d k s) := by
  unfold setCatState
  have h1 := writeLineMirror_calm n (modEntry_calm n g f h)
  dsimp only
  split
  · exact h1
  · exact targetProgress_calm _ _ _ (reportEntry_calm _ _ _ h1)

theorem refreshSlot_calm (n : LineId) (h : Calm q b s) : Calm q b (refreshSlot n s) := by
  unfold refreshSlot
  repeat' split
  · exact h
  · exact h
  · exact moveInQueue_calm _ _ (modSlot_calm _ _ h)

theorem changeoverChoice_enabled {n : LineId} {g : U16} (h : changeoverChoice s n = some g) : (s.line n).enabled = true := by
  unfold changeoverChoice at h
  dsimp only at h
  split at h
  · next hc => exact hc.2.1
  · cases h

theorem loadSlot_calm (n : LineId) (g : U16) (he : (s.line n).enabled = true) (h : Calm q b s) : Calm q b (loadSlot n g s) :=
  pick_calm _ (joinQueue_calm _ _ (writeLineMirror_calm _ (h.step (.line n _
    ⟨rfl, rfl, fun _ => ⟨rfl, rfl, rfl, rfl, rfl, rfl, rfl, fun h => h, fun hd => by simp [he] at hd⟩⟩))))

theorem changeoverCheck_calm (n : LineId) (h : Calm q b s) : Calm q b (changeoverCheck n s) := by
  unfold changeoverCheck; split
  · next hg => exact loadSlot_calm _ _ (changeoverChoice_enabled hg) h
  · exact h

theorem reexamine_calm (n : LineId) (h : Calm q b s) : Calm q b (reexamine n s) :=
  changeoverCheck_calm n (refreshSlot_calm n h)

theorem requeueSlot_calm (n : LineId) (f : Slot → Slot) (h : Calm q b s) : Calm q b (requeueSlot n f s) := by
  unfold requeueSlot; split
  · exact h
  · exact pick_calm _ (joinQueue_calm _ _ (writeLineMirror_calm _ (modSlot_calm _ _ h)))

theorem idleSlot_calm (n : LineId) (h : Calm q b s) : Calm q b (idleSlot n s) :=
  writeLineMirror_calm n (modLine_calm n _ (fun _ => ⟨rfl, rfl, fun _ => ⟨rfl, rfl, rfl, rfl, rfl, rfl, rfl, fun h => h, fun _ _ => rfl⟩⟩) h)

theorem detachSlot_calm (n : LineId) (h : Calm q b s) : Calm q b (detachSlot n s) :=
  stopSending_calm _ _ (leaveQueue_calm _ _ h)

theorem withdrawTarget_calm (n : LineId) (g : U16) (h : Calm q b s) : Calm q b (withdrawTarget n g s) :=
  ite_calm (offer_calm _ _ h) (modLine_calm n _ (fun _ => ⟨rfl, rfl, fun _ => ⟨rfl, rfl, rfl, rfl, rfl, rfl, rfl, fun h => h, fun _ h => h⟩⟩) h)

theorem abortSlot_calm (n : LineId) (h : Calm q b s) : Calm q b (abortSlot n s) := by
  unfold abortSlot; split
  · exact h
  · exact pick_calm _ (idleSlot_calm n (ite_calm (withdrawTarget_calm _ _ (detachSlot_calm n h)) (detachSlot_calm n h)))

/-! ### Deadline list -/

theorem mem_insertDue (e : DeadlineEntry) (d : List DeadlineEntry) (x : DeadlineEntry) :
    x ∈ insertDue e d ↔ x = e ∨ x ∈ d := by
  induction d with
  | nil => simp [insertDue]
  | cons a d ih =>
    unfold insertDue
    split
    · simp
    · simp only [List.mem_cons, ih]; tauto

/-- An insertion keeps the order of the list. -/
theorem insertDue_sorted (e : DeadlineEntry) {d : List DeadlineEntry} (h : sortedDue d) : sortedDue (insertDue e d) := by
  induction d with
  | nil => simp [insertDue, sortedDue]
  | cons a d ih =>
    simp only [sortedDue, List.pairwise_cons] at h
    unfold insertDue
    split
    · rename_i hlt
      simp only [sortedDue, List.pairwise_cons, List.mem_cons, forall_eq_or_imp]
      exact ⟨⟨le_of_lt hlt, fun x hx => le_trans (le_of_lt hlt) (h.1 x hx)⟩, h.1, h.2⟩
    · rename_i hge
      simp only [sortedDue, List.pairwise_cons]
      refine ⟨fun x hx => ?_, ih h.2⟩
      rcases (mem_insertDue e d x).1 hx with rfl | hx
      · omega
      · exact h.1 x hx

theorem addDeadline_calm (e : DeadlineEntry) (h : Calm q b s) : Calm q b (addDeadline e s) :=
  h.step (.deadlines _ fun k => insertDue_sorted e k)

theorem removeDeadline_calm (n : Nat) (h : Calm q b s) : Calm q b (removeDeadline n s) :=
  h.step (.deadlines _ fun k => k.sublist List.filter_sublist)

/-! ### Pool -/

theorem monitor_calm (n : Nat) (h : Calm q b s) : Calm q b (monitor n s) := by
  unfold monitor
  have hr := removeDeadline_calm n h
  dsimp only
  repeat' split
  all_goals first | exact h | exact hr | exact addDeadline_calm _ hr

theorem applyChange_calm (n : Nat) (f : DestRec → DestRec) (h : Calm q b s) : Calm q b (applyChange n f s) :=
  monitor_calm n (writeEntry_calm n (modRec_calm n f h))

theorem finish_calm (n : Nat) (st : DestState) (d : Detail) (h : Calm q b s) : Calm q b (finish n st d s) :=
  dropControl_calm _ (applyChange_calm n _ h)

theorem detachRec_calm (n : Nat) (h : Calm q b s) : Calm q b (detachRec n s) := by
  unfold detachRec
  repeat' split
  all_goals first | exact h | exact leaveQueue_calm _ _ h | exact stopSending_calm _ _ h

theorem sendWithdraw_calm (n : Nat) (h : Calm q b s) : Calm q b (sendWithdraw n s) := by
  unfold sendWithdraw
  repeat' split
  all_goals first | exact h | exact offer_calm _ _ (modRec_calm _ _ h)

theorem sendRelease_calm (n : Nat) (h : Calm q b s) : Calm q b (sendRelease n s) := by
  unfold sendRelease
  repeat' split
  all_goals first | exact h | exact offer_calm _ _ (modRec_calm _ _ h)

theorem sendOwedWithdraw_calm (n : Nat) (h : Calm q b s) : Calm q b (sendOwedWithdraw n s) := by
  unfold sendOwedWithdraw
  repeat' split
  all_goals first | exact h | exact sendWithdraw_calm _ h

theorem takeBack_calm (n : Nat) (r : DestRec) (x : RetractEnd) (d : Detail) (h : Calm q b s) :
    Calm q b (takeBack n r x d s) :=
  ite_calm (sendOwedWithdraw_calm n (dropControl_calm _ (applyChange_calm n _ h))) (finish_calm _ _ _ h)

theorem retract_calm (n : Nat) (x : RetractEnd) (d : Detail) (h : Calm q b s) : Calm q b (retract n x d s) := by
  unfold retract; split
  · exact h
  · next r _ =>
    have hd := takeBack_calm n r x d (detachRec_calm n h)
    exact ite_calm h (ite_calm (pick_calm _ hd) hd)

theorem retractAlone_calm (n : Nat) (x : RetractEnd) (d : Detail) (h : Calm q b s) : Calm q b (retractAlone n x d s) := by
  unfold retractAlone; split
  · exact h
  · exact reexamine_calm _ (retract_calm _ _ _ h)

theorem retractMany_calm (ids : List Nat) (x : RetractEnd) (d : Detail) (h : Calm q b s) :
    Calm q b (retractMany ids x d s) :=
  foldl_calm _ (fun _ i h => retract_calm i x d h) ids h

theorem retractPage_calm (ids : List Nat) (x : RetractEnd) (d : Detail) (h : Calm q b s) :
    Calm q b (retractPage ids x d s) :=
  foldl_calm _ (fun _ i h => retractAlone_calm i x d h) ids h

theorem placeRaw_calm (n : Nat) (h : Calm q b s) : Calm q b (placeRaw n s) := by
  unfold placeRaw
  repeat' split
  · exact h
  · exact pick_calm _ (applyChange_calm _ _ (joinQueue_calm _ _ (updateL_calm _ (modRec_calm _ _ h))))
  · exact applyChange_calm _ _ (updateL_calm _ (modRec_calm _ _ h))
  · exact retract_calm _ _ _ h

theorem place_calm (n : Nat) (h : Calm q b s) : Calm q b (place n s) := by
  unfold place; split
  · exact h
  · exact reexamine_calm _ (placeRaw_calm _ h)

theorem enterReleasing_calm (n : Nat) (h : Calm q b s) : Calm q b (enterReleasing n s) := applyChange_calm _ _ h

theorem releaseCheck_calm (n : Nat) (h : Calm q b s) : Calm q b (releaseCheck n s) := by
  unfold releaseCheck
  repeat' split
  all_goals first | exact h | exact sendRelease_calm _ (enterReleasing_calm _ h)

theorem deliver_calm (n : Nat) (h : Calm q b s) : Calm q b (deliver n s) := by
  unfold deliver; split
  · exact h
  · exact releaseCheck_calm _ (applyChange_calm _ _ h)

theorem attemptFailed_calm (n : Nat) (h : Calm q b s) : Calm q b (attemptFailed n s) := by
  unfold attemptFailed
  repeat' split
  · exact h
  · exact reexamine_calm _ (finish_calm _ _ _ (modRec_calm _ _ h))
  · exact place_calm _ (modRec_calm _ _ h)

/-! ### Pages and the verify engine -/

theorem joinVerify_calm (i : VerifyItem) (h : Calm q b s) : Calm q b (joinVerify i s) := modVerify_calm _ h
theorem leaveVerify_calm (i : VerifyItem) (h : Calm q b s) : Calm q b (leaveVerify i s) := modVerify_calm _ h

theorem startPass_calm (i : VerifyItem) (h : Calm q b s) : Calm q b (startPass i s) := by
  cases i
  · exact modPage_calm _ _ (fun p => .fields p _ _ _) h
  · exact setCatState_calm _ _ _ _ _ h

theorem startVerify_calm (h : Calm q b s) : Calm q b (startVerify s) := by
  unfold startVerify; split
  · exact startPass_calm _ (modVerify_calm _ h)
  · exact h

theorem freePage_calm (n : Nat) (p : Page) (h : Calm q b s) : Calm q b (freePage n p s) := by
  unfold freePage
  exact delPage_calm _ (foldl_calm _ (fun _ i h => delRec_calm i h) _
    (setFree_calm _ (finalDisposition_calm _ _ _ (leaveVerify_calm _ h))))

theorem pageEndCheck_calm (n : Nat) (h : Calm q b s) : Calm q b (pageEndCheck n s) := by
  unfold pageEndCheck; split
  · exact h
  · exact ite_calm (freePage_calm _ _ h) h

theorem pageEndOf_calm (n : Nat) (h : Calm q b s) : Calm q b (pageEndOf n s) := by
  unfold pageEndOf; split
  · exact h
  · exact ite_calm (pageEndCheck_calm _ h) h

theorem sweepPages_calm (h : Calm q b s) : Calm q b (sweepPages s) :=
  foldl_calm _ (fun _ p h => pageEndCheck_calm p h) _ h

theorem faultPage_calm (n : Nat) (w : SourceFault) (h : Calm q b s) : Calm q b (faultPage n w s) := by
  unfold faultPage; split
  · exact h
  · exact raise_calm _ (retractPage_calm _ _ _ (modPage_calm _ _ (fun p => .fields p _ _ _) h))

theorem pagePassEnd_calm (n : Nat) (c : U32) (h : Calm q b s) : Calm q b (pagePassEnd n c s) := by
  unfold pagePassEnd; split
  · exact h
  · dsimp only
    split
    · refine foldl_calm _ (fun s i h => ?_) _ (modPage_calm _ _ (fun p => .fields p _ _ _) (modPage_calm _ _ (fun p => .fields p _ _ _) h))
      split
      · exact ite_calm (place_calm _ h) h
      · exact h
    · exact faultPage_calm _ _ (modPage_calm _ _ (fun p => .fields p _ _ _) h)

theorem catalogPassFault_calm (n : LineId) (g : U16) (w : SourceFault) (c : Option U32) (h : Calm q b s) :
    Calm q b (catalogPassFault n g w c s) :=
  reexamine_calm _ (retractMany_calm _ _ _ (raise_calm _ (setCatState_calm _ _ _ _ _ h)))

theorem catalogPassEnd_calm (n : LineId) (g : U16) (c : U32) (h : Calm q b s) : Calm q b (catalogPassEnd n g c s) := by
  unfold catalogPassEnd; split
  · exact h
  · exact ite_calm (reexamine_calm _ (setCatState_calm _ _ _ _ _ h)) (catalogPassFault_calm _ _ _ _ h)

theorem passEnd_calm (p : List Byte) (h : Calm q b s) : Calm q b (passEnd p s) := by
  unfold passEnd; split
  · exact h
  · dsimp only
    have h1 := bumpCounter_calm .verifyPasses (modVerify_calm (fun v => { v with busy := none }) h)
    split
    · exact pageEndCheck_calm _ (pagePassEnd_calm _ _ h1)
    · exact sweepPages_calm (catalogPassEnd_calm _ _ _ h1)

theorem passReadError_calm (h : Calm q b s) : Calm q b (passReadError s) := by
  unfold passReadError; split
  · exact h
  · dsimp only
    have h1 := modVerify_calm (fun v => { v with busy := none }) h
    split
    · exact pageEndCheck_calm _ (faultPage_calm _ _ h1)
    · exact sweepPages_calm (catalogPassFault_calm _ _ _ _ h1)

theorem pageReadError_calm (n : Nat) (h : Calm q b s) : Calm q b (pageReadError n s) := by
  unfold pageReadError
  repeat' split
  all_goals first | exact h | exact pageEndCheck_calm _ (faultPage_calm _ _ h) | exact raise_calm _ h

theorem slotReadError_calm (n : LineId) (h : Calm q b s) : Calm q b (slotReadError n s) := by
  unfold slotReadError
  repeat' split
  · exact h
  · exact sweepPages_calm (reexamine_calm _ (retractMany_calm _ _ _ (changeoverCheck_calm _ (abortSlot_calm _
      (raise_calm _ (setCatState_calm _ _ _ _ _ h))))))
  · exact h

/-! ### Deadline firings -/

theorem lateEffects_calm (n : Nat) (h : Calm q b s) : Calm q b (lateEffects n s) := by
  unfold lateEffects
  repeat' split
  all_goals first
    | exact h
    | exact reexamine_calm _ h
    | exact reexamine_calm _ (moveInQueue_calm _ _ h)

theorem fireWarn_calm (n : Nat) (h : Calm q b s) : Calm q b (fireWarn n s) := by
  unfold fireWarn
  repeat' split
  · exact h
  · exact addDeadline_calm _ (raise_calm _ (lateEffects_calm _ (writeEntry_calm _ (modRec_calm _ _ h))))
  · exact addDeadline_calm _ (writeEntry_calm _ (modRec_calm _ _ h))
  · exact h

theorem placeFallback_calm (n : Nat) (h : Calm q b s) : Calm q b (placeFallback n s) := by
  unfold placeFallback
  repeat' split
  · exact h
  · exact joinQueue_calm _ _ (updateL_calm _ (modRec_calm _ _ h))
  · exact updateL_calm _ (modRec_calm _ _ h)
  · exact modRec_calm _ _ h

theorem writeCreation_calm (o n : Nat) (h : Calm q b s) : Calm q b (writeCreation o n s) := by
  unfold writeCreation; split
  · exact h
  · exact hostWrite_calm _ _ h

theorem pickIfQueued_calm (n : Nat) (h : Calm q b s) : Calm q b (pickIfQueued n s) := by
  unfold pickIfQueued; split
  · exact h
  · exact ite_calm (pick_calm _ h) h

theorem makeFallback_calm (o : Nat) (r : DestRec) (p : Page) (a : LineId) (h : Calm q b s) :
    Calm q b (makeFallback o r p a s) := by
  unfold makeFallback; split
  · exact h
  · dsimp only
    refine reexamine_calm _ (pickIfQueued_calm _ (bumpCounter_calm _ (monitor_calm _ (writeCreation_calm _ _ ?_))))
    refine ite_calm (placeFallback_calm _ ?_) ?_ <;>
      exact addDeadline_calm _ (modRec_calm _ _ (modPage_calm _ _
        (fun _ => ⟨rfl, rfl, rfl, rfl, rfl, rfl, rfl, rfl, rfl, rfl, List.prefix_append _ _⟩) (putRec_calm _ _ (setFree_calm _ h))))

theorem askFallback_calm (o : Nat) (h : Calm q b s) : Calm q b (askFallback o s) := by
  unfold askFallback
  repeat' split
  · exact h
  · exact h
  · exact makeFallback_calm _ _ _ _ h
  · exact bumpCounter_calm _ (writeEntry_calm _ (modRec_calm _ _ h))

theorem fireMiss_calm (n : Nat) (h : Calm q b s) : Calm q b (fireMiss n s) := by
  unfold fireMiss; split
  · exact h
  · dsimp only
    have h1 := raise_calm .missed (writeEntry_calm n (modRec_calm n (fun q => { q with missed := true }) h))
    repeat' split
    · exact h1
    · exact retractAlone_calm _ _ _ h1
    · exact askFallback_calm _ (retractAlone_calm _ _ _ h1)
    · exact writeEntry_calm _ (modRec_calm _ _ h)
    · exact h

theorem fireEntry_calm (d : DeadlineEntry) (h : Calm q b s) : Calm q b (fireEntry d s) := by
  unfold fireEntry; split
  · exact fireWarn_calm _ h
  · exact pageEndOf_calm _ (fireMiss_calm _ h)
  · exact releaseCheck_calm _ h

theorem fireHead_calm (h : Calm q b s) : Calm q b (fireHead s) := by
  unfold fireHead; split
  · exact h
  · rename_i d ds heq
    refine ite_calm (fireEntry_calm _ (h.step (.deadlines ds fun k => ?_))) h
    rw [heq] at k
    exact (List.pairwise_cons.1 k).2

theorem fireRun_calm (f : State → State) (hf : ∀ s, Calm q b s → Calm q b (f s)) (k : Nat) (h : Calm q b s) :
    Calm q b (fireRun f k s) := by
  induction k generalizing s with
  | zero => exact h
  | succ k ih => exact ite_calm (ih (hf _ (fireHead_calm h))) h

theorem fireDue_calm (f : State → State) (hf : ∀ s, Calm q b s → Calm q b (f s)) (h : Calm q b s) :
    Calm q b (fireDue f s) := fireRun_calm f hf _ h

/-- A run within a take. -/
theorem fireDue_id_calm (h : Calm q b s) : Calm q b (fireDue id s) := fireDue_calm id (fun _ h => h) h

/-- A run outside a take. -/
theorem fireDue_start_calm (h : Calm q b s) : Calm q b (fireDue startVerify s) :=
  fireDue_calm startVerify (fun _ h => startVerify_calm h) h

/-! ### Lines, queries and roll calls -/

theorem settleLine_calm (old : Line) (n : LineId) (h : Calm false b s) : Calm false b (settleLine old n s) := by
  unfold settleLine
  dsimp only
  have h1 := modLine_calm n (fun k : Line => { k with
    requery := requeryAfter (s.isUp (s.line n).cfg.link) old (s.line n)
    changeCount := if old.differs (s.line n) then satInc k.changeCount else k.changeCount }) (fun _ => .plain rfl rfl) h
  exact ite_calm (writeLineMirror_calm n h1) h1

theorem changeLine_calm (n : LineId) (f : Line → Line) (hf : ∀ k, LineKeeps false k (f k)) (h : Calm false b s) :
    Calm false b (changeLine n f s) := settleLine_calm _ n (modLine_calm n f hf h)

theorem raiseIfChanged_calm (old : Line) (n : LineId) (h : Calm false b s) : Calm false b (raiseIfChanged old n s) :=
  ite_calm (raise_calm _ h) h

theorem raiseIfAnyChanged_calm (old : State) (h : Calm false b s) : Calm false b (raiseIfAnyChanged old s) :=
  ite_calm (raise_calm _ h) h

theorem setLineState_calm (n : LineId) (st : LineState) (h : Calm false b s) : Calm false b (setLineState n st s) :=
  raiseIfChanged_calm _ n (changeLine_calm n _ (fun _ => .plain rfl rfl) h)

theorem pickIfReady_calm (old : Line) (n : LineId) (h : Calm q b s) : Calm q b (pickIfReady old n s) :=
  ite_calm (pick_calm _ h) h

theorem enterLineState_calm (p : LineId × LineState) (h : Calm false b s) : Calm false b (enterLineState s p) :=
  pickIfReady_calm _ _ (changeLine_calm p.1 (fun k => { k with state := p.2 }) (fun _ => .plain rfl rfl) h)

theorem setLineStates_calm (ns : List (LineId × LineState)) (h : Calm false b s) : Calm false b (setLineStates ns s) :=
  raiseIfAnyChanged_calm _ (foldl_calm _ (fun _ p h => enterLineState_calm p h) _ h)

theorem finishOrders_calm (d : PollDetail) (as : List U64) (h : Calm false b s) : Calm false b (finishOrders d as s) :=
  foldl_calm _ (fun _ _ h => finalDisposition_calm _ _ _ h) _ h

theorem releaseHold_calm (o : HeldOrder) (h : Calm false b s) : Calm false b (releaseHold o s) := by
  unfold releaseHold
  refine modOrder_calm _ (fun q => ⟨?_, BitVec.and_self, le_rfl⟩) (fun _ => rfl) h
  unfold OrderUnit.core
  cases q.held with
  | none => rfl
  | some x =>
    simp only [Option.map_some]
    split <;> rfl

theorem sendQuery_calm (n : LineId) (as : List U64) (h : Calm false b s) : Calm false b (sendQuery n as s) :=
  offer_calm _ _ (modLine_calm n _ (fun _ => .plain rfl rfl) h)

theorem askQuery_calm (n : LineId) (h : Calm false b s) : Calm false b (askQuery n s) := ite_calm (sendQuery_calm _ _ h) h

theorem clearQuery_calm (n : LineId) (h : Calm false b s) : Calm false b (clearQuery n s) :=
  releaseHold_calm _ (dropControl_calm _ (modLine_calm n _ (fun _ => .plain rfl rfl) h))

theorem endQuery_calm (n : LineId) (h : Calm false b s) : Calm false b (endQuery n s) :=
  ite_calm (finishOrders_calm _ _ (clearQuery_calm n h)) h

theorem queryTimeout_calm (n : LineId) (h : Calm false b s) : Calm false b (queryTimeout n s) := by
  unfold queryTimeout
  dsimp only
  repeat' split
  · exact h
  · exact finishOrders_calm _ _ (raiseIfChanged_calm _ _ (modLine_calm n _ (fun _ => .plain rfl rfl)
      (changeLine_calm n _ (fun _ => .plain rfl rfl) (clearQuery_calm n h))))
  · exact h

theorem requeryTimeout_calm (n : LineId) (h : Calm false b s) : Calm false b (requeryTimeout n s) :=
  ite_calm (ite_calm (askQuery_calm n h) (modLine_calm n _ (fun _ => .plain rfl rfl) h)) h

theorem openWindow_calm (l : LinkId) (as : List U64) (hu : (s.link l).state = .up) (h : Calm false b s) :
    Calm false b (openWindow l as s) :=
  offer_calm _ _ (h.step (.link l _ ⟨rfl, rfl, rfl, rfl, rfl, rfl, rfl, le_rfl, fun _ h => h, fun _ h => h, fun _ h => h,
    fun h => absurd hu h, nofun⟩))

theorem shutWindow_calm (l : LinkId) (h : Calm false b s) : Calm false b (shutWindow l s) :=
  releaseHold_calm _ (dropControlOn_calm _ _ (modLink_calm l _ (fun _ => ⟨rfl, rfl, rfl, rfl, rfl, rfl, rfl, le_rfl,
    fun _ h => h, fun _ h => h, fun _ h => h, fun _ _ => rfl, nofun⟩) h))

theorem closeWindow_calm (l : LinkId) (w : RollWindow) (h : Calm false b s) : Calm false b (closeWindow l w s) :=
  finishOrders_calm _ _ (foldl_calm _ (fun _ n h => askQuery_calm n h) _
    (setLineStates_calm _ (shutWindow_calm l h)))

theorem rollWindowClose_calm (l : LinkId) (h : Calm false b s) : Calm false b (rollWindowClose l s) := by
  unfold rollWindowClose; split
  · exact ite_calm (closeWindow_calm _ _ h) h
  · exact h

theorem loseWindow_calm (l : LinkId) (h : Calm false b s) : Calm false b (loseWindow l s) := by
  unfold loseWindow; split
  · exact finishOrders_calm _ _ (shutWindow_calm l h)
  · exact h

theorem replaceQueued_calm (n : Nat) (h : Calm q b s) : Calm q b (replaceQueued n s) := by
  unfold replaceQueued; split
  · exact h
  · exact placeRaw_calm _ (leaveQueue_calm _ _ h)

theorem targetLost_calm (n : LineId) (h : Calm false b s) : Calm false b (targetLost n s) :=
  ite_calm (changeoverCheck_calm n h) (reexamine_calm _
    (foldl_calm _ (fun _ i h => replaceQueued_calm i h) _ (writeLineMirror_calm n (modLine_calm n _ (fun _ => .plain rfl rfl) h))))

theorem statusReply_calm (n : LineId) (v : Byte) (h : Calm false b s) : Calm false b (statusReply n v s) := by
  unfold statusReply
  dsimp only
  have h1 := modLine_calm n (fun k : Line => { k with statusByte := v, timeouts := 0 }) (fun _ => .plain rfl rfl) (clearQuery_calm n h)
  have h2 := ite_calm (p := statusTargetLost v = true) (targetLost_calm n h1) h1
  have h3 := raiseIfChanged_calm (s.line n) n (settleLine_calm (s.line n) n
    (modLine_calm n (fun k : Line => { k with state := statusState v }) (fun _ => .plain rfl rfl) h2))
  exact sweepPages_calm (finishOrders_calm _ _ (pickIfReady_calm _ _ h3))

/-! ### Transfers -/

theorem handBack_calm (x : Xfer) (h : Calm q b s) : Calm q b (handBack x s) := by
  unfold handBack
  repeat' split
  · exact h
  · exact place_calm _ (modRec_calm _ _ h)
  · exact requeueSlot_calm _ _ h

theorem switchAway_calm (l : LinkId) (x : Xfer) (h : Calm q b s) : Calm q b (switchAway l x s) :=
  pick_calm l (handBack_calm x (clearSending_calm l h))

theorem sentWhole_calm (x : Xfer) (h : Calm q b s) : Calm q b (sentWhole x s) := by
  cases x
  · exact applyChange_calm _ _ h
  · exact writeLineMirror_calm _ (modSlot_calm _ _ h)

theorem complete_calm (l : LinkId) (x : Xfer) (h : Calm q b s) : Calm q b (complete l x s) :=
  pick_calm l (sentWhole_calm x (clearSending_calm l h))

theorem startWindow_calm (l : LinkId) (x : Xfer) (h : Calm q b s) : Calm q b (startWindow l x s) := by
  unfold startWindow; split
  · exact ite_calm (modLink_calm l _ (fun _ => .same rfl rfl rfl rfl rfl rfl rfl le_rfl rfl rfl rfl rfl) h) h
  · exact h

theorem dataLeft_calm (l : LinkId) (x : Xfer) (off : Nat) (c last : Bool) (h : Calm q b s) :
    Calm q b (dataLeft l x off c last s) := by
  unfold dataLeft
  dsimp only
  have h1 := setSent_calm x off h
  have h2 := modLink_calm l (fun k : Link => { k with lastCkpt := some off }) (fun _ => .same rfl rfl rfl rfl rfl rfl rfl le_rfl rfl rfl rfl rfl) h1
  exact ite_calm (complete_calm _ _ h1)
    (ite_calm (ite_calm (switchAway_calm _ _ h2) (startWindow_calm _ _ h2)) (startWindow_calm _ _ h1))

theorem departed_calm (l : LinkId) (r : WireRole) (h : Calm q b s) : Calm q b (departed l r s) := by
  unfold departed
  repeat' split
  all_goals first | exact rewind_calm _ h | exact dataLeft_calm _ _ _ _ _ h | exact h

theorem departedPage_calm (r : WireRole) (h : Calm q b s) : Calm q b (departedPage r s) := by
  unfold departedPage; split
  · exact pageEndOf_calm _ h
  · exact h
  · exact h
  · exact h

theorem frameLeft_calm (l : LinkId) (h : Calm q b s) : Calm q b (frameLeft l s) := by
  unfold frameLeft; split
  · exact departedPage_calm _ (kick_calm l (departed_calm l _ (modLink_calm l _ (fun _ => ⟨rfl, rfl, rfl, rfl, rfl, rfl, rfl, le_rfl,
      fun _ _ => rfl, fun _ h => h, fun _ h => h, fun _ h => h, fun _ => rfl⟩) h)))
  · exact h

theorem raiseAcked_calm (l : LinkId) (x : Xfer) (i : XferInfo) (hd : Nat) (h : Calm q b s) :
    Calm q b (raiseAcked l x i hd s) :=
  ite_calm (modLink_calm l _ (fun _ => .same rfl rfl rfl rfl rfl rfl rfl le_rfl rfl rfl rfl rfl) (setAcked_calm _ _ h)) (setAcked_calm _ _ h)

theorem gapRewind_calm (l : LinkId) (h : Calm q b s) : Calm q b (gapRewind l s) :=
  ite_calm (modLink_calm l _ (fun _ => .same rfl rfl rfl rfl rfl rfl rfl le_rfl rfl rfl rfl rfl) h) (rewind_calm l h)

theorem ckptAck_calm (l : LinkId) (n : LineId) (tag hd c : Nat) (h : Calm q b s) : Calm q b (ckptAck l n tag hd c s) := by
  unfold ckptAck
  repeat' split
  · exact staleTag_calm _ h
  · exact staleTag_calm _ h
  · rename_i i heq
    have h1 := ite_calm (p := ackRaises i hd = true) (raiseAcked_calm (s.linkOf n) ‹Xfer› i hd h) h
    exact ite_calm (gapRewind_calm _ h1) (ite_calm (kick_calm _ h1) (staleTag_calm _ h1))

theorem windowTimeout_calm (l : LinkId) (h : Calm q b s) : Calm q b (windowTimeout l s) := by
  unfold windowTimeout
  dsimp only
  repeat' split
  all_goals first | exact h | exact rewind_calm _ h

theorem changeOver_calm (n : LineId) (g : U16) (h : Calm q b s) : Calm q b (changeOver n g s) := by
  unfold changeOver
  exact reexamine_calm _ (foldl_calm _ (fun _ i h => releaseCheck_calm i h) _
    (foldl_calm _ (fun _ i h => placeRaw_calm i h) _ (foldl_calm _ (fun _ i h => replaceQueued_calm i h) _ h)))

theorem goodConfirm_calm (n : LineId) (g : U16) (h : Calm false b s) : Calm false b (goodConfirm n g s) :=
  sweepPages_calm (changeOver_calm n g (writeLineMirror_calm n (modLine_calm n _ (fun _ => .plain rfl rfl) h)))

theorem slotFailed_calm (n : LineId) (g : U16) (h : Calm q b s) : Calm q b (slotFailed n g s) :=
  sweepPages_calm (reexamine_calm _ (raise_calm _ (idleSlot_calm _ (retractMany_calm _ _ _ (modEntry_calm _ _ _ h)))))

theorem slotAttemptFailed_calm (n : LineId) (sl : Slot) (h : Calm q b s) : Calm q b (slotAttemptFailed n sl s) :=
  ite_calm (slotFailed_calm _ _ h) (requeueSlot_calm _ _ h)

theorem targetConfirm_calm (l : LinkId) (n : LineId) (tag : Nat) (g : Bool) (h : Calm false b s) :
    Calm false b (targetConfirm l n tag g s) := by
  unfold targetConfirm; split
  · exact staleTag_calm _ h
  · exact ite_calm (ite_calm (goodConfirm_calm _ _ h) (slotAttemptFailed_calm _ _ h)) (staleTag_calm _ h)

theorem confirmTimeout_calm (n : LineId) (h : Calm q b s) : Calm q b (confirmTimeout n s) := by
  unfold confirmTimeout; split
  · exact h
  · exact ite_calm (slotAttemptFailed_calm _ _ h) h

theorem receipt_calm (l : LinkId) (n : LineId) (tag : Nat) (g : Bool) (h : Calm q b s) : Calm q b (receipt l n tag g s) := by
  unfold receipt; split
  · exact staleTag_calm _ h
  · exact ite_calm (deliver_calm _ h) (pageEndOf_calm _ (attemptFailed_calm _ h))

theorem endRec_calm (i : Nat) (r : DestRec) (st : DestState) (d : Detail) (h : Calm q b s) : Calm q b (endRec i r st d s) :=
  pageEndOf_calm _ (reexamine_calm _ (finish_calm _ _ _ h))

theorem releaseAck_calm (l : LinkId) (n : LineId) (tag : Nat) (h : Calm q b s) : Calm q b (releaseAck l n tag s) := by
  unfold releaseAck; split
  · exact staleTag_calm _ h
  · exact endRec_calm _ _ _ _ h

theorem withdrawAck_calm (l : LinkId) (n : LineId) (tag : Nat) (h : Calm q b s) : Calm q b (withdrawAck l n tag s) := by
  unfold withdrawAck; split
  · exact staleTag_calm _ h
  · split
    · exact endRec_calm _ _ _ _ h
    · exact h

theorem receiptTimeout_calm (n : Nat) (h : Calm q b s) : Calm q b (receiptTimeout n s) := by
  unfold receiptTimeout; split
  · exact h
  · exact ite_calm (pageEndOf_calm _ (attemptFailed_calm _ h)) h

theorem releaseTimeout_calm (n : Nat) (h : Calm q b s) : Calm q b (releaseTimeout n s) := by
  unfold releaseTimeout; split
  · exact h
  · exact ite_calm (ite_calm (sendRelease_calm _ h) (endRec_calm _ _ _ _ h)) h

theorem withdrawTimeout_calm (n : Nat) (h : Calm q b s) : Calm q b (withdrawTimeout n s) := by
  unfold withdrawTimeout; split
  · exact h
  · refine ite_calm (ite_calm (sendWithdraw_calm _ h) ?_) h
    split
    · exact endRec_calm _ _ _ _ h
    · exact h

end Sys2Proof.Machine
end

