-- ==== Sys2Proof/Laws/CalmFacts.lean ====
section
/-! SUPPORT. What follows from a calm change: one lemma for each part of the state, and that a calm change hides no write issued
and no cause raised before it. -/

namespace Sys2Proof.Machine

variable {q : Bool} {s t u : State}

/-! ### The relations kept are reflexive and transitive -/

theorem OrderKeeps.refl (o : OrderUnit) : OrderKeeps o o := ⟨rfl, BitVec.and_self, le_rfl⟩

theorem and_sub_trans {a b c : BitVec 9} (h : a &&& b = a) (k : b &&& c = b) : a &&& c = a := by
  rw [← h, BitVec.and_assoc, k]

theorem OrderKeeps.trans {a b c : OrderUnit} (h : OrderKeeps a b) (k : OrderKeeps b c) : OrderKeeps a c :=
  ⟨k.core.trans h.core, and_sub_trans h.attention k.attention, h.completions.trans k.completions⟩

theorem LineStill.refl (k : Line) : LineStill k k :=
  ⟨rfl, rfl, rfl, rfl, rfl, rfl, rfl, fun h => h, fun _ h => h⟩

theorem LineKeeps.refl (k : Line) : LineKeeps q k k := ⟨rfl, rfl, fun _ => LineStill.refl k⟩

theorem LineKeeps.trans {a b c : Line} (h : LineKeeps q a b) (k : LineKeeps q b c) : LineKeeps q a c where
  enabled := k.enabled.trans h.enabled
  cfg := k.cfg.trans h.cfg
  still e := by
    have h1 := h.still e
    have k1 := k.still e
    exact ⟨k1.state.trans h1.state, k1.statusByte.trans h1.statusByte, k1.timeouts.trans h1.timeouts,
      k1.changeCount.trans h1.changeCount, k1.query.trans h1.query, k1.requery.trans h1.requery, k1.held.trans h1.held,
      fun x => k1.catalog (h1.catalog x), fun y x => k1.slot (h.enabled.trans y) (h1.slot y x)⟩

theorem LinkKeeps.refl (k : Link) : LinkKeeps q k k := .same rfl rfl rfl rfl rfl rfl rfl le_rfl rfl rfl rfl rfl

theorem LinkKeeps.trans {a b c : Link} (h : LinkKeeps q a b) (k : LinkKeeps q b c) : LinkKeeps q a c where
  state := k.state.trans h.state
  rate := k.rate.trans h.rate
  guardMs := k.guardMs.trans h.guardMs
  silenceLimit := k.silenceLimit.trans h.silenceLimit
  markCount := k.markCount.trans h.markCount
  silence := k.silence.trans h.silence
  retry := k.retry.trans h.retry
  credit := k.credit.trans h.credit
  wire x y := k.wire (h.state ▸ x) (h.wire x y)
  control x y := k.control (h.state ▸ x) (h.control x y)
  sending x y := k.sending (h.state ▸ x) (h.sending x y)
  roll x y := k.roll (h.state ▸ x) (h.roll x y)
  still e := (k.still e).trans (h.still e)

theorem PageKeeps.refl (p : Page) : PageKeeps p p := .fields p _ _ _

theorem PageKeeps.trans {a b c : Page} (h : PageKeeps a b) (k : PageKeeps b c) : PageKeeps a c :=
  ⟨k.key.trans h.key, k.version.trans h.version, k.generation.trans h.generation, k.deadline.trans h.deadline,
    k.release.trans h.release, k.policy.trans h.policy, k.statedCrc.trans h.statedCrc, k.size.trans h.size,
    k.extents.trans h.extents, k.orderAddr.trans h.orderAddr, h.dests.trans k.dests⟩

/-! ### Fields that no calm change touches -/

/-- A cause raised changes ATTENTION alone, and may issue the MSI (R171). -/
theorem raise_eq (c : Cause) (s : State) : ∃ w, raise c s =
    { s with order := { s.order with attention := s.order.attention ||| c.bits }, bus := w ++ s.bus } := by
  unfold raise msiIfRisen
  split
  · exact ⟨[.msi], rfl⟩
  · exact ⟨[], rfl⟩

theorem and_or_self (a c : BitVec 9) : a &&& (a ||| c) = a := by
  ext i; simp; intro h; simp [h]

theorem Prim.outside (p : Prim q s t) :
    t.pending = s.pending ∧ t.readData = s.readData ∧ t.freeDraws = s.freeDraws ∧ t.clock = s.clock := by
  cases p with
  | raise c => obtain ⟨w, e⟩ := raise_eq c s; rw [e]; exact ⟨rfl, rfl, rfl, rfl⟩
  | _ => exact ⟨rfl, rfl, rfl, rfl⟩

theorem Calm.outside (h : Calm q s t) :
    t.pending = s.pending ∧ t.readData = s.readData ∧ t.freeDraws = s.freeDraws ∧ t.clock = s.clock := by
  induction h with
  | refl => exact ⟨rfl, rfl, rfl, rfl⟩
  | tail _ p ih =>
    obtain ⟨a, b, c, d⟩ := ih
    obtain ⟨a', b', c', d'⟩ := p.outside
    exact ⟨a'.trans a, b'.trans b, c'.trans c, d'.trans d⟩

theorem Calm.pending (h : Calm q s t) : t.pending = s.pending := h.outside.1
theorem Calm.readData (h : Calm q s t) : t.readData = s.readData := h.outside.2.1
theorem Calm.freeDraws (h : Calm q s t) : t.freeDraws = s.freeDraws := h.outside.2.2.1
theorem Calm.clock (h : Calm q s t) : t.clock = s.clock := h.outside.2.2.2

/-! ### The order unit -/

theorem Prim.orderKeeps (p : Prim q s t) : OrderKeeps s.order t.order := by
  cases p with
  | order f h ha => exact h _
  | raise c => obtain ⟨w, e⟩ := raise_eq c s; rw [e]; exact ⟨rfl, and_or_self _ _, le_rfl⟩
  | _ => exact OrderKeeps.refl _

theorem Calm.orderKeeps (h : Calm q s t) : OrderKeeps s.order t.order := by
  induction h with
  | refl => exact OrderKeeps.refl _
  | tail _ p ih => exact ih.trans p.orderKeeps

/-- Each field of the order unit's core. -/
theorem OrderUnit.core_fields {o o' : OrderUnit} (h : o'.core = o.core) :
    o'.part = o.part ∧ o'.run = o.run ∧ o'.mask = o.mask ∧ o'.deskBase = o.deskBase ∧ o'.deskHi = o.deskHi ∧
    o'.chainLimit = o.chainLimit ∧ o'.limitHi = o.limitHi ∧ o'.cursor = o.cursor ∧ o'.capture = o.capture ∧
    o'.walkStarted = o.walkStarted ∧ o'.faultCode = o.faultCode ∧ o'.walk = o.walk ∧ o'.stopping = o.stopping ∧
    o'.held.isSome = o.held.isSome := by
  cases o with
  | mk =>
    cases o' with
    | mk =>
      simp only [OrderUnit.core, OrderUnit.mk.injEq] at h
      obtain ⟨h1, h2, h3, _, h5, h6, h7, h8, h9, h10, h11, h12, h13, h14, h15, _⟩ := h
      refine ⟨h1, h2, h3, h5, h6, h7, h8, h9, h10, h11, h12, h13, h14, ?_⟩
      have := congrArg Option.isSome h15
      simpa using this

/-! ### Lines and links -/

theorem Prim.lineKeeps (p : Prim q s t) (n : LineId) : LineKeeps q (s.line n) (t.line n) := by
  cases p with
  | line m f h =>
    rw [State.line_modLine]
    split
    · next e => exact e ▸ h
    · exact LineKeeps.refl _
  | raise c => obtain ⟨w, e⟩ := raise_eq c s; rw [e]; exact LineKeeps.refl _
  | _ => exact LineKeeps.refl _

theorem Calm.lineKeeps (h : Calm q s t) (n : LineId) : LineKeeps q (s.line n) (t.line n) := by
  induction h with
  | refl => exact LineKeeps.refl _
  | tail _ p ih => exact ih.trans (p.lineKeeps n)

theorem Prim.linkKeeps (p : Prim q s t) (l : LinkId) : LinkKeeps q (s.link l) (t.link l) := by
  cases p with
  | link m f h =>
    rw [State.link_modLink]
    split
    · next e => exact e ▸ h
    · exact LinkKeeps.refl _
  | raise c => obtain ⟨w, e⟩ := raise_eq c s; rw [e]; exact LinkKeeps.refl _
  | _ => exact LinkKeeps.refl _

theorem Calm.linkKeeps (h : Calm q s t) (l : LinkId) : LinkKeeps q (s.link l) (t.link l) := by
  induction h with
  | refl => exact LinkKeeps.refl _
  | tail _ p ih => exact ih.trans (p.linkKeeps l)

/-! ### Pages, tables and the deadline list -/

theorem Prim.page (p : Prim q s t) {n : Nat} {e' : Page} (h : t.page? n = some e') :
    ∃ e, s.page? n = some e ∧ PageKeeps e e' := by
  cases p with
  | modPage m f hf =>
    simp only [State.page?, State.modPage] at h ⊢
    rw [Table.get_modify] at h
    split at h
    · next hm =>
      obtain ⟨e, h1, h2⟩ := Option.map_eq_some_iff.1 h
      exact ⟨e, hm ▸ h1, h2 ▸ hf e⟩
    · exact ⟨e', h, PageKeeps.refl e'⟩
  | delPage m =>
    simp only [State.page?, State.delPage] at h ⊢
    rw [Table.get_del] at h
    split at h
    · cases h
    · exact ⟨e', h, PageKeeps.refl e'⟩
  | raise c => obtain ⟨w, e⟩ := raise_eq c s; rw [e] at h; exact ⟨e', h, PageKeeps.refl e'⟩
  | _ => exact ⟨e', h, PageKeeps.refl e'⟩

/-- A page entry that is in use after a calm change was in use before it, with the same order's fields (R1). -/
theorem Calm.page (h : Calm q s t) {n : Nat} {e' : Page} (he : t.page? n = some e') :
    ∃ e, s.page? n = some e ∧ PageKeeps e e' := by
  induction h generalizing e' with
  | refl => exact ⟨e', he, PageKeeps.refl e'⟩
  | tail _ p ih =>
    obtain ⟨e, h1, k1⟩ := p.page he
    obtain ⟨e0, h0, k0⟩ := ih h1
    exact ⟨e0, h0, k0.trans k1⟩

/-- What a change keeps of the tables: their order, and no page entry but those in use before. -/
structure TablesKeep (s t : State) : Prop where
  pages : Table.rising s.pages = true → Table.rising t.pages = true
  entries : ∀ p ∈ Table.keys t.pages, p ∈ Table.keys s.pages
  recs : Table.rising s.recs = true → Table.rising t.recs = true
  deadlines : sortedDue s.deadlines → sortedDue t.deadlines

theorem TablesKeep.refl (s : State) : TablesKeep s s := ⟨id, fun _ => id, id, id⟩

theorem TablesKeep.trans (h : TablesKeep s t) (k : TablesKeep t u) : TablesKeep s u :=
  ⟨k.pages ∘ h.pages, fun p hp => h.entries p (k.entries p hp), k.recs ∘ h.recs, k.deadlines ∘ h.deadlines⟩

theorem Prim.tables (p : Prim q s t) : TablesKeep s t := by
  cases p with
  | modRec n f => exact ⟨id, fun _ => id, fun h => Table.rising_modify h n f, id⟩
  | putRec n r => exact ⟨id, fun _ => id, fun h => Table.rising_put h n r, id⟩
  | delRec n => exact ⟨id, fun _ => id, fun h => Table.rising_del h n, id⟩
  | modPage n f =>
    refine ⟨fun h => Table.rising_modify h n f, fun p hp => ?_, id, id⟩
    simpa only [State.modPage, Table.keys_modify] using hp
  | delPage n =>
    refine ⟨fun h => Table.rising_del h n, fun p hp => ?_, id, id⟩
    simp only [State.delPage, Table.keys, Table.del, List.mem_map, List.mem_filter] at hp ⊢
    obtain ⟨e, he, hp⟩ := hp
    exact ⟨e, he.1, hp⟩
  | deadlines d h => exact ⟨id, fun _ => id, id, h⟩
  | raise c => obtain ⟨w, e⟩ := raise_eq c s; rw [e]; exact ⟨id, fun _ => id, id, id⟩
  | _ => exact ⟨id, fun _ => id, id, id⟩

theorem Calm.tables (h : Calm q s t) : TablesKeep s t := by
  induction h with
  | refl => exact TablesKeep.refl _
  | tail _ p ih => exact ih.trans p.tables

/-! ### Writes -/

theorem Prim.bus (p : Prim q s t) : ∃ w, t.bus = w ++ s.bus := by
  cases p with
  | write a bytes => exact ⟨[.write a bytes], rfl⟩
  | raise c => obtain ⟨w, e⟩ := raise_eq c s; exact ⟨w, by rw [e]⟩
  | _ => exact ⟨[], rfl⟩

/-- A calm change only adds writes. -/
theorem Calm.bus (h : Calm q s t) : ∃ w, t.bus = w ++ s.bus := by
  induction h with
  | refl => exact ⟨[], rfl⟩
  | tail _ p ih =>
    obtain ⟨w, hw⟩ := ih
    obtain ⟨v, hv⟩ := p.bus
    exact ⟨v ++ w, by rw [hv, hw, List.append_assoc]⟩

/-- A write issued stays issued. -/
theorem Issued.calm {w : BusWrite} (h : Issued s t w) (k : Calm q t u) : Issued s u w := by
  obtain ⟨later, earlier, h⟩ := h
  obtain ⟨v, hv⟩ := k.bus
  exact ⟨v ++ later, earlier, by rw [hv, h, List.append_assoc]⟩

/-- What is issued after a calm change is issued. -/
theorem Calm.issued {w : BusWrite} (k : Calm q s t) (h : Issued t u w) : Issued s u w := by
  obtain ⟨later, earlier, h⟩ := h
  obtain ⟨v, hv⟩ := k.bus
  exact ⟨later, earlier ++ v, by rw [h, hv, List.append_assoc]⟩

theorem Issued.hostWrite (a : U64) (bytes : List Byte) (s : State) : Issued s (hostWrite a bytes s) (.write a bytes) :=
  ⟨[], [], rfl⟩

/-- A cause raised stands until ATTENTION is read. -/
theorem Raised.calm {c : Cause} (h : Raised t c) (k : Calm q t u) : Raised u c := by
  unfold Raised at h ⊢
  have e := k.orderKeeps.attention
  have := congrArg (fun b : BitVec 9 => b.getLsbD c.bit) e
  simpa [h] using this

theorem Cause.bits_bit (c : Cause) : c.bits.getLsbD c.bit = true := by cases c <;> rfl

theorem Raised.raise (c : Cause) (s : State) : Raised (raise c s) c := by
  obtain ⟨w, e⟩ := raise_eq c s
  rw [e]
  simp [Raised, Cause.bits_bit]

/-! ### The MSI (R171) -/

/-- The MSIs issued between two states: one where the masked causes went from none to some, else none. -/
structure MsiKeeps (s t : State) : Prop where
  mask : t.order.mask = s.order.mask
  stays : s.order.masked ≠ 0 → t.order.masked ≠ 0
  count : t.bus.count .msi = s.bus.count .msi + if s.order.masked = 0 ∧ t.order.masked ≠ 0 then 1 else 0

theorem MsiKeeps.quiet (hm : t.order.mask = s.order.mask) (ha : t.order.attention = s.order.attention)
    (hb : t.bus.count .msi = s.bus.count .msi) : MsiKeeps s t := by
  have e : t.order.masked = s.order.masked := by unfold OrderUnit.masked; rw [hm, ha]
  refine ⟨hm, fun h => e ▸ h, ?_⟩
  rw [hb, if_neg]
  · rfl
  · rintro ⟨h1, h2⟩
    exact h2 (e ▸ h1)

theorem MsiKeeps.trans (h : MsiKeeps s t) (k : MsiKeeps t u) : MsiKeeps s u := by
  refine ⟨k.mask.trans h.mask, k.stays ∘ h.stays, ?_⟩
  rw [k.count, h.count]
  by_cases hs : s.order.masked = 0 <;> by_cases ht : t.order.masked = 0 <;> by_cases hu : u.order.masked = 0
  all_goals first
    | exact absurd hu (k.stays ht)
    | exact absurd ht (h.stays hs)
    | simp only [hs, ht, hu, ne_eq, not_true_eq_false, not_false_eq_true, and_true, and_false, if_true,
        if_false, Nat.add_zero]

theorem raise_msi (c : Cause) (s : State) : MsiKeeps s (raise c s) := by
  have hstay : s.order.masked ≠ 0 → (s.order.attention ||| c.bits) &&& s.order.mask ≠ 0 := by
    intro h e
    refine h ?_
    unfold OrderUnit.masked
    have := congrArg (fun b => s.order.attention &&& b) e
    simpa [← BitVec.and_assoc, and_or_self] using this
  unfold raise msiIfRisen
  split
  · next h =>
    refine ⟨rfl, hstay, ?_⟩
    show (BusWrite.msi :: s.bus).count .msi = _
    rw [List.count_cons_self]
    exact congrArg _ (if_pos h).symm
  · next h =>
    exact ⟨rfl, hstay, (Nat.add_zero _).symm.trans (congrArg (s.bus.count .msi + ·) (if_neg h).symm)⟩

theorem Prim.msi (p : Prim q s t) : MsiKeeps s t := by
  cases p with
  | write a bytes =>
    refine .quiet rfl rfl ?_
    show (BusWrite.write a bytes :: s.bus).count .msi = _
    exact List.count_cons_of_ne (by simp)
  | raise c => exact raise_msi c s
  | order f h ha => exact .quiet (OrderUnit.core_fields (h s.order).core).2.2.1 (ha _) rfl
  | _ => exact .quiet rfl rfl rfl

/-- A calm change sends the MSI as R171 says. -/
theorem Calm.msi (h : Calm q s t) : MsiKeeps s t := by
  induction h with
  | refl => exact .quiet rfl rfl rfl
  | tail _ p ih => exact ih.trans p.msi

end Sys2Proof.Machine
end

