-- ==== Sys2Proof/Laws/CalmOrders.lean ====
section
/-! SUPPORT. The calm changes among the operations of links, orders and received frames. -/

namespace Sys2Proof.Machine

variable {q : Bool} {b s : State}

/-! ### Links -/

theorem linkChanged_calm (l : LinkId) (h : Calm q b s) : Calm q b (linkChanged l s) :=
  raise_calm _ (writeLinkMirror_calm l h)

theorem recLinkUp_calm (n : Nat) (h : Calm q b s) : Calm q b (recLinkUp n s) := by
  unfold recLinkUp
  repeat' split
  all_goals first | exact h | exact modRec_calm _ _ h | exact sendWithdraw_calm _ h | exact sendRelease_calm _ h | exact releaseCheck_calm _ h

theorem owed_calm (n : LineId) (g : Option U16) (h : Calm q b s) : Calm q b (s.modLine n fun k => { k with owed := g }) :=
  modLine_calm n _ (fun _ => ⟨rfl, rfl, fun _ => ⟨rfl, rfl, rfl, rfl, rfl, rfl, rfl, fun h => h, fun _ h => h⟩⟩) h

theorem sendOwedTarget_calm (n : LineId) (h : Calm q b s) : Calm q b (sendOwedTarget n s) := by
  unfold sendOwedTarget
  repeat' split
  all_goals first | exact h | exact offer_calm _ _ (owed_calm n none h)

theorem linesUp_calm (l : LinkId) (h : Calm false b s) : Calm false b (linesUp l s) := setLineStates_calm _ h

theorem ownersUp_calm (l : LinkId) (h : Calm q b s) : Calm q b (ownersUp l s) :=
  foldl_calm _ (fun _ n h => sendOwedTarget_calm n h) _ (foldl_calm _ (fun _ n h => recLinkUp_calm n h) _
    (foldl_calm _ (fun _ n h => enterReleasing_calm n h) _ h))

theorem returnRec_calm (n : Nat) (h : Calm q b s) : Calm q b (returnRec n s) := place_calm _ (modRec_calm _ _ h)

theorem returnSlot_calm (n : LineId) (h : Calm q b s) : Calm q b (returnSlot n s) := requeueSlot_calm _ _ h

theorem returnSending_calm (l : LinkId) (h : Calm q b s) : Calm q b (returnSending l s) := by
  unfold returnSending
  have h1 := clearSending_calm l h
  repeat' split
  · exact h
  · exact returnRec_calm _ h1
  · exact returnSlot_calm _ h1

theorem pauseTimer_calm (n : Nat) (h : Calm q b s) : Calm q b (pauseTimer n s) := modRec_calm _ _ h

theorem ownersDown_calm (l : LinkId) (h : Calm q b s) : Calm q b (ownersDown l s) :=
  foldl_calm _ (fun _ n h => pauseTimer_calm n h) _ (foldl_calm _ (fun _ n h => returnSlot_calm n h) _
    (foldl_calm _ (fun _ n h => returnRec_calm n h) _ h))

theorem linesDown_calm (l : LinkId) (h : Calm false b s) : Calm false b (linesDown l s) := setLineStates_calm _ h

theorem pollDown_calm (l : LinkId) (h : Calm false b s) : Calm false b (pollDown l s) :=
  foldl_calm _ (fun _ n h => endQuery_calm n h) _ (loseWindow_calm l h)

theorem recomputeSlot_calm (n : LineId) (h : Calm q b s) : Calm q b (recomputeSlot n s) := by
  unfold recomputeSlot; split
  · exact h
  · exact modSlot_calm _ _ h

theorem recomputeLink_calm (l : LinkId) (h : Calm q b s) : Calm q b (recomputeLink l s) :=
  resortQueue_calm l (foldl_calm _ (fun _ n h => recomputeSlot_calm n h) _ (foldl_calm _ (fun _ n h => updateL_calm n h) _ h))

/-! ### What follows a take; pages -/

theorem afterTake_calm (h : Calm q b s) : Calm q b (afterTake s) := startVerify_calm (fireDue_id_calm (sweepPages_calm h))

theorem writeTaken_calm (a : U64) (h : Calm q b s) : Calm q b (writeTaken a s) := writeDisposition_calm _ _ _ h

theorem retirePage_calm (n : Nat) (p : Page) (w : RetireCause) (d : Detail) (h : Calm q b s) :
    Calm q b (retirePage n p w d s) :=
  retractPage_calm _ _ _ (leaveVerify_calm _ (modPage_calm _ _ (fun p => .fields p _ _ _) h))

theorem takeRec_calm (n : Nat) (r : DestRec) (h : Calm q b s) : Calm q b (takeRec n r s) :=
  addDeadline_calm _ (putRec_calm n r h)

theorem takeWithdraw_calm (a : U64) (w : WithdrawBody) (h : Calm q b s) : Calm q b (takeWithdraw a w s) := by
  unfold takeWithdraw
  refine ite_calm (refuse_calm _ _ h) ?_
  cases keyOwner s w.key with
  | none => exact refuse_calm _ _ h
  | some o => exact ite_calm (refuse_calm _ _ h) (finalDisposition_calm _ _ _ (retirePage_calm _ _ _ _ h))

/-- Steps 2 to 6 of an accepted CONSIGN (R5), its page entry being in the table. -/
theorem acceptConsign_calm (a : U64) (c : ConsignBody) (n : Nat) (old : Option (Nat × Page)) (s : State) :
    Calm q ((s.setFree (s.free.drop c.dests.length)).putPage n (consignPage a c (s.free.take c.dests.length)))
      (acceptConsign a c n old s) := by
  unfold acceptConsign
  have h := foldl_calm (fun (s : State) (x : Nat × DestRec) => takeRec x.1 x.2 s) (fun _ x h => takeRec_calm x.1 x.2 h)
    (consignRecs n a c (s.free.take c.dests.length))
    (Calm.refl (q := q) ((s.setFree (s.free.drop c.dests.length)).putPage n (consignPage a c (s.free.take c.dests.length))))
  refine writeTaken_calm _ (foldl_calm _ (fun _ i h => writeEntry_calm i h) _ (joinVerify_calm _ ?_))
  cases old with
  | none => exact h
  | some o => exact retirePage_calm _ _ _ _ h

/-! ### ISSUE TARGET -/

/-- Past the start of the fold and past every number of the list. -/
theorem foldl_fresh (xs : List Nat) (m : Nat) :
    m ≤ xs.foldl (fun m k => max m (k + 1)) m ∧ ∀ x ∈ xs, x < xs.foldl (fun m k => max m (k + 1)) m := by
  induction xs generalizing m with
  | nil => simp
  | cons y ys ih =>
    obtain ⟨h, hs⟩ := ih (max m (y + 1))
    exact ⟨by simp only [List.foldl_cons]; omega, fun x hx => by
      rcases List.mem_cons.1 hx with rfl | hx
      · simp only [List.foldl_cons]; omega
      · exact hs x hx⟩

/-- A new order's number is that of no order not final and of no catalog entry. -/
theorem freshOrder_not_mem (s : State) : freshOrder s ∉ orderNumbers s :=
  fun h => Nat.lt_irrefl _ ((foldl_fresh (orderNumbers s) 0).2 _ h)

theorem dropEntry_calm (n : LineId) (e : CatEntry) (h : Calm q b s) : Calm q b (dropEntry n e s) :=
  targetProgress_calm _ _ _ (reportEntry_calm _ _ _ (modLine_calm n _
    (fun _ => ⟨rfl, rfl, fun _ => ⟨rfl, rfl, rfl, rfl, rfl, rfl, rfl, fun h => by simp [h], fun _ h => h⟩⟩) (leaveVerify_calm _ h)))

theorem dropGeneration_calm (n : LineId) (e : CatEntry) (h : Calm q b s) : Calm q b (dropGeneration n e s) := by
  unfold dropGeneration
  dsimp only
  have h1 := dropEntry_calm n e (ite_calm
    (p := (s.line n).slot.map (fun sl => sl.generation) = some e.generation) (abortSlot_calm n h) h)
  exact writeLineMirror_calm n (ite_calm h1 (retractMany_calm _ _ _ h1))

theorem issueEntry_calm (a : U64) (k : Nat) (g : U16) (t : TargetEntry) (i : Nat) (h : Calm false b s) :
    Calm false b (issueEntry a k g t i s) := by
  unfold issueEntry
  dsimp only
  refine joinVerify_calm _ (writeLineMirror_calm _ (modLine_calm _ _ (fun _ => .plain rfl rfl) ?_))
  split
  · exact dropGeneration_calm _ _ h
  · exact h

theorem acceptIssue_calm (a : U64) (w : IssueTargetBody) (h : Calm false b s) : Calm false b (acceptIssue a w s) := by
  unfold acceptIssue
  exact foldl_calm _ (fun _ t h => changeoverCheck_calm _ h) _ (writeTaken_calm _ (foldl_calm _
    (fun _ _ h => hostWrite_calm _ _ h) _ (foldl_calm _ (fun _ x h => issueEntry_calm _ _ _ _ _ h) _ (setTargetOrders_calm _ h))))

theorem takeIssueTarget_calm (a : U64) (w : IssueTargetBody) (h : Calm false b s) : Calm false b (takeIssueTarget a w s) := by
  unfold takeIssueTarget; split
  · exact refuse_calm _ _ h
  · exact acceptIssue_calm _ _ h

/-! ### SET PRESS LINE -/

theorem reroute_calm (n : LineId) (l : LinkId) (h : Calm false b s) : Calm false b (reroute n l s) :=
  askQuery_calm n (setLineState_calm n _ (endQuery_calm n h))

theorem moveXfer_calm (l m : LinkId) (x : Xfer) (h : Calm q b s) : Calm q b (moveXfer l m s x) :=
  joinQueue_calm _ _ (leaveQueue_calm _ _ h)

theorem moveQueues_calm (n : LineId) (l m : LinkId) (h : Calm q b s) : Calm q b (moveQueues n l m s) := by
  unfold moveQueues
  exact pick_calm _ (reexamine_calm _ (foldl_calm _ (fun _ x h => moveXfer_calm _ _ x h) _ (recomputeSlot_calm n
    (foldl_calm _ (fun _ i h => updateL_calm i h) _ h))))

theorem moveRec_calm (up : Bool) (i : Nat) (h : Calm q b s) : Calm q b (moveRec up s i) :=
  ite_calm (recLinkUp_calm i h) (pauseTimer_calm i h)

theorem moveFrame_calm (l : LinkId) (c : CtlFrame) (h : Calm q b s) : Calm q b (moveFrame l s c) := by
  unfold moveFrame
  split
  · exact offer_calm _ _ h
  · split
    all_goals first | exact h | exact owed_calm _ _ h

theorem moveFrames_calm (n : LineId) (l m : LinkId) (cs : List CtlFrame) (h : Calm q b s) :
    Calm q b (moveFrames n l m cs s) := foldl_calm _ (fun _ c h => moveFrame_calm _ c h) _ (dropControlOn_calm _ _ h)

theorem moveLink_calm (n : LineId) (l m : LinkId) (h : Calm q b s) : Calm q b (moveLink n l m s) := by
  unfold moveLink
  exact moveFrames_calm _ _ _ _ (sendOwedTarget_calm n (foldl_calm _ (fun _ i h => moveRec_calm _ i h) _ (moveQueues_calm _ _ _ h)))

theorem repathRec_calm (i : Nat) (h : Calm q b s) : Calm q b (repathRec s i) := by
  unfold repathRec; split
  · exact h
  · exact ite_calm h (moveInQueue_calm _ _ (updateL_calm _ h))

theorem repath_calm (n : LineId) (h : Calm q b s) : Calm q b (repath n s) :=
  reexamine_calm n (foldl_calm _ (fun _ i h => repathRec_calm i h) _ h)

theorem retimeEntry_calm (w : Nat) (d : DeadlineEntry) (h : Calm q b s) : Calm q b (retimeEntry w s d) := by
  unfold retimeEntry; split
  · exact h
  · exact addDeadline_calm _ (removeDeadline_calm _ h)

theorem retime_calm (n : LineId) (w : Nat) (h : Calm q b s) : Calm q b (retime n w s) :=
  foldl_calm _ (fun _ d h => retimeEntry_calm w d h) _ h

/-- What a SET PRESS LINE of an enabled line does once its configuration stands (R127 steps 2 to 5). -/
theorem reconfigureLine_calm (n : LineId) (c : LineConfig) (s : State) :
    Calm false (s.modLine n fun k => { k with cfg := c }) (reconfigureLine n c s) := by
  unfold reconfigureLine
  dsimp only
  have h := Calm.refl (q := false) (s.modLine n fun k => { k with cfg := c })
  have h1 := ite_calm (p := routeChanged (s.line n).cfg c = true) (reroute_calm n c.link h) h
  have h2 := ite_calm (p := (s.line n).cfg.link ≠ c.link) (moveLink_calm n (s.line n).cfg.link c.link h1) h1
  have h3 := ite_calm (p := (s.line n).cfg.path ≠ c.path) (repath_calm n h2) h2
  exact ite_calm (retime_calm n c.warnLead h3) h3

theorem loseRec_calm (i : Nat) (h : Calm q b s) : Calm q b (loseRec s i) := by
  unfold loseRec; split
  · exact h
  · exact ite_calm h (finish_calm _ _ _ (detachRec_calm i h))

theorem clearCatalog_calm (n : LineId) (h : Calm false b s) : Calm false b (clearCatalog n s) := by
  unfold clearCatalog
  exact writeLineMirror_calm n (modLine_calm n _ (fun _ => .plain rfl rfl) (dropControl_calm _ (detachSlot_calm n
    (foldl_calm _ (fun _ e h => dropEntry_calm n e h) _ h))))

/-! ### ROLL CALL and QUERY LINE -/

theorem joinRoll_calm (l : LinkId) (hw : (s.link l).roll.isSome) (v : RollWindow) (h : Calm false b s) :
    Calm false b (s.modLink l fun k => { k with roll := some v }) :=
  h.step (.link l _ ⟨rfl, rfl, rfl, rfl, rfl, rfl, rfl, le_rfl, fun _ h => h, fun _ h => h, fun _ h => h,
    fun _ h => by simp [h] at hw, nofun⟩)

theorem query_calm (n : LineId) (v : Option Query) (h : Calm false b s) :
    Calm false b (s.modLine n fun k => { k with query := v }) := modLine_calm n _ (fun _ => .plain rfl rfl) h

/-! ### Received frames -/

theorem echoReceived_calm (l : LinkId) (c : Nat) (h : Calm q b s) : Calm q b (echoReceived l c s) :=
  ite_calm h (raise_calm _ (bumpLink_calm _ _ h))

theorem rollAnswer_calm (l : LinkId) (m : U64) (h : Calm false b s) : Calm false b (rollAnswer l m s) := by
  unfold rollAnswer; split
  · exact staleTag_calm _ h
  · exact modLink_calm l _ (fun _ => ⟨rfl, rfl, rfl, rfl, rfl, rfl, rfl, le_rfl, fun _ h => h, fun _ h => h, fun _ h => h,
      fun _ h => by simp [h], nofun⟩) h

theorem statusReceived_calm (l : LinkId) (n : LineId) (v : Byte) (h : Calm false b s) :
    Calm false b (statusReceived l n v s) := ite_calm (statusReply_calm n v h) (staleTag_calm l h)

theorem fromLine_calm (l : LinkId) (k : Byte) (f : InFrame) (n : LineId) (h : Calm false b s) :
    Calm false b (fromLine l k f n s) := by
  unfold fromLine
  dsimp only
  exact ite_calm (staleTag_calm _ h) (ite_calm (statusReceived_calm _ _ _ h) (ite_calm (ckptAck_calm _ _ _ _ _ h)
    (ite_calm (ite_calm (targetConfirm_calm _ _ _ _ h) (receipt_calm _ _ _ _ h)) (ite_calm (staleTag_calm _ h)
      (ite_calm (releaseAck_calm _ _ _ h) (withdrawAck_calm _ _ _ h))))))

end Sys2Proof.Machine
end

