-- ==== Sys2Proof/Laws/Mild.lean ====
section
/-! SUPPORT. Mild changes: calm changes, and changes of lines and links of any kind, of the order unit's record taken last, and, with
`c`, of the press clock. Every command but the resets, the register accesses and the walk makes a mild change, CONSIGN on a
state that has the new page entry. -/

namespace Sys2Proof.Machine

/-- What a mild change keeps of the order unit: all but the cursor, the walk-started mark and a held take. -/
structure OrderMild (o o' : OrderUnit) : Prop where
  part : o'.part = o.part
  run : o'.run = o.run
  mask : o'.mask = o.mask
  deskBase : o'.deskBase = o.deskBase
  deskHi : o'.deskHi = o.deskHi
  chainLimit : o'.chainLimit = o.chainLimit
  limitHi : o'.limitHi = o.limitHi
  capture : o'.capture = o.capture
  faultCode : o'.faultCode = o.faultCode
  walk : o'.walk = o.walk
  stopping : o'.stopping = o.stopping
  held : o.held.isSome = true → o'.held.isSome = true
  attention : o.attention &&& o'.attention = o.attention
  completions : o.completions.toNat ≤ o'.completions.toNat

theorem OrderMild.refl (o : OrderUnit) : OrderMild o o :=
  ⟨rfl, rfl, rfl, rfl, rfl, rfl, rfl, rfl, rfl, rfl, rfl, id, BitVec.and_self, le_rfl⟩

theorem OrderMild.trans {a b c : OrderUnit} (h : OrderMild a b) (k : OrderMild b c) : OrderMild a c :=
  ⟨k.part.trans h.part, k.run.trans h.run, k.mask.trans h.mask, k.deskBase.trans h.deskBase, k.deskHi.trans h.deskHi,
    k.chainLimit.trans h.chainLimit, k.limitHi.trans h.limitHi, k.capture.trans h.capture, k.faultCode.trans h.faultCode,
    k.walk.trans h.walk, k.stopping.trans h.stopping, k.held ∘ h.held, and_sub_trans h.attention k.attention,
    h.completions.trans k.completions⟩

theorem OrderKeeps.mild {o o' : OrderUnit} (h : OrderKeeps o o') : OrderMild o o' := by
  obtain ⟨h1, h2, h3, h4, h5, h6, h7, _, h9, _, h11, h12, h13, h14⟩ := OrderUnit.core_fields h.core
  exact ⟨h1, h2, h3, h4, h5, h6, h7, h9, h11, h12, h13, fun h => h14.trans h, h.attention, h.completions⟩

/-- What a mild change may reach besides: the press clock with the mark counts, which lines are enabled and how they are
configured, the values of SET LINK, the link states. -/
structure Reach where
  clock : Bool
  line  : Bool
  setup : Bool
  life  : Bool

/-- A change of a line within reach. -/
def LineReach (r : Reach) (f : Line → Line) : Prop :=
  r.line = true ∨ ∀ k, (f k).enabled = k.enabled ∧ (f k).cfg = k.cfg

/-- A change of a link within reach. -/
structure LinkReach (r : Reach) (f : Link → Link) : Prop where
  setup : r.setup = true ∨ ∀ k, (f k).rate = k.rate ∧ (f k).guardMs = k.guardMs ∧ (f k).silenceLimit = k.silenceLimit
  life : r.life = true ∨ ∀ k, (f k).state = k.state
  mark : r.clock = true ∨ ∀ k, (f k).markCount = k.markCount

/-- A change of a link's other fields is within every reach. -/
theorem LinkReach.other {r : Reach} {f : Link → Link}
    (h : ∀ k, (f k).rate = k.rate ∧ (f k).guardMs = k.guardMs ∧ (f k).silenceLimit = k.silenceLimit ∧ (f k).state = k.state ∧
      (f k).markCount = k.markCount) : LinkReach r f :=
  ⟨.inr fun k => ⟨(h k).1, (h k).2.1, (h k).2.2.1⟩, .inr fun k => (h k).2.2.2.1, .inr fun k => (h k).2.2.2.2⟩

/-- One part of a mild change. -/
inductive MildPart (c : Reach) (s : State) : State → Prop
  | calm {t : State} (h : Calm false s t) : MildPart c s t
  | line (n : LineId) (f : Line → Line) (h : LineReach c f) : MildPart c s (s.modLine n f)
  | link (l : LinkId) (f : Link → Link) (h : LinkReach c f) : MildPart c s (s.modLink l f)
  | order (f : OrderUnit → OrderUnit) (h : ∀ o, OrderMild o (f o)) (ha : ∀ o, (f o).attention = o.attention) :
    MildPart c s (s.modOrder f)
  | clock (f : Clock → Clock) (h : c.clock = true) : MildPart c s (s.modClock f)
  | elapsed (h : c.clock = true) : MildPart c s (advanceElapsed s)
  | tick (h : c.clock = true) : MildPart c s (tickTimers s)

abbrev Mild (c : Reach) : State → State → Prop := Relation.ReflTransGen fun s t => MildPart c s t

variable {c : Reach} {b s t u : State}

theorem Mild.step (h : Mild c b s) (p : MildPart c s t) : Mild c b t := Relation.ReflTransGen.tail h p

theorem Mild.refl (s : State) : Mild c s s := Relation.ReflTransGen.refl

theorem Mild.trans (h : Mild c s t) (k : Mild c t u) : Mild c s u := Relation.ReflTransGen.trans h k

theorem Calm.mild (h : Calm false s t) : Mild c s t := (Mild.refl s).step (.calm h)

/-- A calm change after a mild one. -/
theorem Mild.calm (h : Mild c b s) (k : Calm false s t) : Mild c b t := h.step (.calm k)

/-! ### What follows from a mild change -/

theorem MildPart.outside (p : MildPart c s t) : t.pending = s.pending ∧ t.readData = s.readData := by
  cases p with
  | calm h => exact ⟨h.pending, h.readData⟩
  | elapsed h => unfold advanceElapsed; split <;> exact ⟨rfl, rfl⟩
  | _ => exact ⟨rfl, rfl⟩

theorem Mild.outside (h : Mild c s t) : t.pending = s.pending ∧ t.readData = s.readData := by
  induction h with
  | refl => exact ⟨rfl, rfl⟩
  | tail _ p ih => exact ⟨p.outside.1.trans ih.1, p.outside.2.trans ih.2⟩

theorem MildPart.clockEq (hc : c.clock = false) (p : MildPart c s t) : t.clock = s.clock := by
  cases p with
  | calm h => exact h.clock
  | clock f h => simp [hc] at h
  | elapsed h => simp [hc] at h
  | tick h => simp [hc] at h
  | _ => rfl

theorem Mild.clock (hc : c.clock = false) (h : Mild c s t) : t.clock = s.clock := by
  induction h with
  | refl => rfl
  | tail _ p ih => exact (p.clockEq hc).trans ih

/-- What a change keeps of a line's set-up. -/
structure SetupKeeps (s t : State) : Prop where
  enabled : ∀ n, (t.line n).enabled = (s.line n).enabled
  cfg : ∀ n, (t.line n).cfg = (s.line n).cfg

theorem tickTimers_line (s : State) (n : LineId) : (tickTimers s).line n = (s.line n).tick := by
  simp [tickTimers, State.line]

theorem tickTimers_link (s : State) (l : LinkId) : (tickTimers s).link l = (s.link l).tick := by
  simp [tickTimers, State.link]

theorem MildPart.lineSetup (hc : c.line = false) (p : MildPart c s t) : SetupKeeps s t := by
  cases p with
  | calm h => exact ⟨fun n => (h.lineKeeps n).enabled, fun n => (h.lineKeeps n).cfg⟩
  | line m f h =>
    have hf := h.resolve_left (by simp [hc])
    refine ⟨fun n => ?_, fun n => ?_⟩ <;> rw [State.line_modLine] <;> split
    · exact (‹n = m› ▸ (hf _).1)
    · rfl
    · exact (‹n = m› ▸ (hf _).2)
    · rfl
  | elapsed h => unfold advanceElapsed; split <;> exact ⟨fun _ => rfl, fun _ => rfl⟩
  | tick h => exact ⟨fun n => by rw [tickTimers_line]; rfl, fun n => by rw [tickTimers_line]; rfl⟩
  | _ => exact ⟨fun _ => rfl, fun _ => rfl⟩

theorem Mild.lineSetup (hc : c.line = false) (h : Mild c s t) : SetupKeeps s t := by
  induction h with
  | refl => exact ⟨fun _ => rfl, fun _ => rfl⟩
  | tail _ p ih =>
    have k := p.lineSetup hc
    exact ⟨fun n => (k.enabled n).trans (ih.enabled n), fun n => (k.cfg n).trans (ih.cfg n)⟩

theorem MildPart.linkSetup (hc : c.setup = false) (p : MildPart c s t) (l : LinkId) :
    (t.link l).rate = (s.link l).rate ∧ (t.link l).guardMs = (s.link l).guardMs ∧
      (t.link l).silenceLimit = (s.link l).silenceLimit := by
  cases p with
  | calm h => exact ⟨(h.linkKeeps l).rate, (h.linkKeeps l).guardMs, (h.linkKeeps l).silenceLimit⟩
  | link m f h =>
    have hf := h.setup.resolve_left (by simp [hc])
    rw [State.link_modLink]
    split
    · next e => exact e ▸ hf _
    · exact ⟨rfl, rfl, rfl⟩
  | elapsed h => unfold advanceElapsed; split <;> exact ⟨rfl, rfl, rfl⟩
  | tick h => rw [tickTimers_link]; exact ⟨rfl, rfl, rfl⟩
  | _ => exact ⟨rfl, rfl, rfl⟩

theorem Mild.linkSetup (hc : c.setup = false) (h : Mild c s t) (l : LinkId) :
    (t.link l).rate = (s.link l).rate ∧ (t.link l).guardMs = (s.link l).guardMs ∧
      (t.link l).silenceLimit = (s.link l).silenceLimit := by
  induction h with
  | refl => exact ⟨rfl, rfl, rfl⟩
  | tail _ p ih =>
    have k := p.linkSetup hc l
    exact ⟨k.1.trans ih.1, k.2.1.trans ih.2.1, k.2.2.trans ih.2.2⟩

theorem MildPart.linkLife (hc : c.life = false) (p : MildPart c s t) (l : LinkId) : (t.link l).state = (s.link l).state := by
  cases p with
  | calm h => exact (h.linkKeeps l).state
  | link m f h =>
    have hf := h.life.resolve_left (by simp [hc])
    rw [State.link_modLink]
    split
    · next e => exact e ▸ hf _
    · rfl
  | elapsed h => unfold advanceElapsed; split <;> rfl
  | tick h => rw [tickTimers_link]; rfl
  | _ => rfl

theorem Mild.linkLife (hc : c.life = false) (h : Mild c s t) (l : LinkId) : (t.link l).state = (s.link l).state := by
  induction h with
  | refl => rfl
  | tail _ p ih => exact (p.linkLife hc l).trans ih

theorem MildPart.markCount (hc : c.clock = false) (p : MildPart c s t) (l : LinkId) :
    (t.link l).markCount = (s.link l).markCount := by
  cases p with
  | calm h => exact (h.linkKeeps l).markCount
  | link m f h =>
    have hf := h.mark.resolve_left (by simp [hc])
    rw [State.link_modLink]
    split
    · next e => exact e ▸ hf _
    · rfl
  | elapsed h => unfold advanceElapsed; split <;> rfl
  | tick h => rw [tickTimers_link]; rfl
  | _ => rfl

theorem Mild.markCount (hc : c.clock = false) (h : Mild c s t) (l : LinkId) :
    (t.link l).markCount = (s.link l).markCount := by
  induction h with
  | refl => rfl
  | tail _ p ih => exact (p.markCount hc l).trans ih

theorem MildPart.orderMild (p : MildPart c s t) : OrderMild s.order t.order := by
  cases p with
  | calm h => exact h.orderKeeps.mild
  | order f h ha => exact h _
  | elapsed h => unfold advanceElapsed; split <;> exact OrderMild.refl _
  | _ => exact OrderMild.refl _

theorem Mild.orderMild (h : Mild c s t) : OrderMild s.order t.order := by
  induction h with
  | refl => exact OrderMild.refl _
  | tail _ p ih => exact ih.trans p.orderMild

theorem MildPart.bus (p : MildPart c s t) : ∃ w, t.bus = w ++ s.bus := by
  cases p with
  | calm h => exact h.bus
  | elapsed h => unfold advanceElapsed; split <;> exact ⟨[], rfl⟩
  | _ => exact ⟨[], rfl⟩

theorem Mild.bus (h : Mild c s t) : ∃ w, t.bus = w ++ s.bus := by
  induction h with
  | refl => exact ⟨[], rfl⟩
  | tail _ p ih =>
    obtain ⟨w, hw⟩ := ih
    obtain ⟨v, hv⟩ := p.bus
    exact ⟨v ++ w, by rw [hv, hw, List.append_assoc]⟩

theorem MildPart.msi (p : MildPart c s t) : MsiKeeps s t := by
  cases p with
  | calm h => exact h.msi
  | order f h ha => exact .quiet (h s.order).mask (ha _) rfl
  | elapsed h => unfold advanceElapsed; split <;> exact .quiet rfl rfl rfl
  | _ => exact .quiet rfl rfl rfl

/-- A mild change sends the MSI as R171 says. -/
theorem Mild.msi (h : Mild c s t) : MsiKeeps s t := by
  induction h with
  | refl => exact .quiet rfl rfl rfl
  | tail _ p ih => exact ih.trans p.msi

theorem MildPart.tables (p : MildPart c s t) : TablesKeep s t := by
  cases p with
  | calm h => exact h.tables
  | elapsed h => unfold advanceElapsed; split <;> exact ⟨id, fun _ => id, id, id⟩
  | tick h =>
    refine ⟨id, fun _ => id, fun hr => ?_, id⟩
    rw [Table.rising_iff] at hr ⊢
    simpa [tickTimers, Table.keys, Function.comp_def] using hr
  | _ => exact ⟨id, fun _ => id, id, id⟩

theorem Mild.tables (h : Mild c s t) : TablesKeep s t := by
  induction h with
  | refl => exact TablesKeep.refl _
  | tail _ p ih => exact ih.trans p.tables

theorem MildPart.page (p : MildPart c s t) {n : Nat} {e' : Page} (h : t.page? n = some e') :
    ∃ e, s.page? n = some e ∧ PageKeeps e e' := by
  cases p with
  | calm k => exact k.page h
  | elapsed k =>
    unfold advanceElapsed at h
    split at h <;> exact ⟨e', h, PageKeeps.refl e'⟩
  | _ => exact ⟨e', h, PageKeeps.refl e'⟩

/-- A page entry in use after a mild change was in use before it, with the fields its CONSIGN gave it (R1). -/
theorem Mild.page (h : Mild c s t) {n : Nat} {e' : Page} (he : t.page? n = some e') :
    ∃ e, s.page? n = some e ∧ PageKeeps e e' := by
  induction h generalizing e' with
  | refl => exact ⟨e', he, PageKeeps.refl e'⟩
  | tail _ p ih =>
    obtain ⟨e, h1, k1⟩ := p.page he
    obtain ⟨e0, h0, k0⟩ := ih h1
    exact ⟨e0, h0, k0.trans k1⟩

/-- A write issued stays issued. -/
theorem Issued.mild {w : BusWrite} (h : Issued s t w) (k : Mild c t u) : Issued s u w := by
  obtain ⟨later, earlier, h⟩ := h
  obtain ⟨v, hv⟩ := k.bus
  exact ⟨v ++ later, earlier, by rw [hv, h, List.append_assoc]⟩

/-! ### Links -/

theorem linkUp_mild (l : LinkId) (hl : c.life = true) (h : Mild c b s) : Mild c b (linkUp l s) := by
  unfold linkUp
  dsimp only
  refine (h.step (.link l _ (by exact ⟨.inr fun _ => ⟨rfl, rfl, rfl⟩, .inl hl, .inr fun _ => rfl⟩))).calm
    (pick_calm l (openWindow_calm l [] ?_ (ownersUp_calm l (linesUp_calm l
    (linkChanged_calm l (Calm.refl _))))))
  have k := ((ownersUp_calm l (linesUp_calm l (linkChanged_calm l (Calm.refl (q := false) (s.modLink l fun k =>
    { k with state := .up, credit := Config.creditGrant, silence := some k.silenceLimit }))))).linkKeeps l).state
  rw [k, State.link_modLink, if_pos rfl]

theorem linkDown_mild (l : LinkId) (st : LinkState) (hl : c.life = true) (h : Mild c b s) : Mild c b (linkDown l st s) :=
  (h.step (.link l _ (by exact ⟨.inr fun _ => ⟨rfl, rfl, rfl⟩, .inl hl, .inr fun _ => rfl⟩))).calm
    (pollDown_calm l (linesDown_calm l (ownersDown_calm l (returnSending_calm l (linkChanged_calm l (Calm.refl _))))))

theorem silenceTimeout_mild (l : LinkId) (hl : c.life = true) (h : Mild c b s) : Mild c b (silenceTimeout l s) := by
  unfold silenceTimeout; split
  · exact (linkDown_mild l _ hl h).calm (sweepPages_calm (Calm.refl _))
  · exact h

theorem lossOfSignal_mild (l : LinkId) (hl : c.life = true) (h : Mild c b s) : Mild c b (lossOfSignal l s) := by
  unfold lossOfSignal; split
  · exact (linkDown_mild l _ hl h).calm (sweepPages_calm (Calm.refl _))
  · exact h

theorem setState_mild (l : LinkId) (f : Link → Link) (hf : LinkReach c f) (h : Mild c b s) :
    Mild c b (linkChanged l (s.modLink l f)) := (h.step (.link l _ hf)).calm (linkChanged_calm l (Calm.refl _))

theorem retryTimeout_mild (l : LinkId) (hl : c.life = true) (h : Mild c b s) : Mild c b (retryTimeout l s) := by
  unfold retryTimeout; split
  · exact setState_mild l _ (by exact ⟨.inr fun _ => ⟨rfl, rfl, rfl⟩, .inl hl, .inr fun _ => rfl⟩) h
  · exact h

theorem applyEnable_mild (l : LinkId) (e : Bool) (hl : c.life = true) (h : Mild c b s) : Mild c b (applyEnable l e s) := by
  unfold applyEnable; split
  · exact setState_mild l _ (by exact ⟨.inr fun _ => ⟨rfl, rfl, rfl⟩, .inl hl, .inr fun _ => rfl⟩) h
  · exact h
  · exact h
  · exact h
  · exact h
  · exact setState_mild l _ (by exact ⟨.inr fun _ => ⟨rfl, rfl, rfl⟩, .inl hl, .inr fun _ => rfl⟩) h
  · exact linkDown_mild l _ hl h
  · exact setState_mild l _ (by exact ⟨.inr fun _ => ⟨rfl, rfl, rfl⟩, .inl hl, .inr fun _ => rfl⟩) h

theorem applySetLink_mild (l : LinkId) (w : SetLinkBody) (hl : c.life = true) (hs : c.setup = true) (h : Mild c b s) : Mild c b (applySetLink l w s) := by
  unfold applySetLink
  have h1 := applyEnable_mild l w.enable hl (h.step (.link l (fun k =>
    { k with rate := setLinkRate w, guardMs := setLinkGuard w, silenceLimit := setLinkSilence w })
    ⟨.inl hs, .inr fun _ => rfl, .inr fun _ => rfl⟩))
  have h2 := h1.step (.link l (fun k => { k with silence := k.silence.map fun _ => setLinkSilence w })
    (.other fun _ => ⟨rfl, rfl, rfl, rfl, rfl⟩))
  exact h2.calm (writeLinkMirror_calm l (recomputeLink_calm l (Calm.refl _)))

/-! ### Orders -/

theorem markTaken_mild (a : U64) (h : Mild c b s) : Mild c b (markTaken a s) :=
  h.step (.order _ (fun _ => ⟨rfl, rfl, rfl, rfl, rfl, rfl, rfl, rfl, rfl, rfl, rfl, id, BitVec.and_self, le_rfl⟩) fun _ => rfl)

theorem takeSetLink_mild (a : U64) (w : SetLinkBody) (hl : c.life = true) (hs : c.setup = true) (h : Mild c b s) : Mild c b (takeSetLink a w s) := by
  unfold takeSetLink; split
  · exact (applySetLink_mild _ w hl hs h).calm (finalDisposition_calm _ _ _ (Calm.refl _))
  · exact h.calm (refuse_calm _ _ (Calm.refl _))

theorem enableLine_mild (n : LineId) (k : LineConfig) (hl : c.line = true) (h : Mild c b s) : Mild c b (enableLine n k s) :=
  (h.step (.line n _ (.inl hl))).calm (askQuery_calm n (setLineState_calm n _ (Calm.refl _)))

theorem disableLine_mild (n : LineId) (hl : c.line = true) (h : Mild c b s) : Mild c b (disableLine n s) := by
  unfold disableLine
  dsimp only
  have h1 := h.calm (endQuery_calm n (clearCatalog_calm n (sweepPages_calm
    (foldl_calm (b := s) _ (fun _ i h => loseRec_calm i h) (s.recsOf n) (Calm.refl _)))))
  exact (h1.step (.line n (fun k => { k with enabled := false, state := .unconfigured, statusByte := 0, timeouts := 0 })
    (.inl hl))).calm
    (pick_calm _ (raiseIfChanged_calm _ _ (settleLine_calm _ n (Calm.refl _))))

theorem applySetLine_mild (w : SetLineBody) (hl : c.line = true) (h : Mild c b s) : Mild c b (applySetLine w s) := by
  unfold applySetLine
  dsimp only
  split
  · exact enableLine_mild _ _ hl h
  · exact (h.step (.line _ _ (.inl hl))).calm (reconfigureLine_calm _ _ _)
  · exact disableLine_mild _ hl h
  · exact h

theorem takeSetLine_mild (a : U64) (w : SetLineBody) (hl : c.line = true) (h : Mild c b s) : Mild c b (takeSetLine a w s) := by
  unfold takeSetLine; split
  · exact h.calm (refuse_calm _ _ (Calm.refl _))
  · exact (applySetLine_mild w hl h).calm (finalDisposition_calm _ _ _ (Calm.refl _))

theorem holdTake_mild (a : U64) (o : HeldOrder) (h : Mild c b s) : Mild c b (holdTake a o s) := by
  refine h.step (.order _ (fun q => ⟨rfl, rfl, rfl, rfl, rfl, rfl, rfl, rfl, rfl, rfl, rfl, fun hh => ?_, BitVec.and_self,
    le_rfl⟩) fun _ => rfl)
  cases q.held <;> rfl

theorem takeRollCall_mild (a : U64) (w : Byte) (h : Mild c b s) : Mild c b (takeRollCall a w s) := by
  have hm := markTaken_mild a h
  unfold takeRollCall
  dsimp only
  split
  · exact hm.calm (refuse_calm _ _ (Calm.refl _))
  · split
    · exact hm.calm (refuse_calm _ _ (Calm.refl _))
    · split
      · exact (hm.step (.link _ _ (by exact .other fun _ => ⟨rfl, rfl, rfl, rfl, rfl⟩))).calm (writeTaken_calm a (offer_calm _ _ (Calm.refl _)))
      · split
        · exact (hm.step (.link _ _ (by exact .other fun _ => ⟨rfl, rfl, rfl, rfl, rfl⟩))).calm (writeTaken_calm a (Calm.refl _))
        · exact holdTake_mild _ _ h

theorem takeQueryLine_mild (a : U64) (w : Byte) (h : Mild c b s) : Mild c b (takeQueryLine a w s) := by
  have hm := markTaken_mild a h
  unfold takeQueryLine
  dsimp only
  split
  · exact hm.calm (refuse_calm _ _ (Calm.refl _))
  · split
    · exact hm.calm (refuse_calm _ _ (Calm.refl _))
    · split
      · exact hm.calm (writeTaken_calm a (sendQuery_calm _ _ (Calm.refl _)))
      · split
        · exact (hm.step (.line _ _ (by exact .inr fun _ => ⟨rfl, rfl⟩))).calm (writeTaken_calm a (Calm.refl _))
        · exact holdTake_mild _ _ h

theorem takeBadKind_mild (a : U64) (h : Mild c b s) : Mild c b (takeBadKind a s) :=
  h.calm (raise_calm _ (refuse_calm _ _ (Calm.refl _)))

theorem afterTake_mild (h : Mild c b s) : Mild c b (afterTake s) := h.calm (afterTake_calm (Calm.refl _))

/-! ### The press clock -/

theorem markLink_mild (v : Nat) (l : LinkId) (hc : c.clock = true) (h : Mild c b s) : Mild c b (markLink v s l) := by
  unfold markLink; split
  · exact (h.step (.link l _ (by exact ⟨.inr fun _ => ⟨rfl, rfl, rfl⟩, .inr fun _ => rfl, .inl hc⟩))).calm (writeLinkMirror_calm l (offer_calm _ _ (Calm.refl _)))
  · exact h

theorem markLinks_mild (v : Nat) (ls : List LinkId) (hc : c.clock = true) (h : Mild c b s) : Mild c b (ls.foldl (markLink v) s) := by
  induction ls generalizing s with
  | nil => exact h
  | cons l ls ih => exact ih (markLink_mild v l hc h)

theorem markTrigger_mild (old : Nat) (hc : c.clock = true) (h : Mild c b s) : Mild c b (markTrigger old s) := by
  unfold markTrigger; split
  · exact ((markLinks_mild _ _ hc h).step (.clock _ hc)).calm (writeSummary_calm (Calm.refl _))
  · exact h

theorem afterAdvance_mild (old : Nat) (hc : c.clock = true) (h : Mild c b s) : Mild c b (afterAdvance old s) :=
  markTrigger_mild old hc (h.calm (fireDue_start_calm (Calm.refl _)))

theorem stepValue_mild (hc : c.clock = true) (h : Mild c b s) : Mild c b (stepValue s) := by
  unfold stepValue
  dsimp only
  split
  · exact ((h.step (.clock _ hc)).step (.clock _ hc)).calm (raise_calm _ (writeSummary_calm (Calm.refl _)))
  · exact h.step (.clock _ hc)

theorem advanceClock_mild (hc : c.clock = true) (h : Mild c b s) : Mild c b (advanceClock s) := by
  unfold advanceClock
  split
  · exact h
  · split
    · exact h.step (.clock _ hc)
    · exact afterAdvance_mild _ hc (stepValue_mild hc h)
    · exact afterAdvance_mild _ hc (stepValue_mild hc h)

theorem acceptPulse_mild (hc : c.clock = true) (h : Mild c b s) : Mild c b (acceptPulse s) := by
  unfold acceptPulse
  dsimp only
  split
  · exact h.step (.clock _ hc)
  · exact (h.step (.clock _ hc)).calm (writeSummary_calm (Calm.refl _))

theorem evaluatePulse_mild (hc : c.clock = true) (h : Mild c b s) : Mild c b (evaluatePulse s) := by
  unfold evaluatePulse
  split
  · exact acceptPulse_mild hc h
  · exact acceptPulse_mild hc (h.step (.clock _ hc))
  · exact afterAdvance_mild _ hc (acceptPulse_mild hc (h.step (.clock _ hc)))
  · exact h.calm (bumpCounter_calm _ (Calm.refl _))

theorem takeSetClock_mild (a : U64) (w : SetClockBody) (hc : c.clock = true) (h : Mild c b s) : Mild c b (takeSetClock a w s) := by
  unfold takeSetClock
  split
  · exact h.calm (refuse_calm _ _ (Calm.refl _))
  · dsimp only
    have h1 := (markTrigger_mild s.clock.value hc ((h.step (.clock (fun k => { k with
      hold := none, value := clampClock w.value, clockEnd := false, clockUnset := false, source := ‹ClockSource›
      sync := match ‹ClockSource› with | .internal => .free | .station => .acquiring
      loss := none }) hc)).calm (writeSummary_calm (Calm.refl _)))).calm
        (finalDisposition_calm a (if w.value.toNat = Config.maxU32 then .adjusted else .done) 0 (Calm.refl _))
    split
    · exact h1.calm (fireDue_id_calm (Calm.refl _))
    · exact h1

/-! ### Received frames -/

theorem grantCredit_mild (l : LinkId) (h : Mild c b s) : Mild c b (grantCredit l s) := by
  unfold grantCredit
  dsimp only
  exact (h.step (.link l (fun k => { k with credit := min ((s.link l).credit + Config.creditGrant) Config.creditMax })
    (.other fun _ => ⟨rfl, rfl, rfl, rfl, rfl⟩))).calm
    (kick_calm l (ite_calm (bumpLink_calm l _ (Calm.refl _)) (Calm.refl _)))

theorem accepted_mild (l : LinkId) (k : Byte) (f : InFrame) (x : Source) (h : Mild c b s) :
    Mild c b (accepted l k f x s) := by
  unfold accepted
  dsimp only
  have h1 := h.step (.link l (fun k => { k with silence := some k.silenceLimit })
    (.other fun _ => ⟨rfl, rfl, rfl, rfl, rfl⟩))
  have h2 : Mild c b (fromOther l k f (restartSilence l s)) := by
    unfold fromOther
    split
    · exact grantCredit_mild l h1
    · split
      · exact h1.calm (echoReceived_calm l _ (Calm.refl _))
      · exact h1.calm (ite_calm (staleTag_calm l (Calm.refl _)) (rollAnswer_calm l _ (Calm.refl _)))
  cases x with
  | line n => exact h1.calm (fromLine_calm l k f n (ite_calm (askQuery_calm n (Calm.refl _)) (Calm.refl _)))
  | site => exact h2
  | anyone => exact h2

theorem checkFrame_mild (l : LinkId) (k : Byte) (f : InFrame) (hl : k = kindCredit → c.life = true) (h : Mild c b s) : Mild c b (checkFrame l k f s) := by
  unfold checkFrame
  split
  · exact h.calm (bumpLink_calm l _ (Calm.refl _))
  · split
    · exact h.calm (raise_calm _ (bumpLink_calm l _ (Calm.refl _)))
    · split
      · exact h.calm (bumpLink_calm l _ (Calm.refl _))
      · split
        · exact accepted_mild l k f _ h
        · unfold acceptedConnecting
          split
          · next e => exact linkUp_mild l (hl e) h
          · exact h

theorem receive_mild (l : LinkId) (k : Byte) (f : InFrame) (hl : k = kindCredit → c.life = true) (h : Mild c b s) : Mild c b (receive l k f s) := by
  unfold receive
  split
  all_goals first | exact checkFrame_mild l k f hl (h.step (.link l _ (by exact .other fun _ => ⟨rfl, rfl, rfl, rfl, rfl⟩))) | exact h

end Sys2Proof.Machine
end

