-- ==== Sys2Proof/Laws/Exec.lean ====
section
/-! SUPPORT. What each command can do, by its group: one lemma for the groups that make a mild change, one for CONSIGN, one for the
register accesses, the walk and the resets. -/

namespace Sys2Proof.Machine

variable {b s t : State}

/-- What the commands of a group may reach. -/
def Group.reach : Group → Reach
  | .clock | .setClock => ⟨true, false, false, false⟩
  | .setLine => ⟨false, true, false, false⟩
  | .setLink => ⟨false, false, true, true⟩
  | .linkEvent | .credit => ⟨false, false, false, true⟩
  | .reset | .register | .walk | .consign | .order | .event => ⟨false, false, false, false⟩

/-- Whether a command of a group makes a mild change. -/
def Group.mild : Group → Bool
  | .reset | .register | .walk | .consign => false
  | .setLink | .setLine | .setClock | .order | .clock | .linkEvent | .credit | .event => true

theorem next_inj {x y : State} (h : (Host.Outcome.next x : Host.Outcome State Fault Refusal) = .next y) : x = y := by
  cases h; rfl

variable {r : Reach}

theorem holdEnd_mild (hc : r.clock = true) (h : execHoldEnd s = .next t) : Mild r s t := by
  unfold execHoldEnd at h
  split at h <;> cases h
  · exact (Mild.refl s).step (.clock _ hc)
  · exact Mild.refl s

theorem lossTimer_mild (hc : r.clock = true) (h : execLossTimerExpiry s = .next t) : Mild r s t := by
  unfold execLossTimerExpiry at h
  split at h <;> cases h
  · exact ((Mild.refl s).step (.clock _ hc)).calm (raise_calm _ (writeSummary_calm (Calm.refl _)))
  · exact Mild.refl s

theorem syncPulse_mild (hc : r.clock = true) (h : execSyncPulse s = .next t) : Mild r s t := by
  unfold execSyncPulse at h
  split at h <;> cases h
  · exact evaluatePulse_mild hc ((Mild.refl s).step (.clock _ hc))
  · exact Mild.refl s

theorem fireKind_calm (k : DeadlineKind) (s : State) : Calm false s (fireKind k s) :=
  ite_calm (fireDue_start_calm (Calm.refl _)) (Calm.refl _)

/-- What the commands of the mild groups do. -/
theorem exec_mild (c : Instr) (hg : (group c).mild = true) (h : exec c s = .next t) : Mild (group c).reach s t := by
  cases c
  case controlReset w => simp only [group] at hg; split at hg <;> cases hg
  case registerWrite o w v => simp only [group] at hg; split at hg <;> cases hg
  case outboundKindReceived l k f =>
    refine next_inj h ▸ receive_mild l k f (fun e => ?_) (Mild.refl s)
    subst e
    rfl
  case setClock a w =>
    exact next_inj h ▸ (takeSetClock_mild a w rfl (markTaken_mild a (Mild.refl s))).calm (startVerify_calm (Calm.refl _))
  case clockAdvance =>
    exact next_inj h ▸ advanceClock_mild rfl (((Mild.refl s).step (.elapsed rfl)).step (.tick rfl))
  case syncPulse => exact syncPulse_mild rfl h
  case holdEnd => exact holdEnd_mild rfl h
  case lossTimerExpiry => exact lossTimer_mild rfl h
  case setLink a w => exact next_inj h ▸ afterTake_mild (takeSetLink_mild a w rfl rfl (markTaken_mild a (Mild.refl s)))
  case setPressLine a w => exact next_inj h ▸ afterTake_mild (takeSetLine_mild a w rfl (markTaken_mild a (Mild.refl s)))
  case withdraw a w =>
    exact next_inj h ▸ afterTake_mild ((markTaken_mild a (Mild.refl s)).calm (takeWithdraw_calm a w (Calm.refl _)))
  case issueTarget a w =>
    exact next_inj h ▸ afterTake_mild ((markTaken_mild a (Mild.refl s)).calm (takeIssueTarget_calm a w (Calm.refl _)))
  case rollCall a w => exact next_inj h ▸ takeRollCall_mild a w (Mild.refl s)
  case queryLine a w => exact next_inj h ▸ takeQueryLine_mild a w (Mild.refl s)
  case badKind a w => exact next_inj h ▸ takeBadKind_mild a (markTaken_mild a (Mild.refl s))
  case verifyPassEnd p => exact next_inj h ▸ Calm.mild (startVerify_calm (passEnd_calm p (Calm.refl _)))
  case verifyReadError => exact next_inj h ▸ Calm.mild (startVerify_calm (passReadError_calm (Calm.refl _)))
  case sendReadError n => exact next_inj h ▸ Calm.mild (pageReadError_calm _ (Calm.refl _))
  case targetReadError n => exact next_inj h ▸ Calm.mild (slotReadError_calm n (Calm.refl _))
  case warnFiring => exact next_inj h ▸ Calm.mild (fireKind_calm _ s)
  case missFiring => exact next_inj h ▸ Calm.mild (fireKind_calm _ s)
  case releaseFiring => exact next_inj h ▸ Calm.mild (fireKind_calm _ s)
  case receiptTimeout n => exact next_inj h ▸ Calm.mild (receiptTimeout_calm _ (Calm.refl _))
  case releaseTimeout n => exact next_inj h ▸ Calm.mild (releaseTimeout_calm _ (Calm.refl _))
  case withdrawTimeout n => exact next_inj h ▸ Calm.mild (withdrawTimeout_calm _ (Calm.refl _))
  case confirmTimeout n => exact next_inj h ▸ Calm.mild (confirmTimeout_calm n (Calm.refl _))
  case windowTimeout l => exact next_inj h ▸ Calm.mild (windowTimeout_calm l (Calm.refl _))
  case silenceTimeout l => exact next_inj h ▸ silenceTimeout_mild l rfl (Mild.refl s)
  case lossOfSignal l => exact next_inj h ▸ lossOfSignal_mild l rfl (Mild.refl s)
  case retryTimeout l => exact next_inj h ▸ retryTimeout_mild l rfl (Mild.refl s)
  case queryTimeout n => exact next_inj h ▸ Calm.mild (queryTimeout_calm n (Calm.refl _))
  case rollWindowClose l => exact next_inj h ▸ Calm.mild (rollWindowClose_calm l (Calm.refl _))
  case requeryTimeout n => exact next_inj h ▸ Calm.mild (requeryTimeout_calm n (Calm.refl _))
  case credit l f => exact next_inj h ▸ receive_mild l _ f (fun _ => rfl) (Mild.refl s)
  case ckptAck l f => exact next_inj h ▸ receive_mild l _ f (fun e => absurd e (by decide)) (Mild.refl s)
  case receipt l f => exact next_inj h ▸ receive_mild l _ f (fun e => absurd e (by decide)) (Mild.refl s)
  case targetConfirm l f => exact next_inj h ▸ receive_mild l _ f (fun e => absurd e (by decide)) (Mild.refl s)
  case releaseAck l f => exact next_inj h ▸ receive_mild l _ f (fun e => absurd e (by decide)) (Mild.refl s)
  case withdrawAck l f => exact next_inj h ▸ receive_mild l _ f (fun e => absurd e (by decide)) (Mild.refl s)
  case status l f => exact next_inj h ▸ receive_mild l _ f (fun e => absurd e (by decide)) (Mild.refl s)
  case rollAnswer l f => exact next_inj h ▸ receive_mild l _ f (fun e => absurd e (by decide)) (Mild.refl s)
  case echo l f => exact next_inj h ▸ receive_mild l _ f (fun e => absurd e (by decide)) (Mild.refl s)
  case frameLeft l => exact next_inj h ▸ Calm.mild (frameLeft_calm l (Calm.refl _))
  all_goals cases hg

/-! ### CONSIGN -/

theorem freeEntry_free {n : Nat} (h : freeEntry s = some n) : s.page? n = none ∧ n < Config.pageEntries := by
  unfold freeEntry at h
  exact ⟨by simpa using List.find?_some h, by simpa using List.mem_of_find?_eq_some h⟩

theorem consignCheck_free {w : ConsignBody} {n : Nat} (h : consignCheck s w = .inr n) : freeEntry s = some n := by
  unfold consignCheck at h
  repeat' split at h
  all_goals first | cases h; assumption | cases h

/-- A CONSIGN is refused with a mild change, or makes a mild change once its page entry stands where none was in use (R4, R5). -/
theorem consign_mild (a : U64) (w : ConsignBody) (h : exec (.consign a w) s = .next t) :
    Mild r s t ∨ ∃ u n p, Mild r s u ∧ u.page? n = none ∧ n < Config.pageEntries ∧ u.pages = s.pages ∧
      Mild r (u.putPage n p) t := by
  have e := (next_inj h).symm
  subst e
  show Mild r s (afterTake (takeConsign a w (markTaken a s))) ∨ _
  have hm := markTaken_mild (c := r) a (Mild.refl s)
  cases hc : consignCheck (markTaken a s) w with
  | inl why =>
    have e : takeConsign a w (markTaken a s) = refuse a why (markTaken a s) := by unfold takeConsign; rw [hc]
    rw [e]
    exact .inl (afterTake_mild (hm.calm (refuse_calm _ _ (Calm.refl _))))
  | inr n =>
    have e : takeConsign a w (markTaken a s) = acceptConsign a w n (keyOwner (markTaken a s) w.key) (markTaken a s) := by
      unfold takeConsign; rw [hc]
    have hf := freeEntry_free (consignCheck_free hc)
    refine .inr ⟨(markTaken a s).setFree ((markTaken a s).free.drop w.dests.length), n,
      consignPage a w ((markTaken a s).free.take w.dests.length), ?_, hf.1, hf.2, rfl, ?_⟩
    · exact hm.calm (setFree_calm _ (Calm.refl _))
    · show Mild r _ (afterTake (takeConsign a w (markTaken a s)))
      rw [e]
      exact afterTake_mild (Calm.mild (acceptConsign_calm a w n _ _))

/-! ### Register accesses -/

/-- What a register access can change: the order unit, the value read, the writes. -/
structure RegisterKeeps (s t : State) : Prop where
  pending : t.pending = s.pending
  counters : t.counters = s.counters
  clock : t.clock = s.clock
  pages : t.pages = s.pages
  verify : t.verify = s.verify
  recs : t.recs = s.recs
  free : t.free = s.free
  deadlines : t.deadlines = s.deadlines
  lines : t.lines = s.lines
  targetOrders : t.targetOrders = s.targetOrders
  links : t.links = s.links
  seqNext : t.seqNext = s.seqNext
  freeDraws : t.freeDraws = s.freeDraws
  bus : ∃ w, t.bus = w ++ s.bus

theorem RegisterKeeps.refl (s : State) : RegisterKeeps s s :=
  ⟨rfl, rfl, rfl, rfl, rfl, rfl, rfl, rfl, rfl, rfl, rfl, rfl, rfl, [], rfl⟩

theorem RegisterKeeps.trans {u : State} (h : RegisterKeeps s t) (k : RegisterKeeps t u) : RegisterKeeps s u := by
  obtain ⟨w, hw⟩ := h.bus
  obtain ⟨v, hv⟩ := k.bus
  exact ⟨k.pending.trans h.pending, k.counters.trans h.counters, k.clock.trans h.clock, k.pages.trans h.pages,
    k.verify.trans h.verify, k.recs.trans h.recs, k.free.trans h.free, k.deadlines.trans h.deadlines, k.lines.trans h.lines,
    k.targetOrders.trans h.targetOrders, k.links.trans h.links, k.seqNext.trans h.seqNext, k.freeDraws.trans h.freeDraws,
    v ++ w, by rw [hv, hw, List.append_assoc]⟩

theorem modOrder_registers (f : OrderUnit → OrderUnit) (h : RegisterKeeps b s) : RegisterKeeps b (s.modOrder f) :=
  h.trans ⟨rfl, rfl, rfl, rfl, rfl, rfl, rfl, rfl, rfl, rfl, rfl, rfl, rfl, [], rfl⟩

theorem deskWrite_registers (o : Nat) (x : List Byte) (h : RegisterKeeps b s) : RegisterKeeps b (deskWrite o x s) := by
  unfold deskWrite
  split
  · exact h
  · exact h.trans ⟨rfl, rfl, rfl, rfl, rfl, rfl, rfl, rfl, rfl, rfl, rfl, rfl, rfl, [_], rfl⟩

theorem msiIfRisen_registers (m : BitVec 9) (h : RegisterKeeps b s) : RegisterKeeps b (msiIfRisen m s) := by
  unfold msiIfRisen
  split
  · exact h.trans ⟨rfl, rfl, rfl, rfl, rfl, rfl, rfl, rfl, rfl, rfl, rfl, rfl, rfl, [_], rfl⟩
  · exact h

theorem storeMask_registers (m : BitVec 9) (h : RegisterKeeps b s) : RegisterKeeps b (storeMask m s) :=
  msiIfRisen_registers _ (modOrder_registers _ h)

theorem raise_registers (k : Cause) (h : RegisterKeeps b s) : RegisterKeeps b (raise k s) :=
  msiIfRisen_registers _ (modOrder_registers _ h)

theorem enterState_registers (p : PartState) (k : FaultCode) (h : RegisterKeeps b s) : RegisterKeeps b (enterState p k s) :=
  deskWrite_registers _ _ (modOrder_registers _ h)

theorem chainFault_registers (k : FaultCode) (h : RegisterKeeps b s) : RegisterKeeps b (chainFault k s) :=
  raise_registers _ (enterState_registers _ _ h)

theorem endStop_registers (h : RegisterKeeps b s) : RegisterKeeps b (endStop s) := by
  unfold endStop; split
  · exact enterState_registers _ _ (modOrder_registers _ h)
  · exact h

theorem setRun_registers (h : RegisterKeeps b s) : RegisterKeeps b (setRun s) := by
  unfold setRun; split
  · exact modOrder_registers _ h
  · exact enterState_registers _ _ (modOrder_registers _ (modOrder_registers _ h))
  · exact modOrder_registers _ h
  · exact enterState_registers _ _ (modOrder_registers _ h)

theorem clearRun_registers (h : RegisterKeeps b s) : RegisterKeeps b (clearRun s) := by
  have h1 := modOrder_registers (fun o => { o with run := false }) h
  unfold clearRun
  dsimp only
  split
  · exact h1
  · exact h1
  · split
    · exact modOrder_registers _ h1
    · exact enterState_registers _ _ h1
  · exact enterState_registers _ _ h1

theorem writeControl_registers (r : Bool) (m : BitVec 9) (h : RegisterKeeps b s) : RegisterKeeps b (writeControl r m s) := by
  unfold writeControl; split
  · exact setRun_registers (storeMask_registers m h)
  · exact clearRun_registers (storeMask_registers m h)

theorem writeControlWord_registers (w : U32) (hw : controlReset w = false) (h : RegisterKeeps b s) :
    RegisterKeeps b (writeControlWord w s) := by
  unfold writeControlWord
  rw [if_neg (by simp [hw])]
  exact writeControl_registers _ _ h

theorem foldl_registers {α : Type} (f : State → α → State)
    (hf : ∀ (s : State) (a : α), RegisterKeeps b s → RegisterKeeps b (f s a)) (xs : List α) (h : RegisterKeeps b s) :
    RegisterKeeps b (xs.foldl f s) := by
  induction xs generalizing s with
  | nil => exact h
  | cons x xs ih => exact ih (hf s x h)

theorem writeDesk_registers (h : RegisterKeeps b s) : RegisterKeeps b (writeDesk s) := by
  unfold writeDesk writeCounters
  generalize allLinks = ls
  generalize allLines = ns
  exact deskWrite_registers _ _ (foldl_registers (fun s n => writeLineMirror n s) (fun _ _ h => deskWrite_registers _ _ h) ns
    (foldl_registers (fun s l => writeLinkMirror l s) (fun _ _ h => deskWrite_registers _ _ h) ls (deskWrite_registers _ _ h)))

theorem writeDeskBase_registers (lo : U32) (h : RegisterKeeps b s) : RegisterKeeps b (writeDeskBase lo s) := by
  have hs : RegisterKeeps b (setDeskBase (deskAlign (joinHalves s.order.deskHi lo)) s) := by
    unfold setDeskBase
    dsimp only
    split
    · exact modOrder_registers _ h
    · exact writeDesk_registers (modOrder_registers _ h)
  unfold writeDeskBase; split
  · exact hs
  · exact hs
  · exact h
  · exact h

theorem writeChainLimit_registers (lo : U32) (h : RegisterKeeps b s) : RegisterKeeps b (writeChainLimit lo s) := by
  have h1 := modOrder_registers (fun o => { o with chainLimit := joinHalves o.limitHi lo }) h
  unfold writeChainLimit
  dsimp only
  split
  · exact enterState_registers _ _ h1
  · exact h1
  · exact h1
  · exact h1

theorem writeRegister_registers (o : BitVec 12) (w : AccessWidth) (v : U32)
    (hr : ¬ (w = .word ∧ o = 0x004 ∧ controlReset v = true)) (h : RegisterKeeps b s) :
    RegisterKeeps b (writeRegister o w v s) := by
  unfold writeRegister
  split
  · exact h
  · next hw =>
    split
    · next ho =>
      refine writeControlWord_registers v ?_ h
      by_contra hc
      refine hr ⟨by_contra fun e => hw (.inl e), ho, by simpa using hc⟩
    · split
      · exact writeDeskBase_registers v h
      · split
        · exact modOrder_registers _ h
        · split
          · exact writeChainLimit_registers v h
          · split
            · exact modOrder_registers _ h
            · exact h

theorem setReadData_registers (v : U32) (h : RegisterKeeps b s) : RegisterKeeps b (s.setReadData v) :=
  h.trans ⟨rfl, rfl, rfl, rfl, rfl, rfl, rfl, rfl, rfl, rfl, rfl, rfl, rfl, [], rfl⟩

theorem readRegister_registers (o : BitVec 12) (w : AccessWidth) (h : RegisterKeeps b s) :
    RegisterKeeps b (readRegister o w s) := by
  unfold readRegister
  split
  · exact setReadData_registers _ h
  · exact modOrder_registers _ (setReadData_registers _ h)

/-- A register access changes the order unit, the value read and the writes alone (R162, R173). -/
theorem exec_register (c : Instr) (hg : group c = .register) (h : exec c s = .next t) : RegisterKeeps s t := by
  cases c
  case controlReset w =>
    refine next_inj h ▸ writeControlWord_registers w ?_ (.refl s)
    by_contra hc
    simp [group, hc] at hg
  case registerWrite o w v =>
    refine next_inj h ▸ writeRegister_registers o w v ?_ (.refl s)
    intro hc
    rw [group, if_pos hc] at hg
    cases hg
  case runSet m => exact next_inj h ▸ setRun_registers (storeMask_registers m (.refl s))
  case runClear m => exact next_inj h ▸ clearRun_registers (storeMask_registers m (.refl s))
  case attentionMaskWrite r m => exact next_inj h ▸ writeControl_registers r m (.refl s)
  case attentionRead => exact next_inj h ▸ readRegister_registers _ _ (.refl s)
  case deskBaseWrite lo => exact next_inj h ▸ writeDeskBase_registers lo (.refl s)
  case chainLimitWrite lo => exact next_inj h ▸ writeChainLimit_registers lo (.refl s)
  case chainCursorRead k =>
    refine next_inj h ▸ ?_
    unfold readCursor
    cases k
    · exact readRegister_registers _ _ (.refl s)
    · exact readRegister_registers _ _ (.refl s)
  case outboundKindReceived l k f => simp only [group] at hg; split at hg <;> cases hg
  all_goals cases hg

/-! ### Resets -/

theorem exec_reset (c : Instr) (hg : group c = .reset) : exec c s = .next (resetPart s) := by
  cases c
  case powerOnReset => rfl
  case pcieFundamentalReset => rfl
  case controlReset w =>
    have hw : controlReset w = true := by
      by_contra hc
      simp [group, hc] at hg
    show Host.Outcome.next (writeControlWord w s) = _
    rw [writeControlWord, if_pos hw]
  case registerWrite o w v =>
    have hw : w = .word ∧ o = 0x004 ∧ controlReset v = true := by
      by_contra hc
      rw [group, if_neg hc] at hg
      cases hg
    obtain ⟨rfl, rfl, hv⟩ := hw
    show Host.Outcome.next (writeRegister 0x004 .word v s) = _
    rw [writeRegister, if_neg (by decide), if_pos rfl, writeControlWord, if_pos hv]
  case outboundKindReceived l k f => simp only [group] at hg; split at hg <;> cases hg
  all_goals cases hg

/-! ### The walk -/

theorem exec_orderCommand (a : U64) (o : Order) (s : State) : exec (orderCommand a o) s = .next (takeOrder a o s) := by
  cases o <;> rfl

/-- What the return of a read can do (R164, R166, R167). -/
theorem exec_readReturn (x : ReadReturn) (h : exec (.walkReadReturn x) s = .next t) :
    t = s ∨ t = endStop (endRead s) ∨
    (s.order.walk ≠ .idle ∧ s.order.stopping = false ∧
      ((∃ k, k ≠ .none ∧ t = chainFault k (endRead s)) ∨ (∃ a, t = s.modOrder fun o => { o with walk := .record a }) ∨
        ∃ a o, exec (orderCommand a o) (endRead s) = .next t)) := by
  change execWalkReadReturn x s = .next t at h
  unfold execWalkReadReturn at h
  split at h
  · exact .inl (next_inj h).symm
  · next hi =>
    split at h
    · exact .inr (.inl (next_inj h).symm)
    · next hs =>
      refine .inr (.inr ⟨hi, by simpa using hs, ?_⟩)
      unfold readReturned at h
      split at h
      · exact .inl ⟨_, by decide, (next_inj h).symm⟩
      · next bs =>
        split at h
        · cases h
        · have e := (next_inj h).symm
          subst e
          unfold readData
          split
          · next hw => exact absurd hw hi
          · unfold nextFieldRead
            split
            · exact .inl ⟨_, by decide, rfl⟩
            · split
              · exact .inl ⟨_, by decide, rfl⟩
              · exact .inr (.inl ⟨_, rfl⟩)
          · unfold recordRead
            split
            · exact .inl ⟨_, by decide, rfl⟩
            · exact .inr (.inr ⟨_, _, exec_orderCommand _ _ _⟩)

/-- What the resumption of a held take can do (R164, R168). -/
theorem exec_resume (h : exec .heldTakeResume s = .next t) :
    t = s ∨ ∃ u, t = endStop u ∧ ∃ a o, exec (orderCommand a o) (s.modOrder fun q => { q with held := none }) = .next u := by
  change Host.Outcome.next (resumeHeld s) = .next t at h
  have e := (next_inj h).symm
  subst e
  unfold resumeHeld
  split
  · next w hw =>
    split
    · refine .inr ⟨_, rfl, ?_⟩
      unfold retake
      split
      · exact ⟨w.addr, .rollCall _, rfl⟩
      · exact ⟨w.addr, .queryLine _, rfl⟩
    · exact .inl rfl
  · exact .inl rfl

/-! ### Every command -/

theorem endRead_registers (s : State) : RegisterKeeps s (endRead s) := modOrder_registers _ (.refl _)

/-- What holds of the four kinds of change holds of every command: a mild change, a change of the order unit alone, a reset, an
accepted CONSIGN; where it also holds with a change of the order unit before or after. -/
theorem exec_induct {P : State → State → Prop}
    (mild : ∀ (r : Reach) (s t : State), Mild r s t → P s t)
    (registers : ∀ s t : State, RegisterKeeps s t → P s t)
    (reset : ∀ s : State, P s (resetPart s))
    (consign : ∀ (r : Reach) (s u t : State) (n : Nat) (p : Page), Mild r s u → u.pages = s.pages → u.page? n = none →
      n < Config.pageEntries → Mild r (u.putPage n p) t → P s t)
    (before : ∀ s t u : State, RegisterKeeps s t → P t u → P s u)
    (after : ∀ s t u : State, P s t → RegisterKeeps t u → P s u)
    (c : Instr) (s t : State) (h : exec c s = .next t) : P s t := by
  have nowalk : ∀ (c : Instr) (s t : State), group c ≠ .walk → exec c s = .next t → P s t := by
    intro c s t hw h
    by_cases hmild : (group c).mild = true
    · exact mild _ _ _ (exec_mild c hmild h)
    · cases hg : group c <;> rw [hg] at hmild hw <;> try (exact absurd rfl hmild)
      · rw [exec_reset c hg] at h; cases h; exact reset s
      · exact registers _ _ (exec_register c hg h)
      · exact absurd rfl hw
      · cases c
        case consign a w =>
          rcases consign_mild (r := ⟨false, false, false, false⟩) a w h with h | ⟨u, n, p, h1, h2, h3, h4, h5⟩
          · exact mild _ _ _ h
          · exact consign _ _ _ _ _ _ h1 h4 h2 h3 h5
        case controlReset w => simp only [group] at hg; split at hg <;> cases hg
        case registerWrite o w v => simp only [group] at hg; split at hg <;> cases hg
        case outboundKindReceived l k f => simp only [group] at hg; split at hg <;> cases hg
        all_goals cases hg
  have order : ∀ (a : U64) (o : Order) (s t : State), exec (orderCommand a o) s = .next t → P s t := by
    intro a o s t h
    exact nowalk _ _ _ (by cases o <;> simp [orderCommand, group]) h
  by_cases hw : group c = .walk
  · cases c
    case walkStep =>
      have e : walkStep s = t := next_inj h
      subst e
      unfold walkStep
      split
      · exact registers _ _ (modOrder_registers _ (.refl _))
      · exact registers _ _ (.refl _)
    case heldTakeResume =>
      rcases exec_resume h with rfl | ⟨u, rfl, a, o, ho⟩
      · exact registers _ _ (.refl _)
      · exact before _ _ _ (modOrder_registers _ (.refl _)) (after _ _ _ (order _ _ _ _ ho) (endStop_registers (.refl _)))
    case walkReadReturn x =>
      rcases exec_readReturn x h with rfl | rfl | ⟨_, _, ⟨k, _, rfl⟩ | ⟨a, rfl⟩ | ⟨a, o, ho⟩⟩
      · exact registers _ _ (.refl _)
      · exact registers _ _ (endStop_registers (endRead_registers s))
      · exact registers _ _ (chainFault_registers k (endRead_registers s))
      · exact registers _ _ (modOrder_registers _ (.refl _))
      · exact before _ _ _ (endRead_registers s) (order _ _ _ _ ho)
    case controlReset w => simp only [group] at hw; split at hw <;> cases hw
    case registerWrite o w v => simp only [group] at hw; split at hw <;> cases hw
    case outboundKindReceived l k f => simp only [group] at hw; split at hw <;> cases hw
    all_goals cases hw
  · exact nowalk c s t hw h

end Sys2Proof.Machine
end

