-- ==== Sys2Proof/WellFormed.lean ====
section
/-! DEFINITION. Well-formed commands: each constructor spells its own row of the table and no other, and a record's lists have the
lengths that its counts give. The machine gives a meaning to every command, well formed or not. -/

namespace Sys2Proof

/-- A record lies on a 16-byte boundary (R166, R177). -/
def addrWf (a : U64) : Bool := decide (a.toNat % 16 = 0)

/-- A list of a record has as many elements as are read: its count, or the largest count where that is above it (R166). -/
def countWf (count : Byte) (largest len : Nat) : Bool := decide (len = min count.toNat largest)

/-- The lists of a SET PRESS LINE record (R178). -/
def setLineWf (b : SetLineBody) : Bool := countWf b.hopCount 7 b.hops.length

/-- The lists of a CONSIGN record (R178). -/
def consignWf (b : ConsignBody) : Bool :=
  countWf b.extentCount 16 b.extents.length && countWf b.destCount 64 b.dests.length

/-- The lists of a target entry (R178). -/
def targetWf (t : TargetEntry) : Bool := countWf t.extentCount 4 t.extents.length

/-- The lists of an ISSUE TARGET record (R178). -/
def issueWf (b : IssueTargetBody) : Bool :=
  countWf b.entryCount 64 b.entries.length && b.entries.all targetWf

/-- A kind code that is not one of the eight kinds of order that are taken (R168, R177). -/
def badKindWf (kind : Byte) : Bool := decide (kind.toNat = 0) || decide (8 < kind.toNat)

/-- A frame kind that is not inbound (R147, R179): not one of 3, 4, 6, 8, 10, 12, 14 and 15. -/
def outboundWf (kind : Byte) : Bool :=
  !([3, 4, 6, 8, 10, 12, 14, 15].contains kind.toNat)

/-- A write that REGISTER_WRITE names: not one of the three that rows of their own name, CONTROL, DESK_BASE_LO and
CHAIN_LIMIT_LO (R162, R174). -/
def registerWf (offset : BitVec 12) (width : AccessWidth) : Bool :=
  width != .word || !([0x004, 0x010, 0x018].contains offset.toNat)

/-- A path field has at most 8 bytes and a payload at most what its 16-bit length field can say (R144, R147). -/
def frameWf (f : InFrame) : Bool := decide (f.path.length ≤ 8) && decide (f.payload.length < 65536)

/-- Whether a command is well formed. -/
def Instr.wf : Instr → Bool
  | .powerOnReset => true
  | .pcieFundamentalReset => true
  | .controlReset word => word.getLsbD 1
  | .runSet _ => true
  | .runClear _ => true
  | .attentionMaskWrite _ _ => true
  | .attentionRead => true
  | .deskBaseWrite _ => true
  | .chainLimitWrite _ => true
  | .chainCursorRead _ => true
  | .registerWrite offset width _ => registerWf offset width
  | .walkStep => true
  | .heldTakeResume => true
  | .setLink addr _ => addrWf addr
  | .setPressLine addr b => addrWf addr && setLineWf b
  | .setClock addr _ => addrWf addr
  | .consign addr b => addrWf addr && consignWf b
  | .withdraw addr _ => addrWf addr
  | .issueTarget addr b => addrWf addr && issueWf b
  | .rollCall addr _ => addrWf addr
  | .queryLine addr _ => addrWf addr
  | .badKind addr kind => addrWf addr && badKindWf kind
  | .verifyPassEnd payload => !payload.isEmpty
  | .verifyReadError => true
  | .sendReadError _ => true
  | .targetReadError _ => true
  | .clockAdvance => true
  | .syncPulse => true
  | .holdEnd => true
  | .lossTimerExpiry => true
  | .warnFiring => true
  | .missFiring => true
  | .releaseFiring => true
  | .receiptTimeout _ => true
  | .releaseTimeout _ => true
  | .withdrawTimeout _ => true
  | .confirmTimeout _ => true
  | .windowTimeout _ => true
  | .silenceTimeout _ => true
  | .lossOfSignal _ => true
  | .retryTimeout _ => true
  | .queryTimeout _ => true
  | .rollWindowClose _ => true
  | .requeryTimeout _ => true
  | .credit _ f => frameWf f
  | .ckptAck _ f => frameWf f
  | .receipt _ f => frameWf f && !f.flags.getLsbD 2
  | .outboundKindReceived _ kind f => frameWf f && outboundWf kind
  | .targetConfirm _ f => frameWf f && f.flags.getLsbD 2
  | .releaseAck _ f => frameWf f
  | .withdrawAck _ f => frameWf f
  | .status _ f => frameWf f
  | .rollAnswer _ f => frameWf f
  | .echo _ f => frameWf f
  | .frameLeft _ => true
  | .walkReadReturn _ => true

end Sys2Proof
end

