-- ==== Sys2Proof/Tests/Slice0.lean ====
section
/-! SUPPORT. The tests: an ill-formed term for each check of WellFormed, the spec's worked values, and for each statement of the
obligations with hypotheses a concrete state and operands that meet them, clause by clause. -/

namespace Sys2Proof.Tests

open Sys2Proof Sys2Proof.Machine

-- One theorem at a time: each kernel evaluation below otherwise holds a thread of its own.
set_option Elab.async false

/-! ### Small states -/

/-- The state after a command. -/
def after (c : Instr) (s : State) : State :=
  match exec c s with
  | .next t => t
  | .fault _ => s
  | .refused _ => s

/-- The refusal that a command ends in, if any. -/
def refusalOf (c : Instr) (s : State) : Option Refusal :=
  match exec c s with
  | .next _ => none
  | .fault _ => none
  | .refused r => some r

/-- The command completes on the state, with that next state. -/
def gives (c : Instr) (s t : State) : Bool :=
  match exec c s with
  | .next u => u == t
  | .fault _ => false
  | .refused _ => false

/-- A command of the smallest body for each order. -/
def linkBody : SetLinkBody := ⟨0, true, 100, 700000, 3000⟩
def lineBody : SetLineBody := ⟨5, true, 7, 3, 0, 1, [9], 4, 1, some 1, 4000000, 0⟩
def clockBody : SetClockBody := ⟨4294967295, 1⟩
def key : PageKey := ⟨1, 2, 3, 40⟩
def consignBody : ConsignBody := ⟨key, 2, 0, 5000, none, 1, none, 20, 1, 1, [⟨0x9000, 20⟩], [⟨0, none⟩]⟩
def targetBody : IssueTargetBody := ⟨4, 1, [⟨0, true, none, 16, 1, [⟨0x8000, 16⟩]⟩]⟩

/-- A link that is UP. -/
def upLink : Link := { Link.reset with state := .up, rate := 1000, credit := 8, silence := some 3000 }

/-- A line enabled on link 0 at an address, in a state. -/
def lineAt (secondary : Byte) (st : LineState) : Line :=
  { Line.reset with
    enabled := true
    cfg := ⟨7, secondary, 0, [], Fin.ofNat 64 secondary.toNat, true, 1000, none, 500⟩
    state := st }

/-- The desk set and the walk running, link 0 UP, lines 0 and 1 on it, the clock LOCKED at 1,050 ms past the first second. -/
def plant : State :=
  { State.reset with
    order := { OrderUnit.reset with
      part := .running, run := true, deskBase := 0x10000, cursor := 0x10000, chainLimit := 0x3000, walkStarted := true }
    clock := { Clock.reset with value := 2050, source := .station, sync := .locked, loss := some 900, clockUnset := false }
    lines := ((Vector.replicate 64 Line.reset).set 0 (lineAt 2 .ready)).set 1 (lineAt 1 .held)
    links := (Vector.replicate 4 Link.reset).set 0 upLink }

/-- A page of 20 bytes with one destination record. -/
def page : Page := ⟨key, 1, 0, 5000, none, .drop, none, none, 20, [⟨0x9000, 20⟩], [0], 0x2000, .active, none⟩

/-- A destination record of line 0 in a state. -/
def recIn (st : DestState) : DestRec :=
  { consignRec 0 5000 ⟨0, none⟩ 0x2040 with state := st, siteHasData := st == .receiptWait || st == .releasing ||
      st == .withdrawing || st == .delivered }

/-- `plant` with that page as entry 0 and the record as number 0. -/
def busyPlant (p : Page) (r : DestRec) : State :=
  { plant with pages := [(0, p)], recs := [(0, r)], free := [1, 2] }

def onLine (n : LineId) (f : Line → Line) (s : State) : State := s.modLine n f
def onLink (f : Link → Link) (s : State) : State := s.modLink 0 f
def onOrder (f : OrderUnit → OrderUnit) (s : State) : State := s.modOrder f

/-- A sound frame from line 0. -/
def frameOf (kind flags : Byte) (tag : U16) (value : U32) (payload : List Byte) : InFrame :=
  let f : InFrame := ⟨[0, 0, 0, 0], 0, 0x3A, flags, tag, value, BitVec.ofNat 16 payload.length, payload, 0⟩
  { f with crc := crc16 (inHeader kind f ++ payload) }

/-! ### WellFormed -/

theorem test_wf_address : (Instr.setLink 8 linkBody).wf = false := by decide
theorem test_wf_hops : (Instr.setPressLine 0 { lineBody with hops := [] }).wf = false := by decide
theorem test_wf_consign : (Instr.consign 0 { consignBody with destCount := 2 }).wf = false := by decide
theorem test_wf_targets : (Instr.issueTarget 0 { targetBody with entryCount := 0 }).wf = false := by decide
theorem test_wf_target_extents :
    (Instr.issueTarget 0 { targetBody with entries := [⟨0, true, none, 16, 2, [⟨0x8000, 16⟩]⟩] }).wf = false := by decide
theorem test_wf_bad_kind : (Instr.badKind 0 4).wf = false := by decide
theorem test_wf_outbound : (Instr.outboundKindReceived 0 15 (frameOf 15 0 0 0 [])).wf = false := by decide
theorem test_wf_register : (Instr.registerWrite 0x018 .word 0).wf = false := by decide
theorem test_wf_reset : (Instr.controlReset 1).wf = false := by decide
theorem test_wf_payload : (Instr.verifyPassEnd []).wf = false := by decide
theorem test_wf_receipt : (Instr.receipt 0 (frameOf 4 4 0 0 [])).wf = false := by decide
theorem test_wf_confirm : (Instr.targetConfirm 0 (frameOf 4 0 0 0 [])).wf = false := by decide
theorem test_wf_path : (Instr.credit 0 { frameOf 15 0 0 0 [] with path := List.replicate 9 0 }).wf = false := by decide
theorem test_wf_accepts : (Instr.consign 16 consignBody).wf = true ∧ (Instr.issueTarget 32 targetBody).wf = true ∧
    (Instr.setPressLine 16 lineBody).wf = true := by decide

/-! ### Values that the spec works out -/

/-- "123456789" in ASCII. -/
def digits : List Byte := [0x31, 0x32, 0x33, 0x34, 0x35, 0x36, 0x37, 0x38, 0x39]

/-- R8. -/
theorem test_crc32 : crc32 digits = 0xCBF43926 := by decide +kernel

/-- R145. -/
theorem test_crc16 : crc16 digits = 0x29B1 := by decide +kernel

/-- R179: site 7, line 2 is 0x3A. -/
theorem test_address : addressByte 7 2 = 0x3A := by decide

/-- No row of the table has bits (log entry 32). -/
theorem test_no_bits : decodeTableWord 32 0xFFFFFFFF = none ∧ plant.withFetchWord 32 1 = plant := by decide +kernel

/-- R180: the STATUS header of site 7, line 2 reporting READY and SERVICE. -/
theorem test_status_header : inHeader 10 (frameOf 10 0 0 9 []) = [0x00, 0x3A, 0x0A, 0, 0, 0, 0, 0, 0, 9, 0, 0] := by decide

/-- R70, R71: the stages of the worked example. -/
theorem test_latest_start :
    latestStart 7200000 (transferTime 18874368 65536 2 34000) 2000 = 7192331 ∧
    latestStart 7200000 (transferTime 18874368 0 2 34000) 2000 = 7192351 ∧
    latestStart 7200000 (transferTime 12582912 0 2 34000) 2000 = 7194234 ∧
    latestStart 3000 (transferTime 18874368 0 2 34000) 2000 = 0 ∧ slack 0 4000000000 = -2147483648 ∧
    slack 4294967295 1000000 = 2147483647 := by decide +kernel

/-- R114, R115: the settings worked for single pulses. -/
theorem test_pulses :
    pulseAction .locked 40 = .hold 40 ∧ pulseAction .locked 950 = .jump 50 ∧ pulseAction .locked 350 = .reject ∧
    pulseAction .locked 100 = .hold 100 ∧ pulseAction .locked 899 = .reject ∧ pulseAction .locked 900 = .jump 100 ∧
    pulseAction .acquiring 350 = .hold 350 ∧ pulseAction .acquiring 499 = .hold 499 ∧
    pulseAction .holdover 500 = .jump 500 ∧ pulseAction .acquiring 0 = .inStep := by decide

/-- The seven lines and the window of R155's worked example, on link 0. -/
def rollPlant : State :=
  let lines : List (LineId × Nat × Bool) := [(8, 3, true), (9, 4, false), (10, 5, true), (11, 6, true), (12, 6, true), (13, 7, true), (14, 7, false)]
  onLink (fun k => { k with roll := some ⟨0, 0xC8, 2, [0x2000]⟩ }) (lines.foldl (fun s x => s.modLine x.1 fun _ =>
    { Line.reset with enabled := true, state := .unknown, cfg := { LineConfig.reset with rollBit := Fin.ofNat 64 x.2.1, sense := x.2.2 } })
    { plant with lines := Vector.replicate 64 Line.reset })

theorem test_roll_close :
    let t := after (.rollWindowClose 0) rollPlant
    (t.line 8).state = .ready ∧ (t.line 8).changeCount = 1 ∧ (t.line 8).query = none ∧ (t.line 9).query.isSome = true ∧
    (t.line 10).query = none ∧ ∀ n ∈ [9, 11, 12, 13, 14], (t.line n).state = .unknown ∧ (t.line n).query = some ⟨500, []⟩ := by
  decide +kernel

/-- R139, R153: bringing up a link. -/
theorem test_link_up :
    let t := after (.credit 0 (frameOf 15 0 0 0 [])) (onLink (fun _ => { Link.reset with state := .connecting }) plant)
    (t.link 0).state = .up ∧ (t.link 0).credit = 8 ∧ (t.link 0).silence = some 3000 ∧ (t.line 0).state = .unknown ∧
    (t.link 0).wire.isSome = true := by decide +kernel

/-! ### Witnesses: the hypotheses of the statements are met, and the command does what is stated there -/

def queued : State := { plant with pending := [.clockAdvance, .holdEnd] }

theorem test_FrontCommandRuns : queued.pending = .clockAdvance :: [.holdEnd] ∧
    (match step queued with
      | .next t => t.clock.value == 2051 && t.pending == [.holdEnd]
      | .fault _ => false
      | .refused _ => false) = true := by decide +kernel

theorem test_EmptyQueueIdles : plant.pending = [] ∧ step plant = .next plant := ⟨rfl, rfl⟩

theorem test_ResetsClearThePart : (0x01FF0003 : U32).getLsbD 1 = true ∧
    (after (.controlReset 0x01FF0003) plant).order = OrderUnit.reset := by decide +kernel

/-- A clock, an order unit, links, lines and tables that are sound and are not those of reset: `plant`'s. -/
theorem test_plant_clock : plant.clock.Sound :=
  ⟨by decide, by decide, by decide, by decide, by decide, by decide, by decide⟩

theorem test_plant_order : plant.order.Sound :=
  ⟨by decide, by decide, by decide, by decide, by decide, by decide, by decide⟩

theorem test_plant_links : ∀ l, (plant.link l).Sound := by
  intro l
  fin_cases l
  all_goals exact ⟨by decide, by decide, by decide, by decide, by decide, by decide, by decide, by decide,
    fun h => ⟨by revert h; decide, by revert h; decide, by revert h; decide, by revert h; decide⟩⟩

theorem test_plant_lines : plant.LinesSound := by
  refine ⟨fun n h => ?_, fun n m hn hm d => ?_⟩
  · have e : n = 0 ∨ n = 1 := by revert n; decide +kernel
    rcases e with rfl | rfl
    all_goals exact ⟨by decide, by decide, by decide, by decide, by decide, by decide⟩
  · unfold LineConfig.sameAddress
    revert n m
    decide +kernel

theorem test_plant_tables : (busyPlant page (recIn .delivered)).TablesSound :=
  ⟨by decide, by decide, by decide, List.Pairwise.nil, fun _ h => nomatch h⟩

/-- Record 0 SENDING and record 1 QUEUED, both of line 0. -/
def queuePlant : State :=
  onLink (fun k => { k with sending := some (.dest 0), queue := [.dest 1] })
    { plant with
      pages := [(0, { page with dests := [0, 1] })]
      recs := [(0, { recIn .sending with seq := 0 }), (1, { recIn .queued with seq := 1 })]
      free := [2]
      seqNext := 2 }

theorem test_queue_tables : queuePlant.TablesSound :=
  ⟨by decide, by decide, by decide, List.Pairwise.nil, fun _ h => nomatch h⟩

theorem test_plant_queues : queuePlant.QueuesSound := by
  have hq : ∀ l, (queuePlant.link l).queue = if l = 0 then [.dest 1] else [] := by decide +kernel
  have hs : ∀ l, (queuePlant.link l).sending = if l = 0 then some (.dest 0) else none := by decide +kernel
  have st : ∀ l x, StandsOn queuePlant l x → x = .dest 0 ∨ x = .dest 1 := by
    intro l x h
    rw [StandsOn, hq, hs] at h
    rcases h with h | h <;> split at h <;> simp at h <;> simp [h]
  refine ⟨fun l x h => ?_, fun l x h => ?_, fun l => ?_, fun l m x y hx hy d => ?_, fun l x h => ?_, ?_, ?_, ?_, ?_⟩
  · rw [hq] at h; split at h <;> simp at h
    subst x l
    exact ⟨{ recIn .queued with seq := 1 }, by decide +kernel, rfl, by decide +kernel⟩
  · rw [hs] at h; split at h <;> simp at h
    subst x l
    exact ⟨{ recIn .sending with seq := 0 }, by decide +kernel, rfl, by decide +kernel⟩
  · rw [hq]; split <;> simp
  · rcases st l x hx with rfl | rfl <;> rcases st m y hy with rfl | rfl
    · exact absurd rfl d
    · decide +kernel
    · decide +kernel
    · exact absurd rfl d
  · rcases st l x h with rfl | rfl <;> decide +kernel
  · exact ⟨by decide, by decide +kernel⟩
  · intro e he
    rw [List.mem_singleton.1 he]
    refine ⟨by decide, fun n hn => ?_⟩
    rcases List.mem_cons.1 hn with rfl | hn
    · exact ⟨_, rfl, rfl⟩
    · rw [List.mem_singleton.1 hn]; exact ⟨_, rfl, rfl⟩
  · decide +kernel
  · decide +kernel

/-- Steps of `plant` on which the rules of every step say something: the second before a mark, a record in flight, a cause raised
under a mask, a press-clock event, an event that is none, a register access. -/
theorem test_steps :
    let ahead := { plant with pending := [.clockAdvance], clock := { plant.clock with value := 2999, hold := none } }
    (after .clockAdvance ahead).clock.value = 3000 ∧
    (busyPlant page (recIn .delivered)).page? 0 = some page ∧
    (after (.frameLeft 0) (busyPlant page (recIn .delivered))).page? 0 = some page ∧
    (let masked := onOrder (fun o => { o with mask := 0x080 }) (onLink (fun k => k) { plant with clock := { plant.clock with loss := some 0 } });
      masked.order.attention &&& masked.order.mask = 0 ∧ (after .lossTimerExpiry masked).bus.count .msi = 1) ∧
    group .clockAdvance = .clock ∧ group (.frameLeft 0) = .event ∧ group (.runSet 1) = .register := by
  decide +kernel

/-! #### Registers and the walk -/

theorem test_RunWritten :
    ((0x00050001 : U32).getLsbD 1 = false ∧ (0x00050001 : U32).getLsbD 0 = true) ∧
    (0x00050000 : U32).getLsbD 1 = false ∧ (0x00050000 : U32).getLsbD 0 = false ∧
    (let ready := onOrder (fun o => { o with part := .ready, run := false, walkStarted := false, cursor := 7 }) plant;
      (after (.runSet 5) ready).order.part = .running ∧ (after (.runSet 5) ready).order.cursor = 0x10000) ∧
    (after (.runClear 5) (onOrder (fun o => { o with walk := .nextField }) plant)).order.stopping = true ∧
    (after (.controlReset 0x00050000) plant).order.part = .ready := by decide +kernel

theorem test_RegistersRead :
    group (.frameLeft 0) ≠ .reset ∧ group (.frameLeft 0) ≠ .register ∧ plant.order.capture = none ∧
    (let t := after (.chainCursorRead .lo) (onOrder (fun o => { o with cursor := 0x1234567800000010 }) plant);
      let u := onOrder (fun o => { o with cursor := 0x20 }) t
      t.readData = 0x10 ∧ (after (.chainCursorRead .hi) u).readData = 0x12345678) ∧
    (after .attentionRead (onOrder (fun o => { o with attention := 0x105 }) plant)).readData = 0x105 := by decide +kernel

/-- R174: the fields of the window as a read returns them, and the 0 of R162. -/
theorem test_window :
    let s := onOrder (fun o => { o with mask := 0x101, deskBase := 0x100020000, chainLimit := 0x200000040 }) plant
    let read (o : BitVec 12) (w : AccessWidth) : U32 := (readRegister o w s).readData
    AccessWidth.byte ≠ .word ∧ read 0x000 .word = 0x06400101 ∧ read 0x004 .word = 0x01010001 ∧ read 0x008 .word = 2 ∧
    read 0x014 .word = 1 ∧ read 0x010 .word = 0x00020000 ∧ read 0x01C .word = 2 ∧ read 0x028 .word = 0 ∧
    read 0x000 .byte = 0 ∧ read 0x002 .word = 0 := by decide +kernel

theorem test_DeskBaseWritten :
    plant.order.part = .running ∧ State.reset.order.part = .unset ∧
    (let t := after (.deskBaseWrite 0x00020FFF) { State.reset with order := { OrderUnit.reset with deskHi := 1 } };
      t.order.deskBase = 0x100020000 ∧ t.order.part = .ready ∧ t.bus.length = 70) ∧
    (after (.deskBaseWrite 0xFFF) State.reset).order.part = .unset := by decide +kernel

theorem test_OtherRegistersWritten :
    (let f := onOrder (fun o => { o with part := .chainFault, faultCode := .nullNext, limitHi := 2 }) plant;
      f.order.part = .chainFault ∧ (after (.chainLimitWrite 0x40) f).order.part = .running ∧
      (after (.chainLimitWrite 0x40) f).order.chainLimit = 0x200000040) ∧
    (0x00C#12 ∉ [0x004#12, 0x010#12, 0x014#12, 0x018#12, 0x01C#12]) ∧ AccessWidth.byte ≠ .word := by decide +kernel

theorem test_WalkReadsNext :
    (plant.order.part = .running ∧ plant.order.chainLimit ≠ 0 ∧ plant.order.cursor ≠ plant.order.chainLimit ∧
      plant.order.held = none ∧ plant.order.walk = .idle ∧ plant.order.stopping = false) ∧
    (let s := after .walkStep plant;
      s.order.walk = .nextField ∧ s.order.stopping = false ∧
      (after (.walkReadReturn (.data (List.replicate 8 0))) s).order.faultCode = .nullNext ∧
      (after (.walkReadReturn (.data [8, 0, 0, 0, 0, 0, 0, 0])) s).order.faultCode = .misaligned ∧
      (after (.walkReadReturn (.data [0, 0x20, 0, 0, 0, 0, 0, 0])) s).order.walk = .record 0x2000) := by decide +kernel

/-- A ROLL CALL record of link 0, then the same with its disposition TAKEN. -/
def rollRecord (disposition : Byte) : List Byte := [0, 0, 0, 0, 0, 0, 0, 0, 7, disposition, 0, 0, 0, 0, 0, 0, 0]

theorem test_WalkTakesRecord :
    let s := onOrder (fun o => { o with walk := .record 0x2000 }) plant
    s.order.walk = .record 0x2000 ∧ s.order.stopping = false ∧ fieldNat (rollRecord 1) 9 1 ≠ 0 ∧
    fieldNat (rollRecord 0) 9 1 = 0 ∧ recordLength (rollRecord 0) ≤ (rollRecord 0).length ∧
    (after (.walkReadReturn (.data (rollRecord 1))) s).order.faultCode = .staleRecord ∧
    readOrder (rollRecord 0) = .rollCall 0 ∧ (after (.walkReadReturn (.data (rollRecord 0))) s).order.cursor = 0x2000 := by
  decide +kernel

theorem test_WalkReadEnds :
    let s := onOrder (fun o => { o with walk := .record 0x2000, run := false, stopping := true }) plant
    plant.order.walk = .idle ∧ s.order.walk ≠ .idle ∧ s.order.stopping = true ∧ s.order.held = none ∧
    (after (.walkReadReturn (.data (rollRecord 0))) s).order.part = .ready ∧
    (after (.walkReadReturn .error) (onOrder (fun o => { o with walk := .nextField }) plant)).order.faultCode = .readError ∧
    refusalOf (.walkReadReturn (.data [1])) (onOrder (fun o => { o with walk := .nextField }) plant) = some (.shortRead 1 8) := by
  decide +kernel

theorem test_HeldTakes :
    let full := onLine 0 (fun k => { k with query := some ⟨500, [1, 2, 3, 4]⟩ })
      (onLink (fun k => { k with roll := some ⟨250, 0, 0, List.replicate 8 1⟩ }) plant)
    (full.link 0).state = .up ∧ full.order.held = none ∧ (full.line 0).state ≠ .unconfigured ∧
    (full.line 0).state ≠ .unreachable ∧ (after (.rollCall 0x2000 0) full).order.held = some ⟨0x2000, .rollCall 0, false⟩ ∧
    (after (.queryLine 0x2000 0) full).order.held = some ⟨0x2000, .queryLine 0, false⟩ ∧
    (let free := onOrder (fun o => { o with held := some ⟨0x2000, .rollCall 0, true⟩ }) plant;
      free.order.stopping = false ∧ (free.link 0).roll = none ∧ (after .heldTakeResume free).order.cursor = 0x2000) ∧
    (after .heldTakeResume (onOrder (fun o => { o with held := some ⟨0x2000, .queryLine 0, true⟩ }) plant)).order.cursor = 0x2000 ∧
    (let stop := onOrder (fun o => { o with run := false, stopping := true, held := some ⟨0x2000, .rollCall 0, true⟩ }) plant;
      stop.order.walk = .idle ∧ (stop.link 0).roll = none ∧ (after .heldTakeResume stop).order.part = .ready ∧
      (after .heldTakeResume stop).order.cursor = 0x2000) := by
  decide +kernel

/-! #### Orders -/

/-- Nothing waits to be done in `plant`. -/
theorem test_Settled : plant.Settled := ⟨by decide, by decide, by decide⟩

theorem test_SetLinkTaken : linkBody.link.toNat = (0 : LinkId).val ∧
    ((after (.setLink 0x2000 linkBody) plant).link 0).guardMs = 600000 ∧
    ((after (.setLink 0x2000 { linkBody with enable := false }) plant).line 0).state = .unreachable := by decide +kernel

theorem test_lineBody : LineInRange lineBody ∧ AddressFree plant 5 lineBody :=
  ⟨⟨by decide, by decide, by decide, by decide, by decide, by decide, by decide, by decide⟩,
    by unfold AddressFree; decide +kernel⟩

theorem test_SetLineEnables : lineBody.line.toNat = (5 : LineId).val ∧ lineBody.enable = true ∧
    (plant.line 5).enabled = false ∧ (plant.line 5).state = .unconfigured ∧ (plant.line 5).query = none ∧
    ((after (.setPressLine 0x2000 lineBody) plant).line 5).state = .unknown ∧
    ((after (.setPressLine 0x2000 lineBody) plant).line 5).query = some ⟨500, []⟩ := by decide +kernel

/-- Line 0 is moved to link 1, which is not UP, and on its own place. -/
theorem test_SetLineReconfigures :
    let moved : SetLineBody := ⟨0, true, 7, 2, 1, 0, [], 2, 1, none, 1000, 500⟩
    let same : SetLineBody := { moved with link := 0 }
    LineInRange moved ∧ LineInRange same ∧ AddressFree plant 0 moved ∧ AddressFree plant 0 same ∧
    RouteChanges (plant.line 0).cfg moved ∧ ¬ RouteChanges (plant.line 0).cfg same ∧ ¬ LineBusy plant 0 ∧
    ((after (.setPressLine 0x2000 moved) plant).line 0).state = .unreachable ∧
    ((after (.setPressLine 0x2000 same) plant).line 0).state = .ready := by
  refine ⟨⟨by decide, by decide, by decide, by decide, by decide, by decide, by decide, by decide⟩,
    ⟨by decide, by decide, by decide, by decide, by decide, by decide, by decide, by decide⟩,
    by unfold AddressFree; decide +kernel, by unfold AddressFree; decide +kernel,
    by unfold RouteChanges; decide +kernel, by unfold RouteChanges; decide +kernel, ?_, by decide +kernel, by decide +kernel⟩
  rintro (⟨i, r, h, -⟩ | ⟨sl, h, -⟩)
  · cases h
  · rw [show (plant.line 0).slot = none by decide +kernel] at h
    cases h

/-- A frame on the wire in a role. -/
def onWire (r : WireRole) : Option WireFrame := some ⟨linkFrame kindMark 1 1000, r⟩

/-- Line 0 with record 0 QUEUED on link 0, record 1 WITHDRAWING, record 2 DELIVERED, and a target WITHDRAW that waits behind a frame;
link 1 is UP. -/
def movePlant : State :=
  { plant with
    pages := [(0, { page with dests := [0, 1, 2] })]
    recs := [(0, { recIn .queued with seq := 0 }), (1, { recIn .withdrawing with timer := .paused 700, sendCount := 1 }),
      (2, recIn .delivered)]
    free := [3]
    seqNext := 1
    links := (plant.links.set 0 { upLink with
      queue := [.dest 0]
      control := [.targetWithdraw 0 4]
      wire := some ⟨linkFrame kindMark 1 1000, .control⟩ }).set 1 upLink }

theorem test_move_tables : movePlant.TablesSound :=
  ⟨by decide, by decide, by decide, List.Pairwise.nil, fun _ h => nomatch h⟩

theorem test_move_queues : movePlant.QueuesSound := by
  have hq : ∀ l, (movePlant.link l).queue = if l = 0 then [.dest 0] else [] := by decide +kernel
  have hs : ∀ l, (movePlant.link l).sending = none := by decide +kernel
  have st : ∀ l x, StandsOn movePlant l x → x = .dest 0 := by
    intro l x h
    rw [StandsOn, hq, hs] at h
    rcases h with h | h
    · split at h <;> simp at h; exact h
    · cases h
  refine ⟨fun l x h => ?_, fun l x h => ?_, fun l => ?_, fun l m x y hx hy d => ?_, fun l x h => ?_, ?_, ?_, ?_, ?_⟩
  · rw [hq] at h; split at h <;> simp at h
    subst x l
    exact ⟨{ recIn .queued with seq := 0 }, by decide +kernel, rfl, by decide +kernel⟩
  · rw [hs] at h; cases h
  · rw [hq]; split <;> simp
  · exact absurd ((st l x hx).trans (st m y hy).symm) d
  · rw [st l x h]; decide +kernel
  · exact ⟨by decide, by decide +kernel⟩
  · intro e he
    rw [List.mem_singleton.1 he]
    refine ⟨by decide, fun n hn => ?_⟩
    fin_cases hn <;> exact ⟨_, rfl, rfl⟩
  · decide +kernel
  · decide +kernel

theorem test_move_links : (∀ l, (movePlant.link l).Sound) ∧
    (movePlant.link 0).control.Pairwise fun c d => c.same d = false := by
  refine ⟨fun l => ?_, by decide +kernel⟩
  fin_cases l <;> exact ⟨by decide, by decide, by decide, by decide, by decide, by decide, by decide, by decide, by
    intro h; first | exact absurd rfl h | exact ⟨rfl, rfl, rfl, rfl⟩⟩

theorem test_move_taken :
    let moved : SetLineBody := ⟨0, true, 7, 2, 1, 0, [], 2, 1, none, 1000, 500⟩
    LineInRange moved ∧ AddressFree movePlant 0 moved ∧ ¬ LineBusy movePlant 0 ∧ (1 : LinkId) ≠ (movePlant.line 0).cfg.link := by
  refine ⟨⟨by decide, by decide, by decide, by decide, by decide, by decide, by decide, by decide⟩,
    by unfold AddressFree; decide +kernel, ?_, by decide +kernel⟩
  rintro (⟨i, r, h, -, h'⟩ | ⟨sl, h, -⟩)
  · have no : ∀ e ∈ movePlant.recs, ¬ (e.2.state = .sending ∨ e.2.state = .receiptWait) := by decide +kernel
    exact no _ h h'
  · rw [show (movePlant.line 0).slot = none by decide +kernel] at h
    cases h

/-- R67, R127, R143: behind the frame on the wire of link 1 wait its own, the fresh QUERY and the frames that moved; a target WITHDRAW
owed goes out on it. -/
theorem test_move_frames :
    let moved : SetLineBody := ⟨0, true, 7, 2, 1, 0, [], 2, 1, none, 1000, 500⟩
    let busy := { upLink with control := [.roll], wire := onWire .control }
    let s : State := { movePlant with recs := movePlant.recs.take 2, links := movePlant.links.set 1 busy }
    let owing := onLink (fun k => { k with control := [] }) (onLine 0 (fun k => { k with owed := some 9 }) s)
    ((after (.setPressLine 0x2000 moved) s).link 1).control = [.roll, .query 0, .targetWithdraw 0 4] ∧
    ((after (.setPressLine 0x2000 moved) owing).link 1).control = [.roll, .query 0, .targetWithdraw 0 9] ∧
    ((after (.setPressLine 0x2000 moved) owing).line 0).owed = none := by decide +kernel

/-- R89, R127: line 0 moves to link 1, UP, or to link 2, which is not; or it keeps link 0 and gets a path of five hops. -/
theorem test_move :
    let moved (l : Byte) (hops : List Byte) : SetLineBody := ⟨0, true, 7, 2, l, BitVec.ofNat 8 hops.length, hops, 2, 1, none, 1000, 500⟩
    let up := after (.setPressLine 0x2000 (moved 1 [])) movePlant
    let dark := after (.setPressLine 0x2000 (moved 2 [])) movePlant
    let far := after (.setPressLine 0x2000 (moved 0 [1, 1, 1, 1, 1])) movePlant
    ((up.link 0).queue, (up.link 1).queue, (up.rec? 0).map fun r => (r.state, r.seq)) = ([], [.dest 0], some (.queued, 1)) ∧
    (up.rec? 1).map (fun r => r.timer) = some (.running 700) ∧ (up.rec? 2).map (fun r => r.state) = some .releasing ∧
    ((up.link 0).control, (up.link 1).control.getLast?) = ([], some (.targetWithdraw 0 4)) ∧
    ((dark.link 2).queue, (dark.line 0).owed, (dark.rec? 2).map fun r => r.state) = ([.dest 0], some 4, some .delivered) ∧
    ((far.link 0).queue, (far.rec? 0).map fun r => (r.seq, r.latestStart)) =
      ([.dest 0], some (0, recLatestStart far { recIn .queued with seq := 0 })) := by decide +kernel

/-- R73: a new rate gives the QUEUED record of the link a new latest start. -/
theorem test_new_rate :
    let t := after (.setLink 0x2000 { linkBody with rate := 64, guardMs := 20 }) movePlant
    (t.rec? 0).map (fun r => r.latestStart) = some (5000 - (transferTime 20 0 0 64 + 20)) ∧
    (t.link 0).queue = [.dest 0] := by decide +kernel

/-- R106: a new warn lead gives the WARN of a record of the line a new due time. -/
theorem test_retiming :
    let lead : SetLineBody := ⟨0, true, 7, 2, 0, 0, [], 2, 1, none, 500, 500⟩
    let s := { busyPlant page (recIn .verifyWait) with deadlines := [⟨4000, 0, .warn⟩] }
    lead.warnLead.toNat ≠ (s.line 0).cfg.warnLead ∧ (after (.setPressLine 0x3000 lead) s).deadlines = [⟨4500, 0, .warn⟩] ∧
    (after (.setPressLine 0x3000 { lead with warnLead := 1000 }) s).deadlines = s.deadlines := by decide +kernel

theorem test_SetLineDisables :
    let off : SetLineBody := { lineBody with line := 0, enable := false }
    let s := busyPlant page (recIn .delivered)
    off.line.toNat = (0 : LineId).val ∧ off.enable = false ∧ (s.line 0).enabled = true ∧ (plant.line 2).enabled = false ∧
    s.rec? 0 = some (recIn .delivered) ∧ (recIn .delivered).state.isFinal = false ∧
    (after (.setPressLine 0x2000 off) s).recs = [] ∧ ((after (.setPressLine 0x2000 off) s).line 0).state = .unconfigured := by
  decide +kernel

theorem test_SetClockTaken : clockBody.source = 1 ∧
    (after (.setClock 0x2000 clockBody) plant).clock.value = 4294967294 ∧
    (after (.setClock 0x2000 clockBody) plant).clock.sync = .acquiring ∧
    ((after (.setClock 0x2000 clockBody) plant).link 0).markCount = 1 ∧
    (let s := { busyPlant page (recIn .verifyWait) with deadlines := [⟨4000, 0, .warn⟩] };
      (after (.setClock 0x2000 ⟨4000, 1⟩) s).deadlines = [⟨5000, 0, .miss⟩] ∧
      (after (.setClock 0x2000 ⟨10, 1⟩) s).deadlines = s.deadlines) := by decide +kernel

theorem test_consignBody : ConsignInRange consignBody :=
  ⟨⟨by decide, by decide, by decide⟩, by decide, by decide, by decide, by decide, by decide,
    fun e he => by rw [List.mem_singleton.1 he]; exact ⟨by decide, by decide, by decide⟩, by decide, by decide, by decide⟩

theorem test_ConsignAccepted :
    (∀ d ∈ consignBody.dests, ∀ m : LineId, d.line.toNat = m.val → (plant.line m).enabled = true) ∧
    (∀ e ∈ plant.pages, e.2.key = consignBody.key → e.2.state = .retiring) ∧ plant.page? 0 = none ∧
    consignBody.dests.length ≤ plant.free.length ∧
    (let t := after (.consign 0x2000 consignBody) plant;
      (t.page? 0).map (fun p => p.state) = some .verifying ∧ (t.rec? 0).map (fun r => r.deadline) = some 5000 ∧
      t.deadlines = [⟨4000, 0, .warn⟩] ∧ t.bus = [.write 0x2009 [1, 0, 0], .write 0x2048 [1, 0, 0, 0, 255, 0, 0, 0]]) := by
  decide +kernel

theorem test_PageRetires :
    let s := busyPlant page (recIn .delivered)
    s.page? 0 = some page ∧ keyOwner s page.key = some (0, page) ∧ consignCheck s consignBody = .inr 1 ∧
    consignBody.key = page.key ∧ (0 ∉ s.free) ∧ s.rec? 0 = some (recIn .delivered) ∧
    ((after (.consign 0x3000 consignBody) s).rec? 0).map (fun r => r.state) = some .withdrawing ∧
    ((after (.withdraw 0x3000 ⟨key, 0⟩) s).page? 0).map (fun p => p.state) = some .retiring := by decide +kernel

theorem test_page_inPlace : KeyInRange key ∧ ∀ st, InPlace (busyPlant page (recIn st)) 0 (recIn st) := by
  refine ⟨⟨by decide, by decide, by decide⟩, fun st => ?_⟩
  have h : ∀ l, ((busyPlant page (recIn st)).link l).queue = [] := by
    show ∀ l, (plant.link l).queue = []
    decide +kernel
  intro l hl
  rw [h l] at hl
  cases hl

theorem test_targetBody : IssueInRange targetBody :=
  ⟨by decide, by decide, fun t ht => by
    rw [List.mem_singleton.1 ht]
    exact ⟨by decide, by decide, by decide, fun e he => by
      rw [List.mem_singleton.1 he]; exact ⟨by decide, by decide, by decide⟩, by decide⟩, by decide⟩

theorem test_IssueTargetTaken :
    (∀ t ∈ targetBody.entries, ∀ n : LineId, t.line.toNat = n.val → (plant.line n).enabled = true ∧
      (plant.line n).catalog.length ≤ 1 ∧ ∀ e ∈ (plant.line n).catalog, e.generation.toNat < targetBody.generation.toNat) ∧
    (let t := after (.issueTarget 0x2000 targetBody) plant;
      (t.line 0).catalog.map (fun e => (e.generation, e.state)) = [(4, .verifying)] ∧
      t.targetOrders = [⟨0, 0x2000, 1, 0⟩] ∧ BusWrite.write 0x202C [1, 0, 0, 0] ∈ t.bus) := by decide +kernel

/-- A catalog of two, its older entry wanted by record 0: ISSUE TARGET drops it, and the record goes STALE. -/
theorem test_issue_drops :
    let e (g : U16) : CatEntry := ⟨g, 9, [⟨0x8000, 9⟩], none, some 0, .ready, none, false, some (0x4000, 1)⟩
    let s := onLine 0 (fun k => { k with catalog := [e 2, e 3], slot := some (Slot.loaded 2 0 false) })
      { busyPlant { page with generation := 2 } (recIn .targetWait) with targetOrders := [⟨1, 0x3000, 1, 0⟩] }
    let t := after (.issueTarget 0x2000 targetBody) s
    (s.line 0).catalog.length = 2 ∧ claims s 0 2 (recIn .targetWait) = true ∧ (s.line 0).held ≠ 2 ∧
    (t.line 0).catalog.map (fun e => e.generation) = [3, 4] ∧ BusWrite.write 0x400C [5, 0, 0, 0] ∈ t.bus ∧
    (t.line 0).slot = none ∧ t.pages = [] := by decide +kernel

/-- R53, R65: two named lines drop entries of one order of two; the first drop ends the order, and the second writes nothing. -/
theorem test_shared_order :
    let e (g : U16) (a : U64) : CatEntry := ⟨g, 9, [⟨0x8000, 9⟩], none, some 0, .verifyQueued, none, false, some (a, 1)⟩
    let two (a : U64) (k : Line) : Line := { k with catalog := [e 2 a, { e 3 a with report := none }] }
    let s := { onLine 0 (two 0x4000) (onLine 1 (fun k => { two 0x5000 k with catalog := [{ e 2 0x5000 with state := .ready }, e 3 0x6000] })
      plant) with targetOrders := [⟨1, 0x3000, 1, 0⟩] }
    let body : IssueTargetBody := ⟨4, 2, targetBody.entries ++ targetBody.entries.map fun t => { t with line := 1 }⟩
    let t := after (.issueTarget 0x2000 body) s
    BusWrite.write 0x400C [5, 0, 0, 0] ∈ t.bus ∧ BusWrite.write 0x3009 [2, 0, 0] ∈ t.bus ∧
    BusWrite.write 0x500C [5, 0, 0, 0] ∉ t.bus ∧ t.targetOrders = [⟨2, 0x2000, 2, 0⟩] := by decide +kernel

theorem test_PollOrdersTaken :
    (0 : Byte).toNat = (0 : LinkId).val ∧ (plant.link 0).roll = none ∧ (plant.line 0).query = none ∧
    (plant.line 0).state ≠ .unconfigured ∧ (plant.line 0).state ≠ .unreachable ∧ (plant.link 0).wire = none ∧
    (plant.link 0).control = [] ∧
    (let open_ := after (.queryLine 0x3000 0) (after (.rollCall 0x2000 0) plant);
      (open_.link 0).roll = some ⟨250, 0, 0, [0x2000]⟩ ∧ (open_.line 0).query = some ⟨500, [0x3000]⟩ ∧
      ((after (.rollCall 0x4000 0) open_).link 0).roll = some ⟨250, 0, 0, [0x2000, 0x4000]⟩ ∧
      ((after (.queryLine 0x4000 0) open_).line 0).query = some ⟨500, [0x3000, 0x4000]⟩) := by decide +kernel

/-- The detail with which an order was refused last. -/
def refusal (s : State) : Option (List Byte) :=
  (s.bus.filterMap fun w => match w with | .write a [4, d, 0] => if a = 0x2009 then some [d] else none | _ => none).head?

theorem test_consign_refused :
    let s := busyPlant page (recIn .delivered)
    let full := { s with pages := (List.range 128).map fun n => (n, { page with key := ⟨1, 2, 3, BitVec.ofNat 16 (100 + n)⟩ }) }
    refusal (after (.consign 0x2000 { consignBody with size := 21 }) s) = some [2] ∧
    refusal (after (.consign 0x2000 { consignBody with dests := [⟨9, none⟩] }) s) = some [7] ∧
    refusal (after (.consign 0x2000 { consignBody with version := 1 }) s) = some [5] ∧
    refusal (after (.consign 0x2000 consignBody) full) = some [3] ∧
    refusal (after (.consign 0x2000 consignBody) { s with free := [] }) = some [4] := by decide +kernel

theorem test_page_orders_refused :
    let s := onLine 0 (fun k => { k with catalog := [newCatEntry 4 ⟨0, false, none, 16, 1, []⟩ 0 0] }) plant
    refusal (after (.withdraw 0x2000 ⟨{ key with zone := 16 }, 0⟩) plant) = some [2] ∧
    refusal (after (.withdraw 0x2000 ⟨key, 0⟩) plant) = some [6] ∧
    refusal (after (.withdraw 0x2000 ⟨key, 9⟩) (busyPlant page (recIn .delivered))) = some [6] ∧
    refusal (after (.issueTarget 0x2000 { targetBody with generation := 0 }) s) = some [2] ∧
    refusal (after (.issueTarget 0x2000 { targetBody with entries := [⟨9, true, none, 16, 1, [⟨0x8000, 16⟩]⟩] }) s) = some [7] ∧
    refusal (after (.issueTarget 0x2000 targetBody) s) = some [9] := by decide +kernel

theorem test_PlainOrdersRefused :
    refusal (after (.setLink 0x2000 { linkBody with link := 4 }) plant) = some [2] ∧
    refusal (after (.setPressLine 0x2000 { lineBody with line := 64 }) plant) = some [2] ∧
    refusal (after (.setPressLine 0x2000 { lineBody with primary := 31 }) plant) = some [2] ∧
    refusal (after (.setPressLine 0x2000 { lineBody with secondary := 2 }) plant) = some [2] ∧
    refusal (after (.setPressLine 0x2000 ⟨0, true, 7, 3, 0, 0, [], 2, 1, none, 0, 0⟩)
      (busyPlant page (recIn .receiptWait))) = some [8] ∧
    refusal (after (.setClock 0x2000 ⟨1, 2⟩) plant) = some [2] ∧ refusal (after (.rollCall 0x2000 4) plant) = some [2] ∧
    refusal (after (.rollCall 0x2000 1) plant) = some [10] ∧ refusal (after (.queryLine 0x2000 64) plant) = some [2] ∧
    refusal (after (.queryLine 0x2000 2) plant) = some [11] ∧ refusal (after (.badKind 0x2000 0) plant) = some [1] := by
  decide +kernel

/-! #### Verification -/

/-- Page 0 in its pass, its record waiting. -/
def verifying (stated : Option U32) : State :=
  { busyPlant { page with state := .verifying, statedCrc := stated } (recIn .verifyWait) with verify := ⟨[], some (.page 0)⟩ }

theorem test_GoodPass :
    (verifying none).verify.busy = some (.page 0) ∧ (recIn .verifyWait).siteHasData = false ∧
    (∀ l, Xfer.dest 0 ∉ ((verifying none).link l).queue) ∧ (verifying none).counters.verifyPasses.toNat < 4294967295 ∧
    (let t := after (.verifyPassEnd digits) (verifying (some 0xCBF43926));
      (t.page? 0).map (fun p => p.state) = some .active ∧ (t.rec? 0).map (fun r => r.state) = some .sending ∧
      t.counters.verifyPasses = 1) := by decide +kernel

theorem test_PageFaults :
    (0 : U32) ≠ crc32 digits ∧ (after (.verifyPassEnd digits) (verifying (some 0))).pages = [] ∧
    (after .verifyReadError (verifying none)).pages = [] ∧
    (let s := onLink (fun k => { k with sending := some (.dest 0) }) (busyPlant page (recIn .sending));
      s.rec? 0 = some (recIn .sending) ∧ (recIn .sending).parent = 0 ∧ (after (.sendReadError 0) s).pages = []) ∧
    (let s := busyPlant { page with state := .retiring } (recIn .withdrawing);
      Raised (after (.sendReadError 0) s) .fault) := by
  refine ⟨by decide +kernel, by decide +kernel, by decide +kernel, by decide +kernel, ?_⟩
  unfold Raised
  decide +kernel

/-- Generation 4 of line 0 in its pass, and with its slot SENDING. -/
def entry4 : CatEntry := ⟨4, 9, [⟨0x8000, 9⟩], some 0xCBF43926, none, .verifying, none, true, some (0x4000, 1)⟩
def inPass (e : CatEntry) : State :=
  onLine 0 (fun k => { k with catalog := [e] }) { plant with verify := ⟨[], some (.target 0 4)⟩, targetOrders := [⟨1, 0x3000, 1, 0⟩] }

theorem test_CatalogReady :
    (inPass entry4).verify.busy = some (.target 0 4) ∧ ((inPass entry4).line 0).entry 4 = some entry4 ∧
    ((inPass entry4).line 0).enabled = true ∧ ((inPass entry4).line 0).slot = none ∧ ((inPass entry4).line 0).held = 0 ∧
    (let t := after (.verifyPassEnd digits) (inPass entry4);
      (t.line 0).catalog.map (fun e => e.state) = [.ready] ∧ (t.line 0).slot.map (fun sl => sl.state) = some .sending ∧
      t.targetOrders = []) := by decide +kernel

/-- R53, R170: two orders not final at one address, as a host that reuses a TAKEN record makes them, end each on its own. -/
theorem test_orders_at_one_address :
    let s := after (.issueTarget 0x2000 { targetBody with entries := targetBody.entries.map fun t => { t with line := 1 } })
      (after (.issueTarget 0x2000 targetBody) plant)
    let t := after (.verifyPassEnd digits) s
    let u := after .verifyReadError t
    s.targetOrders = [⟨0, 0x2000, 1, 0⟩, ⟨1, 0x2000, 1, 0⟩] ∧ t.targetOrders = [⟨1, 0x2000, 1, 0⟩] ∧ u.targetOrders = [] ∧
    (s.order.completions, t.order.completions, u.order.completions) = (0, 1, 2) ∧
    BusWrite.write 0x2009 [2, 0, 0] ∈ t.bus ∧ BusWrite.write 0x2009 [7, 1, 0] ∈ u.bus := by decide +kernel

/-- The changeover check after a good pass of generation 4 (R54, R57): a claimant of the held generation blocks it; of two wanted
generations the older is loaded; no longer wanted and not pushed, none is. -/
theorem test_changeover :
    let old : CatEntry := { entry4 with generation := 3, state := .ready, push := false, report := none }
    let s (held : U16) (wants : Nat → U16) : State :=
      onLine 0 (fun k => { k with catalog := [old, { entry4 with push := false }], held := held })
        { inPass entry4 with
          pages := [(0, { page with generation := wants 0 }), (1, { page with generation := wants 1, dests := [1] })]
          recs := [(0, recIn .targetWait), (1, { recIn .targetWait with parent := 1 })] }
    let slot (s : State) : Option U16 := ((after (.verifyPassEnd digits) s).line 0).slot.map fun sl => sl.generation
    claims (s 2 fun i => if i = 0 then 2 else 4) 0 2 (recIn .targetWait) = true ∧
    slot (s 2 fun i => if i = 0 then 2 else 4) = none ∧ slot (s 2 fun i => if i = 0 then 4 else 3) = some 3 ∧
    slot (s 2 fun _ => 0) = none := by decide +kernel

/-- R63: the aborted transfer of a slot whose site may hold data is withdrawn, or owed where the link is not UP. -/
theorem test_abort :
    let s := onLine 0 (fun k => { k with
      catalog := [{ entry4 with state := .ready }], slot := some { Slot.loaded 4 0 false with state := .sending, siteHasData := true } }) plant
    let t := after (.targetReadError 0) s
    let u := after (.targetReadError 0) (onLink (fun _ => { Link.reset with state := .down, retry := some 9 }) s)
    (t.link 0).wire = some ⟨ctlFrame t (.targetWithdraw 0 4), .control⟩ ∧ (u.line 0).owed = some 4 := by decide +kernel

theorem test_CatalogFaults :
    let t := after (.verifyPassEnd [1]) (inPass entry4)
    let u := after .verifyReadError (inPass entry4)
    let w := after (.targetReadError 0) (onLine 0 (fun k => { k with
      catalog := [{ entry4 with state := .ready }], slot := some { Slot.loaded 4 0 false with state := .sending } }) plant)
    (0xCBF43926 : U32) ≠ crc32 [1] ∧ (t.line 0).catalog.map (fun e => (e.state, e.faultDetail)) = [(.faulted, some .mismatch)] ∧
    BusWrite.write 0x400C [4, 4, 0, 0] ∈ t.bus ∧ BusWrite.write 0x400C [4, 5, 0, 0] ∈ u.bus ∧
    (w.line 0).catalog.map (fun e => e.faultDetail) = [some .read] ∧ (w.line 0).slot = none := by decide +kernel

/-! #### The press clock -/

/-- `plant` with a press-clock value. -/
def clockAt (v : Nat) (f : Clock → Clock := id) : State := { plant with clock := f { plant.clock with value := v } }

theorem test_ClockAdvances :
    plant.clock.elapsed ≠ BitVec.allOnes 48 ∧ (after .clockAdvance (clockAt 2999)).clock.value = 3000 ∧
    ((after .clockAdvance (clockAt 2999)).link 0).markCount = 1 ∧
    (after .clockAdvance (clockAt 4294967294)).clock.clockEnd = true ∧
    (after .clockAdvance (clockAt 5 fun c => { c with hold := some 3 })).clock = { (clockAt 5).clock with hold := some 2, elapsed := 1, loss := some 899 } ∧
    ((after .clockAdvance plant).link 0).silence = some 2999 := by decide +kernel

theorem test_ClockTimersEnd :
    let lost := clockAt 5 fun c => { c with loss := some 0 }
    lost.clock.loss = some 0 ∧ lost.clock.sync = .locked ∧ (after .lossTimerExpiry lost).clock.sync = .holdover ∧
    plant.clock.loss ≠ some 0 ∧ State.reset.clock.source = .internal ∧ gives .syncPulse State.reset State.reset = true ∧
    (after .holdEnd (clockAt 5 fun c => { c with hold := some 0 })).clock.hold = none := by decide +kernel

theorem test_LockedPulse :
    plant.clock.source = .station ∧ plant.clock.clockEnd = false ∧ plant.clock.sync = .locked ∧
    (after .syncPulse (clockAt 4000)).clock.loss = some 3000 ∧ (after .syncPulse (clockAt 4001)).clock.hold = some 1 ∧
    (after .syncPulse (clockAt 4100)).clock.hold = some 100 ∧ (after .syncPulse (clockAt 4101)).counters.syncRejected = 1 ∧
    (after .syncPulse (clockAt 4899)).clock.loss = some 900 ∧ (after .syncPulse (clockAt 4900)).clock.value = 5000 ∧
    (after .syncPulse (clockAt 4999)).clock.value = 5000 := by decide +kernel

theorem test_UnlockedPulse :
    let free (v : Nat) := clockAt v fun c => { c with sync := .acquiring, loss := none }
    (free 0).clock.sync = .acquiring ∧ (after .syncPulse (free 4000)).clock.sync = .locked ∧
    (after .syncPulse (free 4001)).clock.hold = some 1 ∧ (after .syncPulse (free 4499)).clock.hold = some 499 ∧
    (after .syncPulse (free 4500)).clock.value = 5000 ∧ (after .syncPulse (free 4500)).clock.snapshot = 5000 := by decide +kernel

/-! #### Deadlines -/

/-- A record of page 0 with one entry in the list, due now. -/
def due (k : DeadlineKind) (st : DestState) (pol : LatePolicy) : State :=
  { busyPlant { page with policy := pol } (recIn st) with deadlines := [⟨2050, 0, k⟩] }

theorem test_WarnFires :
    let s := due .warn .queued .continue_
    s.deadlines = [⟨2050, 0, .warn⟩] ∧ s.rec? 0 = some (recIn .queued) ∧
    (after .warnFiring s).deadlines = [⟨5000, 0, .miss⟩] ∧ ((after .warnFiring s).rec? 0).map (fun r => r.late) = some true ∧
    (after .warnFiring (due .warn .withdrawing .continue_)).deadlines = [⟨5000, 0, .miss⟩] ∧
    (after .warnFiring (due .warn .delivered .continue_)).deadlines = [] := by decide +kernel

/-- R97: a QUEUED record goes before one that is not LATE, and keeps its sequence; a TARGET_WAIT one makes its slot urgent. -/
theorem test_warn_moves :
    let s := { onLink (fun k => { k with state := .down, queue := [.dest 0, .dest 1] }) queuePlant with
      recs := [(0, { recIn .queued with seq := 0 }), (1, { recIn .queued with seq := 1 })], deadlines := [⟨2050, 1, .warn⟩] }
    let w := onLine 0 (fun k => { k with slot := some (Slot.loaded 4 9 false) })
      { due .warn .targetWait .continue_ with pages := [(0, { page with generation := 4 })] }
    (s.line 0).slot = none ∧ changeoverChoice s 0 = none ∧ Xfer.dest 1 ∈ (s.link (s.linkOf 0)).queue ∧
    ((after .warnFiring s).link 0).queue = [.dest 1, .dest 0] ∧ ((after .warnFiring s).rec? 1).map (fun r => r.seq) = some 1 ∧
    w.recGen (recIn .targetWait) = 4 ∧ ((after .warnFiring w).line 0).slot.map (fun sl => sl.urgent) = some true := by
  decide +kernel

theorem test_MissFires :
    let s (pol : LatePolicy) := due .miss .verifyWait pol
    (s .drop).page? (recIn .verifyWait).parent = some page ∧
    ((after .missFiring (s .continue_)).rec? 0).map (fun r => (r.state, r.missed)) = some (.verifyWait, true) ∧
    (after .missFiring (s .drop)).pages = [] ∧
    ((after .missFiring (due .miss .withdrawing .drop)).rec? 0).map (fun r => r.missed) = some true ∧
    (after .missFiring (due .miss .delivered .drop)).deadlines = [] := by decide +kernel

/-- Line 0 with an alternate. -/
def withAlternate (a : LineId) (s : State) : State := onLine 0 (fun k => { k with cfg := { k.cfg with alternate := some a } }) s

theorem test_fallback :
    let s := due .miss .verifyWait .fallback
    let t := after .missFiring (withAlternate 1 s)
    (s.line 0).cfg.alternate = none ∧ ((withAlternate 2 s).line 2).enabled = false ∧
    ((withAlternate 1 s).line 1).enabled = true ∧ (∀ j ∈ page.dests, ∀ q ∈ s.rec? j, q.line ≠ 1) ∧
    s.free = [1, 2] ∧ s.rec? 1 = none ∧ (0 ∉ s.free) ∧
    (t.rec? 0).map (fun r => (r.state, r.fallback)) = some (.missed, .made 1) ∧
    (t.rec? 1).map (fun f => (f.line, f.deadline, f.state)) = some (1, 5500, .queued) ∧ t.free = [2] ∧
    t.deadlines = [⟨4500, 1, .warn⟩] := by decide +kernel

/-- R102: the counters of fallbacks made and failed, and the entry that shows why none was made. -/
theorem test_fallback_counts :
    let s := due .miss .verifyWait .fallback
    let none := after .missFiring s
    let made := after .missFiring (withAlternate 1 s)
    (none.counters.fallbacksFailed, none.counters.fallbacksMade) = (1, 0) ∧
    (made.counters.fallbacksFailed, made.counters.fallbacksMade) = (0, 1) ∧
    BusWrite.write 0x2048 [12, 0, 0, 2, 255, 0, 11, 0] ∈ none.bus := by decide +kernel

/-- R43, R103: a fallback whose first place fails it shows FAILED with the detail NONE in its creation write (log entry 35). -/
theorem test_fallback_creation :
    let t := after .missFiring (withAlternate 1 (onLine 1 (fun k => { k with catalog := [{ entry4 with state := .faulted }] })
      { due .miss .receiptWait .fallback with pages := [(0, { page with policy := .fallback, generation := 4 })] }))
    (t.rec? 1).map (fun f => (f.state, f.detail)) = some (.failed, .targetSource) ∧
    BusWrite.write 0x2048 [8, 0, 0, 6, 1, 10, 0, 0] ∈ t.bus := by decide +kernel

theorem test_ReleaseFires :
    let s := due .release .delivered .drop
    (recIn .delivered).state = .delivered ∧ page.generation = 0 ∧ page.release = none ∧ (s.link (s.linkOf 0)).state = .up ∧
    ((after .releaseFiring s).rec? 0).map (fun r => (r.state, r.sendCount, r.timer)) = some (.releasing, 1, .running 2000) ∧
    ((after .releaseFiring s).link 0).wire.map (fun w => w.frame.kind) = some 5 ∧
    gives .warnFiring s s = true := by decide +kernel

/-! #### Records -/

/-- A record in a state with its reply timer run out after some sends. -/
def waiting (st : DestState) (sends attempts : Nat) : DestRec :=
  { recIn st with timer := .running 0, sendCount := sends, attempts := attempts, retract := some (.withdrawn, .byOrder) }

theorem test_RepliesResent :
    ((after (.releaseTimeout 0) (busyPlant page (waiting .releasing 2 0))).rec? 0).map (fun r => r.sendCount) = some 3 ∧
    ((after (.withdrawTimeout 0) (busyPlant page (waiting .withdrawing 1 0))).rec? 0).map (fun r => (r.sendCount, r.timer)) =
      some (2, .running 2000) ∧
    (waiting .releasing 2 0).timer = .running 0 ∧ (recIn .releasing).timer ≠ .running 0 := by decide +kernel

/-- Frames from line 0 that pass the checks on `plant`, whatever page and record it has. -/
theorem test_FromLine (s : State) (hl : s.link 0 = upLink) (hs : s.lines = plant.lines) (k : Byte) (flags : Byte) (tag : U16)
    (hf : frameSound k (frameOf k flags tag 0 []) = true) :
    FromLine s 0 k (frameOf k flags tag 0 []) 0 := by
  have e : sourceLine s 0 0x3A = sourceLine plant 0 0x3A := by unfold sourceLine State.linesOn State.line; rw [hs]
  exact ⟨by rw [hl]; rfl, hf, rfl, e.trans (by decide +kernel)⟩

theorem test_RecordsEnd :
    frameSound 6 (frameOf 6 0 0 0 []) = true ∧ frameSound 8 (frameOf 8 0 0 0 []) = true ∧
    (frameOf 6 0 0 0 []).tag.toNat = 0 ∧ (∀ l, Xfer.dest 0 ∉ ((busyPlant page (waiting .releasing 3 0)).link l).queue) ∧
    (after (.releaseAck 0 (frameOf 6 0 0 0 [])) (busyPlant page (waiting .releasing 1 0))).pages = [] ∧
    (after (.withdrawAck 0 (frameOf 8 0 0 0 [])) (busyPlant page (waiting .withdrawing 1 0))).pages = [] ∧
    (after (.releaseTimeout 0) (busyPlant page (waiting .releasing 3 0))).pages = [] ∧
    (after (.withdrawTimeout 0) (busyPlant page (waiting .withdrawing 3 0))).pages = [] := by decide +kernel

theorem test_ReceiptJudged :
    let s (n : Nat) := busyPlant page (waiting .receiptWait 0 n)
    frameSound 4 (frameOf 4 0x10 0 0 []) = true ∧ (frameOf 4 0x10 0 0 []).flags.getLsbD 2 = false ∧
    (frameOf 4 0x10 0 0 []).flags.getLsbD 4 = true ∧ frameSound 4 (frameOf 4 0 0 0 []) = true ∧
    ((after (.receipt 0 (frameOf 4 0x10 0 0 [])) (s 0)).rec? 0).map (fun r => (r.state, r.acked)) = some (.releasing, 20) ∧
    ((after (.receipt 0 (frameOf 4 0x10 0 0 [])) { s 0 with pages := [(0, { page with release := some 9000 })] }).rec? 0).map
      (fun r => r.state) = some .delivered ∧
    (after (.receipt 0 (frameOf 4 0x10 0 0 [])) { s 0 with
      pages := [(0, { page with release := some 9000 })], deadlines := [⟨5000, 0, .miss⟩] }).deadlines = [⟨9000, 0, .release⟩] ∧
    ((after (.receipt 0 (frameOf 4 0 0 0 [])) (s 1)).rec? 0).map (fun r => (r.state, r.attempts)) = some (.sending, 2) ∧
    (after (.receiptTimeout 0) (s 2)).pages = [] := by decide +kernel

/-- Line 0's slot in CONFIRM_WAIT after some attempts, record 0 waiting for its generation. -/
def confirming (n : Nat) : State :=
  onLine 0 (fun k => { k with catalog := [{ entry4 with state := .ready }], slot := some { Slot.loaded 4 0 false with
    state := .confirmWait, attempts := n, timer := some 0, siteHasData := true } })
    (busyPlant { page with generation := 4 } (recIn .targetWait))

theorem test_ConfirmJudged :
    frameSound 4 (frameOf 4 0x14 1024 0 []) = true ∧ (frameOf 4 0x14 1024 0 []).tag.toNat = 1024 + (0 : LineId).val ∧
    frameSound 4 (frameOf 4 0x04 1024 0 []) = true ∧ claims (confirming 0) 0 4 (recIn .targetWait) = true ∧
    (let t := after (.targetConfirm 0 (frameOf 4 0x14 1024 0 [])) (confirming 0);
      (t.line 0).held = 4 ∧ (t.rec? 0).map (fun r => r.state) = some .sending) ∧
    ((after (.targetConfirm 0 (frameOf 4 0x04 1024 0 [])) (confirming 0)).line 0).slot.map (fun sl => (sl.attempts, sl.state)) =
      some (1, .sending) ∧
    (let t := after (.confirmTimeout 0) (confirming 2);
      (t.line 0).slot = none ∧ t.pages = [] ∧ (t.line 0).catalog.map (fun e => e.push) = [false]) := by decide +kernel

/-! #### The wire -/

/-- A long record in SENDING on link 0, its offsets and the frame on the wire as given. -/
def sending (sent acked : Nat) (wire : Option WireFrame) (f : Link → Link := id) : State :=
  onLink (fun k => f { k with sending := some (.dest 0), wire := wire, lastCkpt := some 131072, windowTimer := some 0 })
    (busyPlant { page with size := 1048576, extents := [⟨0x9000, 1048576⟩] }
      { recIn .sending with sent := sent, acked := acked, siteHasData := true })

theorem test_WindowRules :
    let ack (hd : U32) (c : List Byte) := frameOf 3 0 0 hd c
    frameSound 3 (ack 65536 [0, 2, 0, 0]) = true ∧ beNat [0, 2, 0, 0] = 131072 ∧
    ((after (.windowTimeout 0) (sending 262144 0 none)).rec? 0).map (fun r => r.sent) = some 0 ∧
    ((after (.windowTimeout 0) (sending 262144 0 none)).link 0).counters.rewinds = 1 ∧
    (let t := after (.ckptAck 0 (ack 65536 [0, 1, 0, 0])) (sending 131072 0 none);
      (t.rec? 0).map (fun r => (r.acked, r.sent)) = some (65536, 131072)) ∧
    (let t := after (.ckptAck 0 (ack 65536 [0, 2, 0, 0])) (sending 131072 0 none);
      (t.rec? 0).map (fun r => (r.acked, r.sent)) = some (65536, 65536) ∧ (t.link 0).counters.rewinds = 1) ∧
    ((after (.ckptAck 0 (ack 65536 [0, 2, 0, 0])) (sending 131072 0 (onWire .control))).link 0).rewindPending = true ∧
    ((after (.ckptAck 0 (ack 1 [0, 1, 0, 0])) (sending 131072 0 none)).link 0).counters.staleTag = 1 := by decide +kernel

/-- R78, R82, R83: a rewind owes an OPEN from acked, which goes out on a free wire, also in the place of a departure; a raised acked stops
the window timer, and the next DATA frame goes out. -/
theorem test_reopening :
    let wire (s : State) := (s.link 0).wire.map fun w => (w.frame.kind, w.frame.value)
    let left (cs : List CtlFrame) := after (.frameLeft 0) (sending 2048 1024 (onWire .control) fun k =>
      { k with rewindPending := true, control := cs })
    let freed := after (.ckptAck 0 (frameOf 3 0 0 65536 [0, 1, 0, 0])) (sending 262144 0 none)
    wire (after (.windowTimeout 0) (sending 262144 0 none)) = some (1, 0) ∧
    ((after (.windowTimeout 0) (sending 262144 0 (onWire .control))).link 0).openOwed = true ∧
    wire (after (.ckptAck 0 (frameOf 3 0 0 65536 [0, 2, 0, 0])) (sending 131072 0 none)) = some (1, 65536) ∧
    wire (left []) = some (1, 1024) ∧ ((left [.roll]).link 0).openOwed = true ∧
    (freed.link 0).windowTimer = none ∧ wire freed = some (2, 256) := by decide +kernel

/-- The DATA frames after an OPEN has left: the first, over two extents, and the last, which takes the last credit; with credit 0
none starts (R79, R80, R142). The first writes the entry's SITE_HAS_DATA (R28). -/
theorem test_data_starts :
    let f : WireFrame := ⟨linkFrame kindOpen 0 0, .openFrame⟩
    let p : Page := { page with size := 1500, computedCrc := some 77, extents := [⟨0x9000, 1000⟩, ⟨0xA000, 500⟩] }
    let s (sent : Nat) (credit : Nat) : State := onLink (fun k => { k with sending := some (.dest 0), wire := some f, credit := credit })
      (busyPlant p { recIn .sending with sent := sent, entryAddr := 0x2040 })
    let t := after (.frameLeft 0) (s 0 8)
    let u := after (.frameLeft 0) (s 1024 1)
    let wire (s : State) := (s.link 0).wire.map fun w => (w.frame.flags, w.frame.tag, w.frame.value, w.frame.payload)
    wire t = some (0, 0, 0, .dma [⟨0x9000, 1000⟩, ⟨0xA000, 24⟩]) ∧ (t.link 0).credit = 7 ∧
    (t.rec? 0).map (fun r => r.siteHasData) = some true ∧ t.bus = [.write 0x2048 [4, 0, 0, 4, 255, 0, 0, 0]] ∧
    wire u = some (1, 0, 77, .dma [⟨0xA018, 476⟩]) ∧ (u.link 0).credit = 0 ∧
    ((after (.frameLeft 0) (s 0 0)).link 0).wire = none ∧ ((after (.frameLeft 0) (s 0 0)).rec? 0) = (s 0 0).rec? 0 := by
  decide +kernel

theorem test_ckpt_source : FromLine (sending 131072 0 none) 0 3 (frameOf 3 0 0 65536 [0, 1, 0, 0]) 0 ∧
    ∃ i, xferInfo (sending 131072 0 none) (.dest 0) = some i ∧ i.size = 1048576 ∧ i.sent = 131072 ∧ i.acked = 0 :=
  ⟨⟨by decide +kernel, by decide +kernel, by decide, by decide +kernel⟩,
    ⟨0, 1048576, [⟨0x9000, 1048576⟩], 0, 131072, 0, true, false, identityBlock key 1 0⟩, by decide +kernel, rfl, rfl, rfl⟩

theorem test_FrameLeaves :
    let t := after (.frameLeft 0) (sending 0 0 (onWire .control) fun k => { k with control := [.roll] })
    let u := after (.frameLeft 0) (sending 0 0 (onWire (.data (.dest 0) 1024 false false true)))
    let v := after (.frameLeft 0) (sending 0 0 (onWire (.data (.dest 0) 1048576 true true true)))
    let w := after (.frameLeft 0) (sending 2048 1024 (onWire .control) fun k => { k with rewindPending := true })
    (t.link 0).wire = some ⟨linkFrame kindRoll 0 0, .control⟩ ∧ (t.link 0).counters.framesSent = 1 ∧
    (u.rec? 0).map (fun r => r.sent) = some 1024 ∧ (v.rec? 0).map (fun r => (r.state, r.timer)) = some (.receiptWait, .running 2000) ∧
    (w.rec? 0).map (fun r => r.sent) = some 1024 ∧ gives (.frameLeft 0) plant plant = true := by decide +kernel

/-- The end of a CHECKPOINT frame with the window full: the transfer goes on under the window timer (R82); it is switched away from
for an urgent one that waits, which is opened (R84, R85, R78); the LAST of a transfer has the one that waits picked (R86). -/
theorem test_checkpoint :
    let ahead (late : Bool) (last : Bool) : State :=
      { onLink (fun k => { k with queue := [.dest 1], wire := onWire (.data (.dest 0) 262144 true last true), windowTimer := none })
          (sending 261120 0 none) with
        seqNext := 5
        recs := [(0, { recIn .sending with sent := 261120, siteHasData := true }),
          (1, { recIn .queued with late := late, latestStart := 9 })] }
    let stays := after (.frameLeft 0) (ahead false false)
    let goes := after (.frameLeft 0) (ahead true false)
    let ends := after (.frameLeft 0) (ahead false true)
    ((stays.link 0).lastCkpt = some 262144 ∧ (stays.link 0).windowTimer = some 2000 ∧ (stays.link 0).sending = some (.dest 0)) ∧
    ((goes.link 0).sending = some (.dest 1) ∧ (goes.link 0).queue = [.dest 0] ∧
      (goes.rec? 0).map (fun r => (r.state, r.sent, r.seq)) = some (.queued, 0, 5) ∧
      (goes.link 0).wire.map (fun w => (w.role, w.frame.kind, w.frame.tag)) = some (.openFrame, 1, 1)) ∧
    (ends.link 0).sending = some (.dest 1) ∧ (ends.rec? 0).map (fun r => (r.state, r.sent)) = some (.receiptWait, 262144) := by
  decide +kernel

/-- The same of a slot: handed back at a checkpoint where its line is not READY (R84, R85); in CONFIRM_WAIT after LAST (R59). -/
theorem test_slot_frames :
    let s (last : Bool) (st : LineState) : State :=
      onLine 0 (fun k => { k with
          state := st, catalog := [{ entry4 with state := .ready, size := 262144 }]
          slot := some { Slot.loaded 4 0 false with state := .sending, siteHasData := true, sent := 64512 } })
        (onLink (fun k => { k with sending := some (.slot 0), wire := onWire (.data (.slot 0) 65536 true last true) }) plant)
    let slot (s : State) := (s.line 0).slot.map fun sl => (sl.state, sl.sent)
    slot (after (.frameLeft 0) (s false .held)) = some (.queued, 0) ∧
    slot (after (.frameLeft 0) (s false .ready)) = some (.sending, 65536) ∧
    slot (after (.frameLeft 0) (s true .ready)) = some (.confirmWait, 65536) := by decide +kernel

theorem test_LinkGoesDown :
    let s := onLine 0 (fun k => { k with query := some ⟨1, [0x5000]⟩ })
      (onLink (fun k => { k with silence := some 0, roll := some ⟨1, 0, 0, [0x6000]⟩ }) plant)
    let t := after (.silenceTimeout 0) s
    (s.link 0).state = .up ∧ (s.link 0).silence = some 0 ∧ (t.link 0).state = .down ∧ (t.line 0).state = .unreachable ∧
    BusWrite.write 0x5009 [2, 2, 0] ∈ t.bus ∧ BusWrite.write 0x6009 [2, 1, 0] ∈ t.bus ∧
    (let d := onLink (fun _ => { Link.reset with state := .down, retry := some 0 }) plant;
      ((after (.retryTimeout 0) d).link 0).state = .connecting) ∧
    (plant.link 1).state ≠ .up ∧ (plant.link 0).silence ≠ some 0 ∧ (plant.link 0).retry ≠ some 0 := by decide +kernel

/-- R31, R62, R88: a loss of signal returns the record that was SENDING and the slot in CONFIRM_WAIT, and pauses a reply timer. -/
theorem test_link_loss :
    let s := onLine 1 (fun k => { k with slot := some { Slot.loaded 4 0 false with state := .confirmWait, attempts := 1, sent := 20 } })
      { sending 262144 65536 none with recs := [(0, { recIn .sending with sent := 262144, acked := 65536 }),
          (1, { recIn .withdrawing with timer := .running 7, sendCount := 1 })] }
    let t := after (.lossOfSignal 0) s
    (t.rec? 0).map (fun r => (r.state, r.sent, r.attempts)) = some (.queued, 65536, 0) ∧
    (t.rec? 1).map (fun r => r.timer) = some (.paused 7) ∧
    (t.line 1).slot.map (fun sl => (sl.state, sl.sent, sl.attempts)) = some (.queued, 0, 1) := by decide +kernel

/-! #### Arriving frames -/

/-- R32, R33, R62: a link that comes UP releases a DELIVERED record, resumes a paused timer, sends a first WITHDRAW and an owed one. -/
theorem test_link_recovery :
    let s := onLine 1 (fun k => { k with owed := some 4 })
      { busyPlant page (recIn .delivered) with
        recs := [(0, recIn .delivered), (1, { recIn .releasing with timer := .paused 7, sendCount := 1 }), (2, recIn .withdrawing)]
        links := (plant.links).set 0 { Link.reset with state := .connecting } }
    let t := after (.credit 0 (frameOf 15 0 0 0 [])) s
    (∀ l, Xfer.dest 0 ∉ (s.link l).queue) ∧ (t.rec? 0).map (fun r => (r.state, r.sendCount)) = some (.releasing, 1) ∧
    (t.rec? 1).map (fun r => r.timer) = some (.running 7) ∧ (t.rec? 2).map (fun r => r.sendCount) = some 1 ∧
    (t.line 1).owed = none ∧ (t.link 0).control = [.withdraw 2 0 key 1, .targetWithdraw 1 4, .roll] := by decide +kernel

theorem test_CreditAndEcho :
    let busy := onLink (fun k => { k with credit := 60, wire := onWire .control }) plant
    frameSound 15 (frameOf 15 0 0 0 []) = true ∧ frameSound 14 (frameOf 14 0 63 0 []) = true ∧ (busy.link 0).wire ≠ none ∧
    ((after (.credit 0 (frameOf 15 0 0 0 [])) busy).link 0).credit = 64 ∧
    ((after (.credit 0 (frameOf 15 0 0 0 [])) busy).link 0).counters.creditOverflow = 4 ∧
    ((plant.line 0).enabled = true ∧ (plant.line 0).cfg.link = 0 ∧ (plant.line 0).cfg.primary = (0x3A : Byte) >>> 3) ∧
    ((after (.echo 0 (frameOf 14 0 63 0 [])) plant).link 0).counters.staleEcho = 0 ∧
    ((after (.echo 0 (frameOf 14 0 62 0 [])) plant).link 0).counters.staleEcho = 1 := by decide +kernel

theorem test_FramesRejected :
    let bad := { frameOf 4 0 0 0 [] with crc := 0 }
    let astray := let f := { frameOf 4 0 0 0 [] with dest := 9 }; { f with crc := crc16 (inHeader 4 f) }
    let stranger := let f := { frameOf 4 0 0 0 [] with src := 9 }; { f with crc := crc16 (inHeader 4 f) }
    let connecting := onLink (fun _ => { Link.reset with state := .connecting }) plant
    frameSound 4 bad = false ∧ frameSound 4 astray = true ∧ frameSound 4 stranger = true ∧
    sourceOf plant 0 4 stranger = none ∧ sourceOf connecting 0 4 (frameOf 4 0 0 0 []) ≠ none ∧ (2 : Byte) ∉ [(3 : Byte), 4, 6, 8, 10, 12, 14, 15] ∧
    frameSound 2 (frameOf 2 0 0 0 [1]) = true ∧
    ((after (.receipt 0 bad) plant).link 0).counters.crcRejects = 1 ∧
    ((after (.receipt 0 astray) plant).link 0).counters.misrouted = 1 ∧
    ((after (.receipt 0 stranger) plant).link 0).counters.unknownSource = 1 ∧
    ((after (.outboundKindReceived 0 2 (frameOf 2 0 0 0 [1])) plant).link 0).counters.misrouted = 1 ∧
    (plant.link 1).state = .disabled := by decide +kernel

/-- R149: a frame of a line with a tag of 1,088 or more is refused whatever its kind, before its owner sees it. -/
theorem test_no_tag :
    let asked := onLine 0 (fun k => { k with query := some ⟨100, []⟩ }) (onLink (fun k => { k with roll := some ⟨7, 1, 1, []⟩ }) plant)
    let stale (s : State) : Bool := (s.link 0).counters.staleTag = 1 && (s.line 0).query == some ⟨100, []⟩ &&
      (s.link 0).roll == some ⟨7, 1, 1, []⟩
    stale (after (.status 0 (frameOf 10 0 1088 0 [])) asked) = true ∧ stale (after (.receipt 0 (frameOf 4 0 1088 0 [])) asked) = true ∧
    stale (after (.rollAnswer 0 (frameOf 12 0 1088 0 [0, 0, 0, 0, 0, 0, 0, 6])) asked) = true ∧
    ((after (.status 0 (frameOf 10 0 1087 0 [])) asked).line 0).query = none := by decide +kernel

/-- R77, R132: a line that a STATUS makes READY has its link pick. -/
theorem test_ready_picks :
    let s := onLine 0 (fun k => { k with query := some ⟨100, []⟩, state := .unknown })
      { onLink (fun k => { k with queue := [.dest 0] }) plant with
        pages := [(0, page)], recs := [(0, recIn .queued)] }
    (s.link 0).sending = none ∧ (s.line 0).state ≠ .ready ∧
    ((after (.status 0 (frameOf 10 0 0 1 [])) s).link 0).sending = some (.dest 0) := by decide +kernel

theorem test_StatusReceived :
    let f := frameOf 10 0 0 0x05 []
    let s := onLine 0 (fun k => { k with query := some ⟨100, [0x5000]⟩, held := 4, state := .unknown }) plant
    let t := after (.status 0 f) s
    ((s.link 0).state = .up ∧ frameSound 10 f = true ∧ f.dest = 0 ∧ sourceLine s 0 f.src = some 0) ∧
    (t.line 0).state = .ready ∧ (t.line 0).statusByte = 5 ∧ (t.line 0).held = 0 ∧ (t.line 0).changeCount = 1 ∧
    BusWrite.write 0x5009 [2, 0, 0] ∈ t.bus ∧
    (plant.line 0).query = none ∧ f.flags.getLsbD 3 = false ∧ ((after (.status 0 f) plant).link 0).counters.staleTag = 1 := by
  decide +kernel

/-- SERVICE has the line asked, also where the ack itself is stale; an outstanding query stays, and a STATUS is its reply (R148, log
entry 33). -/
theorem test_service :
    let f := frameOf 6 8 0 0 []
    let s := onLine 0 (fun k => { k with query := some ⟨100, [0x5000]⟩ }) plant
    let t := after (.releaseAck 0 f) plant
    let u := after (.status 0 (frameOf 10 8 0 1 [])) plant
    FromLine plant 0 6 f 0 ∧ f.flags.getLsbD 3 = true ∧ (plant.line 0).query = none ∧
    (t.line 0).query = some ⟨500, []⟩ ∧ (t.link 0).wire = some ⟨ctlFrame t (.query 0), .control⟩ ∧
    ((after (.releaseAck 0 f) s).line 0).query = some ⟨100, [0x5000]⟩ ∧
    (u.line 0).query = none ∧ (u.line 0).statusByte = 1 ∧
    ((after (.status 0 (frameOf 10 8 1088 1 [])) plant).line 0).query = some ⟨500, []⟩ :=
  ⟨⟨by decide +kernel, by decide +kernel, by decide, by decide +kernel⟩, by decide +kernel⟩

theorem test_RollCalls :
    let f := frameOf 12 0 0 0 [0, 0, 0, 0, 0, 0, 0, 6]
    let s := onLink (fun k => { k with roll := some ⟨7, 1, 1, []⟩ }) plant
    frameSound 12 f = true ∧ ((after (.rollAnswer 0 f) s).link 0).roll = some ⟨7, 7, 2, []⟩ ∧
    ((after (.rollAnswer 0 f) plant).link 0).counters.staleTag = 1 ∧
    (rollPlant.link 0).roll = some ⟨0, 0xC8, 2, [0x2000]⟩ ∧
    (let quiet := onLink (fun k => { k with roll := some ⟨0, 0, 0, []⟩ }) plant;
      ((after (.rollWindowClose 0) quiet).line 0).query = some ⟨500, []⟩) ∧
    gives (.rollWindowClose 0) s s = true := by decide +kernel

theorem test_QueryTimers :
    let s := onLine 0 (fun k => { k with query := some ⟨0, [0x5000]⟩, timeouts := 255 }) plant
    let t := after (.queryTimeout 0) s
    let again := onLine 0 (fun k => { k with state := .unknown, requery := some 0 }) (busyPlant page (recIn .queued))
    (t.line 0).state = .unknown ∧ (t.line 0).timeouts = 255 ∧ (t.line 0).requery = some 5000 ∧
    BusWrite.write 0x5009 [2, 1, 0] ∈ t.bus ∧ (recIn .queued).state.isFinal = false ∧
    ((after (.requeryTimeout 0) again).line 0).query = some ⟨500, []⟩ ∧
    ((after (.requeryTimeout 0) { again with recs := [] }).line 0).requery = some 5000 ∧
    gives (.requeryTimeout 0) plant plant = true := by decide +kernel

end Sys2Proof.Tests
end

section
/-! The values right after reset (O3), and what a CONSIGN gave a page entry (O11). -/

namespace Sys2Proof.Machine

/-! ### Reset -/

theorem reset_line (n : LineId) : State.reset.line n = Line.reset := by
  simp [State.line, State.reset]

theorem reset_link (l : LinkId) : State.reset.link l = Link.reset := by
  simp [State.link, State.reset]

theorem reset_free : State.reset.free = List.range 1024 := by
  simp only [State.reset, Config.poolRecords]

/-! ### Page entries -/

/-- Whatever a page entry holds after a step it held before, with the fields its CONSIGN gave it, where it was in use. -/
def PagesFixed (s t : State) : Prop :=
  ∀ n p p', s.page? n = some p → t.page? n = some p' → PageKeeps p p'

/-- A put leaves every other number as it was, whatever the order of the table. -/
theorem Table.get_put_ne {α : Type} (t : Table α) {n m : Nat} (a : α) (h : m ≠ n) :
    Table.get (Table.put t n a) m = Table.get t m := by
  induction t with
  | nil => simp [Table.put, Table.get, h.symm]
  | cons e t ih =>
    obtain ⟨k, b⟩ := e
    unfold Table.put
    split
    · simp [Table.get, h.symm]
    · split
      · next hk => simp [Table.get, h.symm, hk]
      · simp only [Table.get, ih]

/-- A put stands, whatever the order of the table. -/
theorem Table.get_put_self {α : Type} (t : Table α) (n : Nat) (a : α) : Table.get (Table.put t n a) n = some a := by
  induction t with
  | nil => simp [Table.put, Table.get]
  | cons e t ih =>
    obtain ⟨k, b⟩ := e
    unfold Table.put
    split
    · simp [Table.get]
    · split
      · simp [Table.get]
      · next hk => simp [Table.get, hk, ih]

theorem page_putPage_ne (s : State) {n m : Nat} (p : Page) (h : m ≠ n) : (s.putPage n p).page? m = s.page? m :=
  Table.get_put_ne s.pages p h

theorem RegisterKeeps.page {s t : State} (h : RegisterKeeps s t) (n : Nat) : t.page? n = s.page? n := by
  unfold State.page?; rw [h.pages]

/-- No command changes what a CONSIGN gave an entry that stays in use (R1, R5, R102). -/
theorem exec_pagesFixed (c : Instr) (s t : State) (h : exec c s = .next t) : PagesFixed s t := by
  have mild : ∀ (r : Reach) (s t : State), Mild r s t → PagesFixed s t := by
    intro r s t h n p p' hp hp'
    obtain ⟨q, hq, hk⟩ := h.page hp'
    exact Option.some.inj (hp.symm.trans hq) ▸ hk
  refine exec_induct (P := PagesFixed) mild ?registers ?reset ?consign ?before ?after c s t h
  case registers =>
    intro s t h n p p' hp hp'
    rw [h.page, hp] at hp'
    exact Option.some.inj hp' ▸ PageKeeps.refl p
  case reset =>
    intro s n p p' _ hp'
    exact absurd hp' nofun
  case consign =>
    intro r s u t n e hu hpages hfree _ ht m p p' hp hp'
    have hm : m ≠ n := by
      rintro rfl
      unfold State.page? at hfree hp
      rw [hpages, hp] at hfree
      cases hfree
    have hp : (u.putPage n e).page? m = some p := by
      rw [page_putPage_ne _ _ hm]
      unfold State.page? at hp ⊢
      rwa [hpages]
    exact mild r _ _ ht m p p' hp hp'
  case before =>
    intro s t u h k n p p' hp hp'
    exact k n p p' (by rw [h.page, hp]) hp'
  case after =>
    intro s t u h k n p p' hp hp'
    rw [k.page] at hp'
    exact h n p p' hp hp'

end Sys2Proof.Machine

namespace Sys2Proof.Pages

open Sys2Proof Sys2Proof.Machine

/-- Settles O3: every block holds its own reset value. -/
theorem resetValues : Obligations.ResetValues := by
  unfold Obligations.ResetValues
  refine ⟨?_, rfl, ?_, ?_, fun n => ?_, fun l => ?_⟩
  · exact ⟨rfl, rfl, rfl, rfl, rfl, rfl, rfl, rfl, rfl, rfl, rfl, rfl, rfl, rfl, rfl⟩
  · exact ⟨rfl, rfl, rfl, rfl, rfl, rfl, rfl, rfl⟩
  · exact ⟨rfl, rfl, rfl, reset_free, rfl, rfl, rfl⟩
  · rw [reset_line]
    exact ⟨rfl, rfl, rfl, rfl, rfl, rfl, rfl, rfl, rfl, rfl, rfl⟩
  · rw [reset_link]
    exact ⟨rfl, rfl, rfl, rfl, rfl, rfl, rfl, rfl, rfl, rfl, rfl, rfl, rfl, rfl, rfl⟩

/-- Settles O11: a step is a command or leaves the state, and no command changes an entry that stays in use. -/
theorem pageEntryFixed : Obligations.PageEntryFixed := by
  unfold Obligations.PageEntryFixed
  intro s t n p p' hstep hp hp'
  have hk : PageKeeps p p' := by
    unfold step at hstep
    split at hstep
    · cases hstep
      exact Option.some.inj (hp.symm.trans hp') ▸ PageKeeps.refl p
    · exact exec_pagesFixed _ _ _ hstep n p p' hp hp'
  exact ⟨hk.key, hk.version, hk.generation, hk.deadline, hk.release, hk.policy, hk.statedCrc, hk.size, hk.extents,
    hk.orderAddr, hk.dests⟩

end Sys2Proof.Pages
end

section
/-! Still changes: the operations that write, raise causes, offer frames and mirror, and leave the pools, the tables, the deadline
list, the press lines, the queues and what is being sent as they are. -/

namespace Sys2Proof.Machine

/-- What a still change keeps of a link: its state, its queue and what it is sending. -/
structure LinkStays (k k' : Link) : Prop where
  state : k'.state = k.state
  queue : k'.queue = k.queue
  sending : k'.sending = k.sending

/-- A still change: bus writes, causes, counters, what waits on a link and what its mirror shows. -/
structure Still (s t : State) : Prop where
  clock : t.clock = s.clock
  pages : t.pages = s.pages
  verify : t.verify = s.verify
  recs : t.recs = s.recs
  free : t.free = s.free
  deadlines : t.deadlines = s.deadlines
  lines : t.lines = s.lines
  seqNext : t.seqNext = s.seqNext
  links : ∀ l, LinkStays (s.link l) (t.link l)

variable {b s t u : State}

theorem LinkStays.refl (k : Link) : LinkStays k k := ⟨rfl, rfl, rfl⟩

theorem LinkStays.trans {i j k : Link} (h : LinkStays i j) (g : LinkStays j k) : LinkStays i k :=
  ⟨g.state.trans h.state, g.queue.trans h.queue, g.sending.trans h.sending⟩

theorem Still.refl (s : State) : Still s s := ⟨rfl, rfl, rfl, rfl, rfl, rfl, rfl, rfl, fun _ => .refl _⟩

theorem Still.trans (h : Still s t) (k : Still t u) : Still s u :=
  ⟨k.clock.trans h.clock, k.pages.trans h.pages, k.verify.trans h.verify, k.recs.trans h.recs, k.free.trans h.free,
    k.deadlines.trans h.deadlines, k.lines.trans h.lines, k.seqNext.trans h.seqNext, fun l => (h.links l).trans (k.links l)⟩

theorem Still.line (h : Still s t) (n : LineId) : t.line n = s.line n := by unfold State.line; rw [h.lines]

theorem Still.linkOf (h : Still s t) (n : LineId) : t.linkOf n = s.linkOf n := by unfold State.linkOf; rw [h.line]

theorem Still.rec? (h : Still s t) (i : Nat) : t.rec? i = s.rec? i := by unfold State.rec?; rw [h.recs]

theorem Still.page? (h : Still s t) (i : Nat) : t.page? i = s.page? i := by unfold State.page?; rw [h.pages]

theorem Still.isUp (h : Still s t) (l : LinkId) : t.isUp l = s.isUp l := by unfold State.isUp; rw [(h.links l).state]

/-! ### Primitives -/

theorem emit_still (w : BusWrite) (h : Still b s) : Still b (s.emit w) :=
  h.trans ⟨rfl, rfl, rfl, rfl, rfl, rfl, rfl, rfl, fun _ => .refl _⟩

theorem modOrder_still (f : OrderUnit → OrderUnit) (h : Still b s) : Still b (s.modOrder f) :=
  h.trans ⟨rfl, rfl, rfl, rfl, rfl, rfl, rfl, rfl, fun _ => .refl _⟩

theorem setCounters_still (c : DeskCounters) (h : Still b s) : Still b (s.setCounters c) :=
  h.trans ⟨rfl, rfl, rfl, rfl, rfl, rfl, rfl, rfl, fun _ => .refl _⟩

theorem setTargetOrders_still (x : List TargetOrder) (h : Still b s) : Still b (s.setTargetOrders x) :=
  h.trans ⟨rfl, rfl, rfl, rfl, rfl, rfl, rfl, rfl, fun _ => .refl _⟩

theorem modLink_still (l : LinkId) (f : Link → Link) (hf : ∀ k, LinkStays k (f k)) (h : Still b s) : Still b (s.modLink l f) := by
  refine h.trans ⟨rfl, rfl, rfl, rfl, rfl, rfl, rfl, rfl, fun m => ?_⟩
  rw [State.link_modLink]
  split
  · next e => exact e ▸ hf _
  · exact .refl _

theorem ite_still {p : Prop} [Decidable p] (ht : Still b t) (hu : Still b u) : Still b (if p then t else u) := by
  split <;> assumption

theorem foldl_still {α : Type} (f : State → α → State) (hf : ∀ (s : State) (a : α), Still b s → Still b (f s a)) (xs : List α)
    (h : Still b s) : Still b (xs.foldl f s) := by
  induction xs generalizing s with
  | nil => exact h
  | cons x xs ih => exact ih (hf s x h)

/-! ### Writes, causes, dispositions -/

theorem hostWrite_still (a : U64) (x : List Byte) (h : Still b s) : Still b (hostWrite a x s) := emit_still _ h

theorem deskWrite_still (o : Nat) (x : List Byte) (h : Still b s) : Still b (deskWrite o x s) := by
  unfold deskWrite; exact ite_still h (hostWrite_still _ _ h)

theorem msiIfRisen_still (m : BitVec 9) (h : Still b s) : Still b (msiIfRisen m s) := by
  unfold msiIfRisen; exact ite_still (emit_still _ h) h

theorem raise_still (c : Cause) (h : Still b s) : Still b (raise c s) := msiIfRisen_still _ (modOrder_still _ h)

theorem writeSummary_still (h : Still b s) : Still b (writeSummary s) := deskWrite_still _ _ h
theorem writeCounters_still (h : Still b s) : Still b (writeCounters s) := deskWrite_still _ _ h
theorem writeLinkMirror_still (l : LinkId) (h : Still b s) : Still b (writeLinkMirror l s) := deskWrite_still _ _ h
theorem writeLineMirror_still (n : LineId) (h : Still b s) : Still b (writeLineMirror n s) := deskWrite_still _ _ h

theorem bumpCounter_still (c : DeskCounter) (h : Still b s) : Still b (bumpCounter c s) := by
  unfold bumpCounter; exact ite_still h (writeCounters_still (setCounters_still _ h))

theorem writeDisposition_still (a : U64) (d : Disposition) (n : Nat) (h : Still b s) : Still b (writeDisposition a d n s) :=
  hostWrite_still _ _ h

theorem finalDisposition_still (a : U64) (d : Disposition) (n : Nat) (h : Still b s) : Still b (finalDisposition a d n s) :=
  raise_still _ (writeSummary_still (modOrder_still _ (writeDisposition_still _ _ _ h)))

theorem refuse_still (a : U64) (d : RefusalDetail) (h : Still b s) : Still b (refuse a d s) := finalDisposition_still _ _ _ h

theorem bumpLink_still (l : LinkId) (f : LinkCounters → LinkCounters) (h : Still b s) : Still b (bumpLink l f s) := by
  unfold bumpLink
  exact ite_still h (writeLinkMirror_still l (modLink_still l _ (fun _ => ⟨rfl, rfl, rfl⟩) h))

theorem staleTag_still (l : LinkId) (h : Still b s) : Still b (staleTag l s) := bumpLink_still _ _ h

theorem linkChanged_still (l : LinkId) (h : Still b s) : Still b (linkChanged l s) := raise_still _ (writeLinkMirror_still l h)

theorem writeTaken_still (a : U64) (h : Still b s) : Still b (writeTaken a s) := writeDisposition_still _ _ _ h

theorem markTaken_still (a : U64) (h : Still b s) : Still b (markTaken a s) := modOrder_still _ h

theorem holdTake_still (a : U64) (o : HeldOrder) (h : Still b s) : Still b (holdTake a o s) := modOrder_still _ h

theorem releaseHold_still (o : HeldOrder) (h : Still b s) : Still b (releaseHold o s) := modOrder_still _ h

theorem finishOrders_still (d : PollDetail) (as : List U64) (h : Still b s) : Still b (finishOrders d as s) :=
  foldl_still _ (fun _ _ h => finalDisposition_still _ _ _ h) _ h

theorem reportEntry_still (e : CatEntry) (st d : Nat) (h : Still b s) : Still b (reportEntry e st d s) := by
  unfold reportEntry; split
  · exact h
  · exact hostWrite_still _ _ h

theorem writeEntry_still (n : Nat) (h : Still b s) : Still b (writeEntry n s) := by
  unfold writeEntry
  split
  · exact h
  · split
    · exact hostWrite_still _ _ h
    · split
      · exact h
      · exact hostWrite_still _ _ h

theorem writeCreation_still (o n : Nat) (h : Still b s) : Still b (writeCreation o n s) := by
  unfold writeCreation; split
  · exact h
  · exact hostWrite_still _ _ h

theorem raiseIfChanged_still (old : Line) (n : LineId) (h : Still b s) : Still b (raiseIfChanged old n s) :=
  ite_still (raise_still _ h) h

theorem raiseIfAnyChanged_still (old : State) (h : Still b s) : Still b (raiseIfAnyChanged old s) :=
  ite_still (raise_still _ h) h

/-! ### Mirrors and control frames -/

theorem refreshFirst_still (l : LinkId) (h : Still b s) : Still b (refreshFirst l s) := by
  unfold refreshFirst
  refine modLink_still l _ (fun k => ?_) h
  dsimp only
  split
  · exact .refl _
  · exact ⟨rfl, rfl, rfl⟩

theorem schedMirror_still (l : LinkId) (h : Still b s) : Still b (schedMirror l s) :=
  writeLinkMirror_still l (refreshFirst_still l h)

theorem startOpen_still (l : LinkId) (x : Xfer) (i : XferInfo) (h : Still b s) : Still b (startOpen l x i s) :=
  modLink_still l _ (fun _ => ⟨rfl, rfl, rfl⟩) h

theorem dropControlOn_still (l : LinkId) (p : CtlFrame → Bool) (h : Still b s) : Still b (dropControlOn l p s) :=
  modLink_still l _ (fun _ => ⟨rfl, rfl, rfl⟩) h

theorem dropControl_still (p : CtlFrame → Bool) (h : Still b s) : Still b (dropControl p s) :=
  foldl_still _ (fun _ l h => dropControlOn_still l p h) _ h

/-- A free wire takes a waiting control frame, or the OPEN owed, ahead of any DATA frame (R143). -/
theorem kick_still (l : LinkId) (hc : (s.link l).control ≠ [] ∨ (s.link l).openOwed = true) (h : Still b s) :
    Still b (kick l s) := by
  unfold kick
  dsimp only
  split
  · exact h
  · split
    · exact modLink_still l _ (fun _ => ⟨rfl, rfl, rfl⟩) h
    · next hnil =>
      have ho : (s.link l).openOwed = true := hc.resolve_left (fun c => c hnil)
      split
      · exact h
      · split
        · exact h
        · rw [if_pos ho]
          exact startOpen_still _ _ _ h

theorem joinControl_ne_nil (c : CtlFrame) (cs : List CtlFrame) : joinControl c cs ≠ [] := by
  unfold joinControl
  split
  · next h =>
    rintro e
    rw [List.map_eq_nil_iff] at e
    simp [e] at h
  · simp

/-- A frame offered goes ahead of any DATA frame, so none starts (R143). -/
theorem offer_still (l : LinkId) (c : CtlFrame) (h : Still b s) : Still b (offer l c s) := by
  unfold offer
  split
  · refine kick_still l (.inl ?_) (modLink_still l _ (fun _ => ⟨rfl, rfl, rfl⟩) h)
    rw [State.link_modLink_self]
    exact joinControl_ne_nil _ _
  · exact h

/-! ### Windows, marks, echoes -/

theorem openWindow_still (l : LinkId) (as : List U64) (h : Still b s) : Still b (openWindow l as s) :=
  offer_still _ _ (modLink_still l _ (fun _ => ⟨rfl, rfl, rfl⟩) h)

theorem shutWindow_still (l : LinkId) (h : Still b s) : Still b (shutWindow l s) :=
  releaseHold_still _ (dropControlOn_still l _ (modLink_still l _ (fun _ => ⟨rfl, rfl, rfl⟩) h))

theorem loseWindow_still (l : LinkId) (h : Still b s) : Still b (loseWindow l s) := by
  unfold loseWindow; split
  · exact finishOrders_still _ _ (shutWindow_still l h)
  · exact h

theorem restartSilence_still (l : LinkId) (h : Still b s) : Still b (restartSilence l s) :=
  modLink_still l _ (fun _ => ⟨rfl, rfl, rfl⟩) h

theorem echoReceived_still (l : LinkId) (c : Nat) (h : Still b s) : Still b (echoReceived l c s) :=
  ite_still h (raise_still _ (bumpLink_still _ _ h))

theorem rollAnswer_still (l : LinkId) (m : U64) (h : Still b s) : Still b (rollAnswer l m s) := by
  unfold rollAnswer; split
  · exact staleTag_still l h
  · exact modLink_still l _ (fun _ => ⟨rfl, rfl, rfl⟩) h

theorem markLink_still (v : Nat) (l : LinkId) (h : Still b s) : Still b (markLink v s l) :=
  ite_still (writeLinkMirror_still l (offer_still _ _ (modLink_still l _ (fun _ => ⟨rfl, rfl, rfl⟩) h))) h

theorem RegisterKeeps.still (h : RegisterKeeps s t) : Still s t :=
  ⟨h.clock, h.pages, h.verify, h.recs, h.free, h.deadlines, h.lines, h.seqNext,
    fun l => by unfold State.link; rw [h.links]; exact .refl _⟩

end Sys2Proof.Machine
end

section
/-! Light changes: those that leave whatever the queues rest on (QueuesSound) as it is, and make no entry of the deadline list due. -/

namespace Sys2Proof.Machine

/-! ### What the queues rest on -/

/-- What of a record the queues, the pool and the deadline monitor rest on. -/
structure RecView where
  state      : DestState
  line       : LineId
  parent     : Nat
  isFallback : Bool
  key        : QueueKey

def DestRec.view (r : DestRec) : RecView := ⟨r.state, r.line, r.parent, r.isFallback, ⟨r.late, r.latestStart, r.seq⟩⟩

/-- What of a slot the queues rest on. -/
structure SlotView where
  state : SlotState
  key   : QueueKey

def Slot.view (sl : Slot) : SlotView := ⟨sl.state, ⟨sl.urgent, sl.latestStart, sl.seq⟩⟩

/-- What of a line the queues rest on. -/
structure LineView where
  enabled : Bool
  link    : LinkId
  slot    : Option SlotView

def Line.view (k : Line) : LineView := ⟨k.enabled, k.cfg.link, k.slot.map Slot.view⟩

def recViews (s : State) : Table RecView := s.recs.map fun e => (e.1, e.2.view)

def pageViews (s : State) : Table (List Nat) := s.pages.map fun e => (e.1, e.2.dests)

/-- The entries of the deadline list whose due time has been reached. -/
def dueList (s : State) : List DeadlineEntry := s.deadlines.filter fun d => s.reached d.due

/-- A record in use that is no fallback. -/
def plain (s : State) (i : Nat) : Prop := ∃ r, s.rec? i = some r ∧ r.isFallback = false

/-- What every event but a firing keeps of the deadline list: at the same press time no entry becomes due, and no record becomes
one that may ask for a fallback. -/
structure Dues (s t : State) : Prop where
  clock : t.clock.value = s.clock.value
  due : (dueList t).Sublist (dueList s)
  plain : ∀ i, plain t i → plain s i

/-- A light change. -/
structure Light (s t : State) : Prop extends Dues s t where
  recs : recViews t = recViews s
  pages : pageViews t = pageViews s
  free : t.free = s.free
  seqNext : t.seqNext = s.seqNext
  lines : ∀ n, (t.line n).view = (s.line n).view
  links : ∀ l, (t.link l).queue = (s.link l).queue ∧ (t.link l).sending = (s.link l).sending

variable {b s t u : State}

theorem Dues.refl (s : State) : Dues s s := ⟨rfl, List.Sublist.refl _, fun _ h => h⟩

theorem Dues.trans (h : Dues s t) (k : Dues t u) : Dues s u :=
  ⟨k.clock.trans h.clock, k.due.trans h.due, fun i p => h.plain i (k.plain i p)⟩

theorem Light.refl (s : State) : Light s s := ⟨.refl s, rfl, rfl, rfl, rfl, fun _ => rfl, fun _ => ⟨rfl, rfl⟩⟩

theorem Light.trans (h : Light s t) (k : Light t u) : Light s u :=
  ⟨h.toDues.trans k.toDues, k.recs.trans h.recs, k.pages.trans h.pages, k.free.trans h.free, k.seqNext.trans h.seqNext,
    fun n => (k.lines n).trans (h.lines n), fun l => ⟨(k.links l).1.trans (h.links l).1, (k.links l).2.trans (h.links l).2⟩⟩

/-! ### Views of the tables -/

theorem Table.get_map {α β : Type} (f : α → β) (t : Table α) (n : Nat) :
    Table.get (t.map fun e => (e.1, f e.2)) n = (Table.get t n).map f := by
  induction t with
  | nil => rfl
  | cons e t ih =>
    obtain ⟨k, a⟩ := e
    simp only [List.map_cons, Table.get]
    split
    · rfl
    · exact ih

theorem Table.map_modify {α β : Type} (f : α → β) (t : Table α) (n : Nat) (g : α → α) (hg : ∀ a, f (g a) = f a) :
    (Table.modify t n g).map (fun e => (e.1, f e.2)) = t.map fun e => (e.1, f e.2) := by
  induction t with
  | nil => rfl
  | cons e t ih =>
    obtain ⟨k, a⟩ := e
    unfold Table.modify
    split
    · simp [hg]
    · simp [ih]

theorem get_recViews (s : State) (i : Nat) : Table.get (recViews s) i = (s.rec? i).map DestRec.view :=
  Table.get_map DestRec.view s.recs i

theorem get_pageViews (s : State) (n : Nat) : Table.get (pageViews s) n = (s.page? n).map Page.dests :=
  Table.get_map Page.dests s.pages n

theorem keys_recViews (s : State) : Table.keys (recViews s) = Table.keys s.recs := by
  simp [Table.keys, recViews]

theorem keys_pageViews (s : State) : Table.keys (pageViews s) = Table.keys s.pages := by
  simp [Table.keys, pageViews]

theorem Light.rec? (h : Light s t) (i : Nat) : (t.rec? i).map DestRec.view = (s.rec? i).map DestRec.view := by
  rw [← get_recViews, ← get_recViews, h.recs]

/-- Views that agree name the same records plain. -/
theorem plain_of_views (h : ∀ i, (t.rec? i).map DestRec.view = (s.rec? i).map DestRec.view) (i : Nat) (p : plain t i) :
    plain s i := by
  obtain ⟨r, hr, hf⟩ := p
  have e := h i
  rw [hr] at e
  cases hs : s.rec? i with
  | none => rw [hs] at e; cases e
  | some q =>
    rw [hs] at e
    have e : r.view = q.view := Option.some.inj e
    exact ⟨q, hs, (congrArg RecView.isFallback e).symm.trans hf⟩

theorem dueList_congr (hc : t.clock.value = s.clock.value) (hd : t.deadlines = s.deadlines) : dueList t = dueList s := by
  unfold dueList State.reached; rw [hc, hd]

/-! ### Primitives -/

/-- A change that leaves the views as they are, the deadline list and the press time too. -/
theorem Light.of_views (hc : t.clock.value = s.clock.value) (hd : t.deadlines = s.deadlines) (hr : recViews t = recViews s)
    (hp : pageViews t = pageViews s) (hf : t.free = s.free) (hq : t.seqNext = s.seqNext)
    (hl : ∀ n, (t.line n).view = (s.line n).view)
    (hk : ∀ l, (t.link l).queue = (s.link l).queue ∧ (t.link l).sending = (s.link l).sending) : Light s t :=
  ⟨⟨hc, dueList_congr hc hd ▸ List.Sublist.refl _, plain_of_views fun i => by rw [← get_recViews, ← get_recViews, hr]⟩,
    hr, hp, hf, hq, hl, hk⟩

theorem Still.light (h : Still s t) : Light s t := by
  refine .of_views ?_ h.deadlines ?_ ?_ h.free h.seqNext (fun n => by rw [h.line]) fun l => ⟨(h.links l).queue, (h.links l).sending⟩
  · rw [h.clock]
  · unfold recViews; rw [h.recs]
  · unfold pageViews; rw [h.pages]

/-- A still change after a light one. -/
theorem Still.after (k : Still s t) (h : Light b s) : Light b t := h.trans k.light

theorem modRec_light (n : Nat) (f : DestRec → DestRec) (hf : ∀ r, (f r).view = r.view) (h : Light b s) :
    Light b (s.modRec n f) :=
  h.trans (.of_views rfl rfl (Table.map_modify DestRec.view s.recs n f hf) rfl rfl rfl (fun _ => rfl) fun _ => ⟨rfl, rfl⟩)

theorem modPage_light (n : Nat) (f : Page → Page) (hf : ∀ p, (f p).dests = p.dests) (h : Light b s) :
    Light b (s.modPage n f) :=
  h.trans (.of_views rfl rfl rfl (Table.map_modify Page.dests s.pages n f hf) rfl rfl (fun _ => rfl) fun _ => ⟨rfl, rfl⟩)

theorem modVerify_light (f : VerifyEngine → VerifyEngine) (h : Light b s) : Light b (s.modVerify f) :=
  h.trans (.of_views rfl rfl rfl rfl rfl rfl (fun _ => rfl) fun _ => ⟨rfl, rfl⟩)

theorem modClock_light (f : Clock → Clock) (hf : ∀ c, (f c).value = c.value) (h : Light b s) : Light b (s.modClock f) :=
  h.trans (.of_views (hf _) rfl rfl rfl rfl rfl (fun _ => rfl) fun _ => ⟨rfl, rfl⟩)

theorem modLine_light (n : LineId) (f : Line → Line) (hf : ∀ k, (f k).view = k.view) (h : Light b s) :
    Light b (s.modLine n f) := by
  refine h.trans (.of_views rfl rfl rfl rfl rfl rfl (fun m => ?_) fun _ => ⟨rfl, rfl⟩)
  rw [State.line_modLine]
  split
  · next e => rw [hf, e]
  · rfl

theorem modLink_light (l : LinkId) (f : Link → Link) (hf : ∀ k, (f k).queue = k.queue ∧ (f k).sending = k.sending)
    (h : Light b s) : Light b (s.modLink l f) := by
  refine h.trans (.of_views rfl rfl rfl rfl rfl rfl (fun _ => rfl) fun m => ?_)
  rw [State.link_modLink]
  split
  · next e => rw [(hf _).1, (hf _).2, e]; exact ⟨rfl, rfl⟩
  · exact ⟨rfl, rfl⟩

theorem modSlot_light (n : LineId) (f : Slot → Slot) (hf : ∀ sl, (f sl).view = sl.view) (h : Light b s) :
    Light b (s.modSlot n f) := by
  refine modLine_light n _ (fun k => ?_) h
  unfold Line.view
  rw [Option.map_map, show Slot.view ∘ f = Slot.view from funext hf]

theorem ite_light {p : Prop} [Decidable p] (ht : Light b t) (hu : Light b u) : Light b (if p then t else u) := by
  split <;> assumption

theorem foldl_light {α : Type} (f : State → α → State) (hf : ∀ (s : State) (a : α), Light b s → Light b (f s a)) (xs : List α)
    (h : Light b s) : Light b (xs.foldl f s) := by
  induction xs generalizing s with
  | nil => exact h
  | cons x xs ih => exact ih (hf s x h)

/-- A deadline list whose entries due are among those due before. -/
theorem setDeadlines_light (d : List DeadlineEntry) (hd : (d.filter fun e => s.reached e.due).Sublist (dueList s))
    (h : Light b s) : Light b (s.setDeadlines d) :=
  h.trans ⟨⟨rfl, hd, fun _ p => p⟩, rfl, rfl, rfl, rfl, fun _ => rfl, fun _ => ⟨rfl, rfl⟩⟩

/-! ### Wire and scheduler -/

theorem setSent_light (x : Xfer) (v : Nat) (h : Light b s) : Light b (setSent x v s) := by
  cases x
  · exact modRec_light _ _ (fun _ => rfl) h
  · exact modSlot_light _ _ (fun _ => rfl) h

theorem setAcked_light (x : Xfer) (v : Nat) (h : Light b s) : Light b (setAcked x v s) := by
  cases x
  · exact modRec_light _ _ (fun _ => rfl) h
  · exact modSlot_light _ _ (fun _ => rfl) h

theorem markHasData_light (x : Xfer) (h : Light b s) : Light b (markHasData x s) := by
  unfold markHasData
  split
  · split
    · exact h
    · split
      · exact h
      · exact (writeEntry_still _ (.refl _)).after (modRec_light _ _ (fun _ => rfl) h)
  · exact modSlot_light _ _ (fun _ => rfl) h

theorem startData_light (l : LinkId) (x : Xfer) (i : XferInfo) (h : Light b s) : Light b (startData l x i s) :=
  markHasData_light x (modLink_light l _ (fun _ => ⟨rfl, rfl⟩) h)

theorem kick_light (l : LinkId) (h : Light b s) : Light b (kick l s) := by
  unfold kick
  dsimp only
  split
  · exact h
  · split
    · exact modLink_light l _ (fun _ => ⟨rfl, rfl⟩) h
    · split
      · exact h
      · split
        · exact h
        · split
          · exact (startOpen_still _ _ _ (.refl _)).after h
          · split
            · exact startData_light _ _ _ h
            · exact h

theorem rewind_light (l : LinkId) (h : Light b s) : Light b (rewind l s) := by
  unfold rewind
  split
  · exact h
  · split
    · exact h
    · exact kick_light l ((bumpLink_still _ _ (.refl _)).after (modLink_light l _ (fun _ => ⟨rfl, rfl⟩) (setSent_light _ _ h)))

theorem startWindow_light (l : LinkId) (x : Xfer) (h : Light b s) : Light b (startWindow l x s) := by
  unfold startWindow
  split
  · split
    · exact modLink_light l _ (fun _ => ⟨rfl, rfl⟩) h
    · exact h
  · exact h

theorem raiseAcked_light (l : LinkId) (x : Xfer) (i : XferInfo) (hd : Nat) (h : Light b s) : Light b (raiseAcked l x i hd s) := by
  unfold raiseAcked
  exact ite_light (modLink_light l _ (fun _ => ⟨rfl, rfl⟩) (setAcked_light _ _ h)) (setAcked_light _ _ h)

theorem gapRewind_light (l : LinkId) (h : Light b s) : Light b (gapRewind l s) :=
  ite_light (modLink_light l _ (fun _ => ⟨rfl, rfl⟩) h) (rewind_light l h)

theorem ckptAck_light (l : LinkId) (n : LineId) (tag hd c : Nat) (h : Light b s) : Light b (ckptAck l n tag hd c s) := by
  unfold ckptAck
  split
  · exact (staleTag_still l (.refl _)).after h
  · split
    · exact (staleTag_still l (.refl _)).after h
    · dsimp only
      refine ite_light ?_ (ite_light ?_ ?_)
      · exact gapRewind_light _ (ite_light (raiseAcked_light _ _ _ _ h) h)
      · exact kick_light _ (ite_light (raiseAcked_light _ _ _ _ h) h)
      · exact (staleTag_still l (.refl _)).after (ite_light (raiseAcked_light _ _ _ _ h) h)

theorem windowTimeout_light (l : LinkId) (h : Light b s) : Light b (windowTimeout l s) := by
  unfold windowTimeout
  dsimp only
  split
  · exact h
  · split
    · exact h
    · exact ite_light (rewind_light l h) h

theorem grantCredit_light (l : LinkId) (h : Light b s) : Light b (grantCredit l s) := by
  unfold grantCredit
  dsimp only
  refine kick_light l (ite_light ?_ (modLink_light l _ (fun _ => ⟨rfl, rfl⟩) h))
  exact (bumpLink_still _ _ (.refl _)).after (modLink_light l _ (fun _ => ⟨rfl, rfl⟩) h)

/-! ### Catalog -/

theorem forgetOrder_light (k : Nat) (h : Light b s) : Light b (forgetOrder k s) := by
  unfold forgetOrder
  refine foldl_light _ (fun s n h => ?_) _ h
  exact modLine_light n _ (fun _ => rfl) h

theorem endTargetOrder_light (t : TargetOrder) (h : Light b s) : Light b (endTargetOrder t s) :=
  ite_light (forgetOrder_light _ ((finalDisposition_still _ _ _ (setTargetOrders_still _ (.refl _))).after h)) h

theorem targetProgress_light (e : CatEntry) (d f : Nat) (h : Light b s) : Light b (targetProgress e d f s) := by
  unfold targetProgress
  split
  · exact h
  · split
    · exact h
    · exact endTargetOrder_light _ ((setTargetOrders_still _ (.refl _)).after h)

theorem modEntry_light (n : LineId) (g : U16) (f : CatEntry → CatEntry) (h : Light b s) : Light b (s.modEntry n g f) :=
  modLine_light n _ (fun _ => rfl) h

theorem setCatState_light (n : LineId) (g : U16) (f : CatEntry → CatEntry) (d k : Nat) (h : Light b s) :
    Light b (setCatState n g f d k s) := by
  have h1 := (writeLineMirror_still n (.refl _)).after (modEntry_light n g f h)
  unfold setCatState
  dsimp only
  split
  · exact h1
  · exact targetProgress_light _ _ _ ((reportEntry_still _ _ _ (.refl _)).after h1)

theorem withdrawTarget_light (n : LineId) (g : U16) (h : Light b s) : Light b (withdrawTarget n g s) :=
  ite_light ((offer_still _ _ (.refl _)).after h) (modLine_light n _ (fun _ => rfl) h)

theorem sendOwedTarget_light (n : LineId) (h : Light b s) : Light b (sendOwedTarget n s) := by
  unfold sendOwedTarget
  split
  · exact h
  · exact ite_light ((offer_still _ _ (.refl _)).after (modLine_light n _ (fun _ => rfl) h)) h

theorem dropEntry_light (n : LineId) (e : CatEntry) (h : Light b s) : Light b (dropEntry n e s) :=
  targetProgress_light _ _ _ ((reportEntry_still _ _ _ (.refl _)).after (modLine_light n _ (fun _ => rfl) (modVerify_light _ h)))

/-! ### The deadline list -/

/-- An insertion leaves out what a filter leaves out. -/
theorem filter_insertDue (p : DeadlineEntry → Bool) (e : DeadlineEntry) (d : List DeadlineEntry) (he : p e = false) :
    (insertDue e d).filter p = d.filter p := by
  induction d with
  | nil => simp [insertDue, he]
  | cons a d ih =>
    unfold insertDue
    split
    · simp [List.filter_cons, he]
    · simp [List.filter_cons, ih]

theorem removeDeadline_light (n : Nat) (h : Light b s) : Light b (removeDeadline n s) :=
  setDeadlines_light _ (List.filter_sublist.filter _) h

/-- An entry that is not due yet joins the list. -/
theorem addDeadline_light (e : DeadlineEntry) (he : s.reached e.due = false) (h : Light b s) : Light b (addDeadline e s) := by
  refine setDeadlines_light _ ?_ h
  rw [filter_insertDue _ e _ he]
  exact List.Sublist.refl _

theorem monitor_light (n : Nat) (h : Light b s) : Light b (monitor n s) := by
  unfold monitor
  split
  · exact h
  · split <;> try exact h
    case h_7 =>
      dsimp only
      split
      · split
        · exact removeDeadline_light n h
        · next ht => exact addDeadline_light _ (by simpa using ht) (removeDeadline_light n h)
      · exact removeDeadline_light n h
    all_goals exact removeDeadline_light n h

/-! ### Pool -/

theorem applyChange_light (n : Nat) (f : DestRec → DestRec) (hf : ∀ r, (f r).view = r.view) (h : Light b s) :
    Light b (applyChange n f s) :=
  monitor_light n ((writeEntry_still n (.refl _)).after (modRec_light n f hf h))

theorem sendWithdraw_light (n : Nat) (h : Light b s) : Light b (sendWithdraw n s) := by
  unfold sendWithdraw
  split
  · exact h
  · split
    · exact h
    · exact (offer_still _ _ (.refl _)).after (modRec_light n _ (fun _ => rfl) h)

theorem sendRelease_light (n : Nat) (h : Light b s) : Light b (sendRelease n s) := by
  unfold sendRelease
  split
  · exact h
  · split
    · exact h
    · exact (offer_still _ _ (.refl _)).after (modRec_light n _ (fun _ => rfl) h)

theorem sendOwedWithdraw_light (n : Nat) (h : Light b s) : Light b (sendOwedWithdraw n s) := by
  unfold sendOwedWithdraw
  split
  · exact h
  · exact ite_light (sendWithdraw_light n h) h

theorem pauseTimer_light (n : Nat) (h : Light b s) : Light b (pauseTimer n s) := by
  refine modRec_light n _ (fun r => ?_) h
  split <;> rfl

/-! ### The verify engine -/

theorem joinVerify_light (i : VerifyItem) (h : Light b s) : Light b (joinVerify i s) := modVerify_light _ h
theorem leaveVerify_light (i : VerifyItem) (h : Light b s) : Light b (leaveVerify i s) := modVerify_light _ h

theorem startPass_light (i : VerifyItem) (h : Light b s) : Light b (startPass i s) := by
  cases i
  · exact modPage_light _ _ (fun _ => rfl) h
  · exact setCatState_light _ _ _ _ _ h

theorem startVerify_light (h : Light b s) : Light b (startVerify s) := by
  unfold startVerify
  split
  · exact startPass_light _ (modVerify_light _ h)
  · exact h

/-! ### Lines, queries, windows -/

theorem settleLine_light (old : Line) (n : LineId) (h : Light b s) : Light b (settleLine old n s) := by
  unfold settleLine
  dsimp only
  have h1 := modLine_light (b := b) (s := s) n (fun k => { k with
    requery := requeryAfter (s.isUp (s.line n).cfg.link) old (s.line n)
    changeCount := if old.differs (s.line n) then satInc k.changeCount else k.changeCount }) (fun _ => rfl) h
  exact ite_light ((writeLineMirror_still n (.refl _)).after h1) h1

theorem changeLine_light (n : LineId) (f : Line → Line) (hf : ∀ k, (f k).view = k.view) (h : Light b s) :
    Light b (changeLine n f s) := settleLine_light _ n (modLine_light n f hf h)

theorem setLineState_light (n : LineId) (st : LineState) (h : Light b s) : Light b (setLineState n st s) :=
  (raiseIfChanged_still _ n (.refl _)).after (changeLine_light n _ (fun _ => rfl) h)

theorem sendQuery_light (n : LineId) (as : List U64) (h : Light b s) : Light b (sendQuery n as s) :=
  (offer_still _ _ (.refl _)).after (modLine_light n _ (fun _ => rfl) h)

theorem askQuery_light (n : LineId) (h : Light b s) : Light b (askQuery n s) := ite_light (sendQuery_light n [] h) h

theorem clearQuery_light (n : LineId) (h : Light b s) : Light b (clearQuery n s) :=
  (releaseHold_still _ (dropControl_still _ (.refl _))).after (modLine_light n _ (fun _ => rfl) h)

theorem endQuery_light (n : LineId) (h : Light b s) : Light b (endQuery n s) :=
  ite_light ((finishOrders_still _ _ (.refl _)).after (clearQuery_light n h)) h

theorem queryTimeout_light (n : LineId) (h : Light b s) : Light b (queryTimeout n s) := by
  unfold queryTimeout
  dsimp only
  split
  · exact h
  · refine ite_light ((finishOrders_still _ _ (raiseIfChanged_still _ n (.refl _))).after ?_) h
    exact modLine_light n _ (fun _ => rfl) (changeLine_light n _ (fun _ => rfl) (clearQuery_light n h))

theorem requeryTimeout_light (n : LineId) (h : Light b s) : Light b (requeryTimeout n s) :=
  ite_light (ite_light (askQuery_light n h) (modLine_light n _ (fun _ => rfl) h)) h

theorem pollDown_light (l : LinkId) (h : Light b s) : Light b (pollDown l s) :=
  foldl_light _ (fun _ n h => endQuery_light n h) _ ((loseWindow_still l (.refl _)).after h)

theorem reroute_light (n : LineId) (l : LinkId) (h : Light b s) : Light b (reroute n l s) :=
  askQuery_light n (setLineState_light n _ (endQuery_light n h))

theorem moveFrame_light (l : LinkId) (c : CtlFrame) (h : Light b s) : Light b (moveFrame l s c) := by
  refine ite_light ((offer_still l c (.refl _)).after h) ?_
  cases c
  case targetWithdraw n g => exact modLine_light n _ (fun _ => rfl) h
  all_goals exact h

theorem moveFrames_light (n : LineId) (l m : LinkId) (cs : List CtlFrame) (h : Light b s) : Light b (moveFrames n l m cs s) :=
  foldl_light _ (fun _ c h => moveFrame_light m c h) _ ((dropControlOn_still l _ (.refl _)).after h)

theorem takeRollCall_light (a : U64) (w : Byte) (h : Light b s) : Light b (takeRollCall a w s) := by
  have hm := (markTaken_still a (.refl _)).after h
  unfold takeRollCall
  dsimp only
  split
  · exact (refuse_still _ _ (.refl _)).after hm
  · split
    · exact (refuse_still _ _ (.refl _)).after hm
    · split
      · exact (writeTaken_still _ (openWindow_still _ _ (.refl _))).after hm
      · exact ite_light ((writeTaken_still _ (.refl _)).after (modLink_light _ _ (fun _ => ⟨rfl, rfl⟩) hm))
          ((holdTake_still _ _ (.refl _)).after h)

theorem takeQueryLine_light (a : U64) (w : Byte) (h : Light b s) : Light b (takeQueryLine a w s) := by
  have hm := (markTaken_still a (.refl _)).after h
  unfold takeQueryLine
  dsimp only
  split
  · exact (refuse_still _ _ (.refl _)).after hm
  · split
    · exact (refuse_still _ _ (.refl _)).after hm
    · split
      · exact (writeTaken_still _ (.refl _)).after (sendQuery_light _ _ hm)
      · exact ite_light ((writeTaken_still _ (.refl _)).after (modLine_light _ _ (fun _ => rfl) hm))
          ((holdTake_still _ _ (.refl _)).after h)

theorem takeBadKind_light (a : U64) (h : Light b s) : Light b (takeBadKind a s) :=
  (raise_still _ (refuse_still _ _ (.refl _))).after h

/-! ### The press clock -/

theorem markTrigger_light (old : Nat) (h : Light b s) : Light b (markTrigger old s) := by
  refine ite_light ?_ h
  exact (writeSummary_still (.refl _)).after (modClock_light (fun c => { c with snapshot := c.value }) (fun _ => rfl)
    ((foldl_still _ (fun _ l h => markLink_still _ l h) _ (.refl _)).after h))

theorem tickTimers_light (h : Light b s) : Light b (tickTimers s) := by
  refine h.trans (.of_views rfl rfl ?_ rfl rfl rfl (fun n => ?_) fun l => ?_)
  · simp only [recViews, tickTimers, List.map_map]; rfl
  · rw [tickTimers_line]
    unfold Line.view Line.tick
    rw [Option.map_map]; rfl
  · rw [tickTimers_link]; exact ⟨rfl, rfl⟩

theorem advanceElapsed_light (h : Light b s) : Light b (advanceElapsed s) := by
  unfold advanceElapsed
  refine ite_light ?_ (modClock_light _ (fun _ => rfl) h)
  exact h.trans (.of_views rfl rfl rfl rfl rfl rfl (fun _ => rfl) fun _ => ⟨rfl, rfl⟩)

theorem acceptPulse_light (h : Light b s) : Light b (acceptPulse s) := by
  unfold acceptPulse
  have h1 := modClock_light (fun c => { c with sync := .locked, loss := some Config.lossMs }) (fun _ => rfl) h
  exact ite_light h1 ((writeSummary_still (.refl _)).after h1)

end Sys2Proof.Machine
end

section
/-! The layout of the link queues: where transfers stand and with what keys, and what each change of the scheduler keeps of it
(R69, R74 to R77). -/

namespace Sys2Proof.Machine

/-! ### Where a transfer stands -/

/-- Whether a transfer's record or slot is QUEUED, SENDING or in any other state. -/
inductive Standing where
  | queued | sending | apart
deriving DecidableEq

/-- What the scheduler knows of a transfer: its standing, its line and its keys. -/
structure Stand where
  standing : Standing
  line     : LineId
  key      : QueueKey

def DestState.standing : DestState → Standing
  | .queued => .queued
  | .sending => .sending
  | .verifyWait | .targetWait | .receiptWait | .delivered | .releasing | .withdrawing
  | .released | .failed | .stale | .missed | .withdrawn => .apart

def SlotState.standing : SlotState → Standing
  | .queued => .queued
  | .sending => .sending
  | .confirmWait => .apart

theorem DestState.eq_queued {st : DestState} (h : st.standing = .queued) : st = .queued := by
  cases st
  case queued => rfl
  all_goals cases h

theorem DestState.eq_sending {st : DestState} (h : st.standing = .sending) : st = .sending := by
  cases st
  case sending => rfl
  all_goals cases h

theorem SlotState.eq_queued {st : SlotState} (h : st.standing = .queued) : st = .queued := by
  cases st
  case queued => rfl
  all_goals cases h

theorem SlotState.eq_sending {st : SlotState} (h : st.standing = .sending) : st = .sending := by
  cases st
  case sending => rfl
  all_goals cases h

theorem DestState.apart_of_final : ∀ {st : DestState}, st.isFinal = true → st.standing = .apart
  | .released, _ => rfl
  | .failed, _ => rfl
  | .stale, _ => rfl
  | .missed, _ => rfl
  | .withdrawn, _ => rfl

def RecView.stand (v : RecView) : Stand := ⟨v.state.standing, v.line, v.key⟩

def SlotView.stand (n : LineId) (v : SlotView) : Stand := ⟨v.state.standing, n, v.key⟩

def State.stand (s : State) : Xfer → Option Stand
  | .dest i => (s.rec? i).map fun r => r.view.stand
  | .slot n => (s.line n).slot.map fun sl => sl.view.stand n

/-- The queues and SENDING slots of the links, the transfers, and the next sequence. -/
structure Layout where
  queue   : LinkId → List Xfer
  sending : LinkId → Option Xfer
  stand   : Xfer → Option Stand
  next    : Nat

def State.layout (s : State) : Layout :=
  ⟨fun l => (s.link l).queue, fun l => (s.link l).sending, s.stand, s.seqNext⟩

/-- A transfer's keys; those of a transfer that is none are as xferKey gives them. -/
def Layout.key (L : Layout) (x : Xfer) : QueueKey :=
  match L.stand x with
  | some k => k.key
  | none => ⟨false, Config.maxU32, 0⟩

/-- A transfer stands in no queue and no SENDING slot. -/
def Layout.Idle (L : Layout) (x : Xfer) : Prop := ∀ l, x ∉ L.queue l ∧ L.sending l ≠ some x

/-- A transfer sorts before another (R74). -/
def Layout.Before (L : Layout) (x y : Xfer) : Prop := (L.key x).before (L.key y) = true

/-- A transfer stands in a link's queue or its SENDING slot. -/
def Layout.On (L : Layout) (l : LinkId) (x : Xfer) : Prop := x ∈ L.queue l ∨ L.sending l = some x

/-- The queue clauses of QueuesSound, on a layout. `home` says which link a line's transfers may stand on; a `loose` transfer is
one whose keys have changed in its queue and which has not been moved to its place yet. -/
structure Layout.Ordered (home : LinkId → LineId → Prop) (loose : Xfer → Prop) (L : Layout) : Prop where
  waits : ∀ l, ∀ x ∈ L.queue l, ∃ k, L.stand x = some k ∧ k.standing = .queued ∧ home l k.line
  sends : ∀ l x, L.sending l = some x → ∃ k, L.stand x = some k ∧ k.standing = .sending ∧ home l k.line
  nodup : ∀ l, (L.queue l).Nodup
  oneQueue : ∀ l m x, x ∈ L.queue l → x ∈ L.queue m → l = m
  oneSending : ∀ l m x, L.sending l = some x → L.sending m = some x → l = m
  order : ∀ l, (L.queue l).Pairwise fun x y => ¬ loose x → ¬ loose y → L.Before x y
  sequence : ∀ l m x y, L.On l x → L.On m y → x ≠ y → (L.key x).seq ≠ (L.key y).seq
  counter : ∀ l x, L.On l x → (L.key x).seq < L.next

theorem xferKey_eq (s : State) (x : Xfer) : xferKey s x = s.layout.key x := by
  cases x with
  | dest i => cases h : s.rec? i <;> simp [xferKey, Layout.key, State.layout, State.stand, h, RecView.stand, DestRec.view]
  | slot n => cases h : (s.line n).slot <;> simp [xferKey, Layout.key, State.layout, State.stand, h, SlotView.stand, Slot.view]

/-! ### The order of R74 -/

theorem QueueKey.before_iff (a b : QueueKey) : a.before b = true ↔
    (a.urgent = true ∧ b.urgent = false) ∨ (a.urgent = b.urgent ∧ (a.l < b.l ∨ a.l = b.l ∧ a.seq < b.seq)) := by
  have hl : (if a.l = b.l then a.seq < b.seq else a.l < b.l) ↔ a.l < b.l ∨ a.l = b.l ∧ a.seq < b.seq := by
    split <;> omega
  unfold QueueKey.before
  cases a.urgent <;> cases b.urgent <;> simp [hl]

theorem QueueKey.before_trans {a b c : QueueKey} (h : a.before b = true) (k : b.before c = true) : a.before c = true := by
  rw [QueueKey.before_iff] at *
  rcases h with ⟨h1, h2⟩ | ⟨h1, h2⟩ <;> rcases k with ⟨k1, k2⟩ | ⟨k1, k2⟩
  · rw [h2] at k1; cases k1
  · exact .inl ⟨h1, k1 ▸ h2⟩
  · exact .inl ⟨h1 ▸ k1, k2⟩
  · exact .inr ⟨h1.trans k1, by omega⟩

/-- Of two keys with different sequences one sorts before the other. -/
theorem QueueKey.before_or {a b : QueueKey} (h : a.seq ≠ b.seq) : a.before b = true ∨ b.before a = true := by
  rw [QueueKey.before_iff, QueueKey.before_iff]
  cases ha : a.urgent <;> cases hb : b.urgent <;> simp <;> omega

/-! ### Insertion in a place -/

section Insertion

variable {α : Type} (r : α → α → Prop) [DecidableRel r]

theorem pairwise_orderedInsert (trans : ∀ a b c, r a b → r b c → r a c) (x : α) {q : List α} (tot : ∀ y ∈ q, r x y ∨ r y x)
    (h : q.Pairwise r) : (q.orderedInsert r x).Pairwise r := by
  induction q with
  | nil => simp
  | cons y q ih =>
    rw [List.pairwise_cons] at h
    rw [List.orderedInsert]
    split
    · next hxy =>
      rw [List.pairwise_cons, List.pairwise_cons]
      exact ⟨fun z hz => (List.mem_cons.1 hz).elim (fun e => e ▸ hxy) fun hz => trans _ _ _ hxy (h.1 z hz), h⟩
    · next hxy =>
      have hyx : r y x := (tot y List.mem_cons_self).resolve_left hxy
      rw [List.pairwise_cons]
      refine ⟨fun z hz => ?_, ih (fun z hz => tot z (List.mem_cons_of_mem y hz)) h.2⟩
      rcases (List.mem_orderedInsert r).1 hz with rfl | hz
      · exact hyx
      · exact h.1 z hz

/-- Sorting by insertion: the same elements, in order where any two of them are comparable. -/
theorem foldl_orderedInsert (trans : ∀ a b c, r a b → r b c → r a c) (q acc : List α)
    (tot : ∀ x ∈ acc ++ q, ∀ y ∈ acc ++ q, x ≠ y → r x y ∨ r y x) (nodup : (acc ++ q).Nodup) (h : acc.Pairwise r) :
    (q.foldl (fun acc x => acc.orderedInsert r x) acc).Perm (acc ++ q) ∧
      (q.foldl (fun acc x => acc.orderedInsert r x) acc).Pairwise r := by
  induction q generalizing acc with
  | nil => simpa using h
  | cons x q ih =>
    have hp : (acc.orderedInsert r x ++ q).Perm (acc ++ x :: q) :=
      ((List.perm_orderedInsert r x acc).append_right q).trans List.perm_middle.symm
    have hx : ∀ y ∈ acc, y ≠ x := by
      rintro y hy rfl
      exact (List.nodup_append.1 nodup).2.2 y hy y List.mem_cons_self rfl
    have hs := pairwise_orderedInsert r trans x (q := acc)
      (fun y hy => tot x (by simp) y (List.mem_append_left _ hy) (hx y hy).symm) h
    have := ih (acc.orderedInsert r x) (fun a ha b hb => tot a (hp.subset ha) b (hp.subset hb)) (hp.nodup_iff.2 nodup) hs
    exact ⟨this.1.trans hp, this.2⟩

end Insertion

/-- A transfer sorts before another in a state. -/
def SortsBefore (s : State) (x y : Xfer) : Prop := (xferKey s x).before (xferKey s y) = true

abbrev decideSortsBefore (s : State) : DecidableRel (SortsBefore s) := fun _ _ => decEq _ _

/-- A transfer has a smaller sequence than another in a state. -/
def SeqBefore (s : State) (x y : Xfer) : Prop := (xferKey s x).seq < (xferKey s y).seq

abbrev decideSeqBefore (s : State) : DecidableRel (SeqBefore s) := fun _ _ => Nat.decLt _ _

theorem insertByKey_eq (s : State) (x : Xfer) (q : List Xfer) :
    insertByKey s x q = @List.orderedInsert _ (SortsBefore s) (decideSortsBefore s) x q := by
  induction q with
  | nil => rfl
  | cons y q ih =>
    unfold insertByKey List.orderedInsert
    rw [ih]
    rfl

theorem insertBySeq_eq (s : State) (x : Xfer) (q : List Xfer) :
    insertBySeq s x q = @List.orderedInsert _ (SeqBefore s) (decideSeqBefore s) x q := by
  induction q with
  | nil => rfl
  | cons y q ih =>
    unfold insertBySeq List.orderedInsert
    rw [ih]
    rfl

theorem mem_insertByKey {s : State} {x y : Xfer} {q : List Xfer} : y ∈ insertByKey s x q ↔ y = x ∨ y ∈ q := by
  rw [insertByKey_eq]
  exact @List.mem_orderedInsert _ (SortsBefore s) (decideSortsBefore s) _ _ _

theorem insertByKey_perm (s : State) (x : Xfer) (q : List Xfer) : (insertByKey s x q).Perm (x :: q) := by
  rw [insertByKey_eq]
  exact @List.perm_orderedInsert _ (SortsBefore s) (decideSortsBefore s) x q

theorem insertByKey_pairwise {s : State} {x : Xfer} {q : List Xfer} (hseq : ∀ y ∈ q, (xferKey s x).seq ≠ (xferKey s y).seq)
    (h : q.Pairwise (SortsBefore s)) : (insertByKey s x q).Pairwise (SortsBefore s) := by
  rw [insertByKey_eq]
  exact @pairwise_orderedInsert _ (SortsBefore s) (decideSortsBefore s) (fun _ _ _ h k => QueueKey.before_trans h k) x q
    (fun y hy => QueueKey.before_or (hseq y hy)) h

/-- A queue put back into order holds the same transfers, in the order of R74. -/
theorem sortQueue_spec {s : State} {q : List Xfer} (hn : q.Nodup)
    (hseq : ∀ x ∈ q, ∀ y ∈ q, x ≠ y → (xferKey s x).seq ≠ (xferKey s y).seq) :
    (sortQueue s q).Perm q ∧ (sortQueue s q).Pairwise (SortsBefore s) := by
  have e : sortQueue s q = q.foldl (fun acc x => @List.orderedInsert _ (SortsBefore s) (decideSortsBefore s) x acc) [] := by
    unfold sortQueue
    simp only [insertByKey_eq]
  rw [e]
  have := @foldl_orderedInsert _ (SortsBefore s) (decideSortsBefore s) (fun _ _ _ h k => QueueKey.before_trans h k) q []
    (fun x hx y hy h => QueueKey.before_or (hseq x (by simpa using hx) y (by simpa using hy) h)) (by simpa using hn) .nil
  simpa using this

/-- Insertion by sequence holds the same transfers, with rising sequences. -/
theorem foldl_insertBySeq_spec {s : State} {q : List Xfer} (hn : q.Nodup)
    (hseq : ∀ x ∈ q, ∀ y ∈ q, x ≠ y → (xferKey s x).seq ≠ (xferKey s y).seq) :
    (q.foldl (fun acc x => insertBySeq s x acc) []).Perm q ∧
      (q.foldl (fun acc x => insertBySeq s x acc) []).Pairwise (SeqBefore s) := by
  have e : q.foldl (fun acc x => insertBySeq s x acc) [] =
      q.foldl (fun acc x => @List.orderedInsert _ (SeqBefore s) (decideSeqBefore s) x acc) [] := by
    simp only [insertBySeq_eq]
  rw [e]
  have := @foldl_orderedInsert _ (SeqBefore s) (decideSeqBefore s) (fun _ _ _ h k => Nat.lt_trans h k) q []
    (fun x hx y hy h => Nat.lt_or_gt_of_ne (hseq x (by simpa using hx) y (by simpa using hy) h)) (by simpa using hn) .nil
  simpa using this

/-! ### Changes of a layout -/

namespace Layout

variable {home home' : LinkId → LineId → Prop} {loose loose' : Xfer → Prop} {L L' : Layout}

theorem key_congr {x : Xfer} (h : L'.stand x = L.stand x) : L'.key x = L.key x := by
  unfold key; rw [h]

theorem key_of_stand {x : Xfer} {k : Stand} (h : L.stand x = some k) : L.key x = k.key := by
  unfold key; rw [h]

theorem Idle.not_on {x : Xfer} (h : L.Idle x) (l : LinkId) : ¬ L.On l x := fun o => o.elim (h l).1 (h l).2

/-- A transfer that is neither QUEUED nor SENDING stands nowhere. -/
theorem Ordered.idle_of_apart (h : L.Ordered home loose) {x : Xfer} (hx : ∀ k, L.stand x = some k → k.standing = .apart) :
    L.Idle x := by
  refine fun l => ⟨fun hq => ?_, fun hs => ?_⟩
  · obtain ⟨k, hk, hw, _⟩ := h.waits l x hq
    rw [hx k hk] at hw; cases hw
  · obtain ⟨k, hk, hw, _⟩ := h.sends l x hs
    rw [hx k hk] at hw; cases hw

/-- A transfer that waits in a queue is not being sent. -/
theorem Ordered.not_sending (h : L.Ordered home loose) {l m : LinkId} {x : Xfer} (hx : x ∈ L.queue l) : L.sending m ≠ some x := by
  intro hs
  obtain ⟨k, hk, hw, _⟩ := h.waits l x hx
  obtain ⟨k', hk', hw', _⟩ := h.sends m x hs
  rw [hk] at hk'
  cases hk'
  rw [hw] at hw'
  cases hw'

theorem Ordered.mono (h : L.Ordered home loose) (hh : ∀ l n, home l n → home' l n) (hl : ∀ l, ∀ x ∈ L.queue l, loose x → loose' x) :
    L.Ordered home' loose' where
  waits l x hx := (h.waits l x hx).imp fun _ ⟨a, b, c⟩ => ⟨a, b, hh _ _ c⟩
  sends l x hx := (h.sends l x hx).imp fun _ ⟨a, b, c⟩ => ⟨a, b, hh _ _ c⟩
  nodup := h.nodup
  oneQueue := h.oneQueue
  oneSending := h.oneSending
  order l := (h.order l).imp_of_mem fun hx hy k a b => k (fun c => a (hl l _ hx c)) (fun c => b (hl l _ hy c))
  sequence := h.sequence
  counter := h.counter

/-- A change of transfers that stand nowhere. -/
theorem Ordered.restands (h : L.Ordered home loose) (hq : ∀ l, L'.queue l = L.queue l)
    (hs : ∀ l, L'.sending l = L.sending l) (hn : L'.next = L.next) (hst : ∀ l y, L.On l y → L'.stand y = L.stand y) :
    L'.Ordered home loose := by
  have hon : ∀ {l y}, L'.On l y → L.On l y := fun {l y} o => by unfold On at o ⊢; rwa [hq, hs] at o
  have hkey : ∀ {l y}, L.On l y → L'.key y = L.key y := fun o => key_congr (hst _ _ o)
  refine ⟨fun l y hy => ?_, fun l y hy => ?_, fun l => hq l ▸ h.nodup l, fun l m y hy hy' => ?_, fun l m y hy hy' => ?_,
    fun l => ?_, fun l m y z hy hz hyz => ?_, fun l y hy => ?_⟩
  · rw [hq] at hy; rw [hst l y (.inl hy)]; exact h.waits l y hy
  · rw [hs] at hy; rw [hst l y (.inr hy)]; exact h.sends l y hy
  · rw [hq] at hy hy'; exact h.oneQueue l m y hy hy'
  · rw [hs] at hy hy'; exact h.oneSending l m y hy hy'
  · rw [hq]
    refine (h.order l).imp_of_mem fun hy hz k a b => ?_
    unfold Before; rw [hkey (.inl hy), hkey (.inl hz)]; exact k a b
  · rw [hkey (hon hy), hkey (hon hz)]; exact h.sequence l m y z (hon hy) (hon hz) hyz
  · rw [hkey (hon hy), hn]; exact h.counter l y (hon hy)

/-- A change of a transfer that stands nowhere. -/
theorem Ordered.restand (h : L.Ordered home loose) {x : Xfer} (hx : L.Idle x) (hq : ∀ l, L'.queue l = L.queue l)
    (hs : ∀ l, L'.sending l = L.sending l) (hn : L'.next = L.next) (hst : ∀ y, y ≠ x → L'.stand y = L.stand y) :
    L'.Ordered home loose :=
  h.restands hq hs hn fun l y o => hst y fun e => hx.not_on l (e ▸ o)

/-- A change of the urgency or the L of a transfer, which may then be out of its place. -/
theorem Ordered.rekey (h : L.Ordered home loose) {x : Xfer} (hq : ∀ l, L'.queue l = L.queue l)
    (hs : ∀ l, L'.sending l = L.sending l) (hn : L'.next = L.next) (hst : ∀ y, y ≠ x → L'.stand y = L.stand y)
    (hx : ∀ k, L.stand x = some k → ∃ k', L'.stand x = some k' ∧ k'.standing = k.standing ∧ k'.line = k.line ∧
      k'.key.seq = k.key.seq) :
    L'.Ordered home fun y => y = x ∨ loose y := by
  have hon : ∀ {l y}, L'.On l y → L.On l y := fun {l y} o => by unfold On at o ⊢; rwa [hq, hs] at o
  have hstand : ∀ y k, L.stand y = some k → ∃ k', L'.stand y = some k' ∧ k'.standing = k.standing ∧ k'.line = k.line ∧
      k'.key.seq = k.key.seq := by
    intro y k hk
    by_cases e : y = x
    · exact hx k (e ▸ hk) |>.imp fun _ p => ⟨e ▸ p.1, p.2⟩
    · exact ⟨k, (hst y e).trans hk, rfl, rfl, rfl⟩
  have hseq : ∀ {l y}, L.On l y → (L'.key y).seq = (L.key y).seq := by
    intro l y o
    have : ∃ k, L.stand y = some k := o.elim (fun o => (h.waits l y o).imp fun _ p => p.1) fun o => (h.sends l y o).imp fun _ p => p.1
    obtain ⟨k, hk⟩ := this
    obtain ⟨k', hk', _, _, e⟩ := hstand y k hk
    rw [key_of_stand hk, key_of_stand hk', e]
  refine ⟨fun l y hy => ?_, fun l y hy => ?_, fun l => hq l ▸ h.nodup l, fun l m y hy hy' => ?_, fun l m y hy hy' => ?_,
    fun l => ?_, fun l m y z hy hz hyz => ?_, fun l y hy => ?_⟩
  · rw [hq] at hy
    obtain ⟨k, hk, a, b⟩ := h.waits l y hy
    obtain ⟨k', hk', c, d, _⟩ := hstand y k hk
    exact ⟨k', hk', c.trans a, d ▸ b⟩
  · rw [hs] at hy
    obtain ⟨k, hk, a, b⟩ := h.sends l y hy
    obtain ⟨k', hk', c, d, _⟩ := hstand y k hk
    exact ⟨k', hk', c.trans a, d ▸ b⟩
  · rw [hq] at hy hy'; exact h.oneQueue l m y hy hy'
  · rw [hs] at hy hy'; exact h.oneSending l m y hy hy'
  · rw [hq]
    refine (h.order l).imp fun k a b => ?_
    unfold Before
    rw [key_congr (hst _ fun e => a (.inl e)), key_congr (hst _ fun e => b (.inl e))]
    exact k (fun c => a (.inr c)) fun c => b (.inr c)
  · rw [hseq (hon hy), hseq (hon hz)]; exact h.sequence l m y z (hon hy) (hon hz) hyz
  · rw [hseq (hon hy), hn]; exact h.counter l y (hon hy)

/-- Queues that lose transfers, SENDING slots that are emptied. -/
theorem Ordered.shrink (h : L.Ordered home loose) (hq : ∀ l, (L'.queue l).Sublist (L.queue l))
    (hs : ∀ l x, L'.sending l = some x → L.sending l = some x) (hn : L'.next = L.next) (hst : ∀ y, L'.stand y = L.stand y) :
    L'.Ordered home loose := by
  have hon : ∀ {l y}, L'.On l y → L.On l y := fun {l y} o => o.imp (fun o => (hq l).subset o) (hs l y)
  have hkey : ∀ y, L'.key y = L.key y := fun y => key_congr (hst y)
  refine ⟨fun l y hy => ?_, fun l y hy => ?_, fun l => (h.nodup l).sublist (hq l), fun l m y hy hy' => ?_,
    fun l m y hy hy' => ?_, fun l => ?_, fun l m y z hy hz hyz => ?_, fun l y hy => ?_⟩
  · rw [hst]; exact h.waits l y ((hq l).subset hy)
  · rw [hst]; exact h.sends l y (hs l y hy)
  · exact h.oneQueue l m y ((hq l).subset hy) ((hq m).subset hy')
  · exact h.oneSending l m y (hs l y hy) (hs m y hy')
  · refine ((h.order l).sublist (hq l)).imp fun k a b => ?_
    unfold Before; rw [hkey, hkey]; exact k a b
  · rw [hkey, hkey]; exact h.sequence l m y z (hon hy) (hon hz) hyz
  · rw [hkey, hn]; exact h.counter l y (hon hy)

/-- A transfer that waits in a queue becomes the one being sent. -/
theorem Ordered.begin (h : L.Ordered home loose) {l : LinkId} {x : Xfer} (hx : x ∈ L.queue l)
    (hq : ∀ m, L'.queue m = if m = l then (L.queue l).filter (fun y => y != x) else L.queue m)
    (hs : ∀ m, L'.sending m = if m = l then some x else L.sending m) (hn : L'.next = L.next)
    (hst : ∀ y, y ≠ x → L'.stand y = L.stand y)
    (hx' : ∀ k, L.stand x = some k → ∃ k', L'.stand x = some k' ∧ k'.standing = .sending ∧ k'.line = k.line ∧ k'.key = k.key) :
    L'.Ordered home loose := by
  have hsub : ∀ m, (L'.queue m).Sublist (L.queue m) := by
    intro m; rw [hq]; split
    · next e => subst e; exact List.filter_sublist
    · exact List.Sublist.refl _
  have hxq : ∀ m, x ∉ L'.queue m := by
    intro m hm
    rw [hq] at hm
    split at hm
    · simp at hm
    · next e => exact e (h.oneQueue m l x hm hx)
  have hsend : ∀ {m y}, L'.sending m = some y → y ≠ x → L.sending m = some y := by
    intro m y hy hne
    rw [hs] at hy
    split at hy
    · exact absurd (Option.some.inj hy).symm hne
    · exact hy
  have hkey : ∀ y, L'.key y = L.key y := by
    intro y
    by_cases e : y = x
    · subst e
      obtain ⟨k, hk, _⟩ := h.waits l y hx
      obtain ⟨k', hk', _, _, e⟩ := hx' k hk
      rw [key_of_stand hk, key_of_stand hk', e]
    · exact key_congr (hst y e)
  have hon : ∀ {m y}, L'.On m y → ∃ m', L.On m' y := by
    intro m y o
    by_cases e : y = x
    · exact ⟨l, .inl (e ▸ hx)⟩
    · exact ⟨m, o.imp (fun o => (hsub m).subset o) fun o => hsend o e⟩
  refine ⟨fun m y hy => ?_, fun m y hy => ?_, fun m => (h.nodup m).sublist (hsub m), fun m m' y hy hy' => ?_,
    fun m m' y hy hy' => ?_, fun m => ?_, fun m m' y z hy hz hyz => ?_, fun m y hy => ?_⟩
  · rw [hst y fun e => hxq m (e ▸ hy)]; exact h.waits m y ((hsub m).subset hy)
  · by_cases e : y = x
    · subst e
      obtain ⟨k, hk, _, hh⟩ := h.waits l y hx
      obtain ⟨k', hk', a, b, _⟩ := hx' k hk
      refine ⟨k', hk', a, b ▸ ?_⟩
      by_cases e : m = l
      · exact e ▸ hh
      · rw [hs, if_neg e] at hy; exact absurd hy (h.not_sending hx)
    · rw [hst y e]; exact h.sends m y (hsend hy e)
  · exact h.oneQueue m m' y ((hsub m).subset hy) ((hsub m').subset hy')
  · by_cases e : y = x
    · subst e
      have hl : ∀ {j}, L'.sending j = some y → j = l := by
        intro j hj
        by_contra e
        rw [hs, if_neg e] at hj
        exact h.not_sending hx hj
      exact (hl hy).trans (hl hy').symm
    · exact h.oneSending m m' y (hsend hy e) (hsend hy' e)
  · refine ((h.order m).sublist (hsub m)).imp fun k a b => ?_
    unfold Before; rw [hkey, hkey]; exact k a b
  · obtain ⟨j, hj⟩ := hon hy
    obtain ⟨j', hj'⟩ := hon hz
    rw [hkey, hkey]; exact h.sequence j j' y z hj hj' hyz
  · obtain ⟨j, hj⟩ := hon hy
    rw [hkey, hn]; exact h.counter j y hj

/-- A transfer joins a queue without loose transfers, at the place that its keys give it and with the next sequence. -/
theorem Ordered.join (h : L.Ordered home loose) {l : LinkId} {x : Xfer} (hx : L.Idle x)
    (hloose : ∀ y ∈ L.queue l, ¬ loose y) (hst : ∀ y, y ≠ x → L'.stand y = L.stand y)
    (hk : ∃ k, L'.stand x = some k ∧ k.standing = .queued ∧ home l k.line ∧ k.key.seq = L.next)
    (hs : ∀ m, L'.sending m = L.sending m) (hn : L'.next = L.next + 1)
    (hq : ∀ m, m ≠ l → L'.queue m = L.queue m) (hp : (L'.queue l).Perm (x :: L.queue l))
    (ho : (L.queue l).Pairwise L'.Before → (L'.queue l).Pairwise L'.Before) : L'.Ordered home loose := by
  obtain ⟨k, hk, hqueued, hhome, hseq⟩ := hk
  have hne : ∀ {m y}, L.On m y → y ≠ x := fun {m y} o e => hx.not_on m (e ▸ o)
  have hkey : ∀ {y}, y ≠ x → L'.key y = L.key y := fun e => key_congr (hst _ e)
  have hkx : (L'.key x).seq = L.next := by rw [key_of_stand hk, hseq]
  have hmem : ∀ {m y}, y ∈ L'.queue m → y ∈ L.queue m ∨ (y = x ∧ m = l) := by
    intro m y hy
    by_cases e : m = l
    · subst e
      rcases List.mem_cons.1 (hp.subset hy) with e | hy
      · exact .inr ⟨e, rfl⟩
      · exact .inl hy
    · exact .inl (hq m e ▸ hy)
  have hon : ∀ {m y}, L'.On m y → y = x ∨ L.On m y := by
    rintro m y (o | o)
    · exact (hmem o).elim (fun o => .inr (.inl o)) fun o => .inl o.1
    · exact .inr (.inr (hs m ▸ o))
  refine ⟨fun m y hy => ?_, fun m y hy => ?_, fun m => ?_, fun m m' y hy hy' => ?_, fun m m' y hy hy' => ?_,
    fun m => ?_, fun m m' y z hy hz hyz => ?_, fun m y hy => ?_⟩
  · rcases hmem hy with hy | ⟨rfl, rfl⟩
    · rw [hst y (hne (.inl hy))]; exact h.waits m y hy
    · exact ⟨k, hk, hqueued, hhome⟩
  · rw [hs] at hy; rw [hst y (hne (.inr hy))]; exact h.sends m y hy
  · by_cases e : m = l
    · subst e
      rw [hp.nodup_iff, List.nodup_cons]
      exact ⟨(hx m).1, h.nodup m⟩
    · rw [hq m e]; exact h.nodup m
  · rcases hmem hy with hy | ⟨rfl, rfl⟩
    · rcases hmem hy' with hy' | ⟨rfl, rfl⟩
      · exact h.oneQueue m m' y hy hy'
      · exact absurd rfl (hne (.inl hy))
    · rcases hmem hy' with hy' | ⟨_, rfl⟩
      · exact absurd rfl (hne (.inl hy'))
      · rfl
  · rw [hs] at hy hy'; exact h.oneSending m m' y hy hy'
  · by_cases e : m = l
    · subst e
      refine (ho ((h.order m).imp_of_mem fun hy hz k => ?_)).imp fun k _ _ => k
      unfold Before
      rw [hkey (hne (.inl hy)), hkey (hne (.inl hz))]
      exact k (hloose _ hy) (hloose _ hz)
    · rw [hq m e]
      refine (h.order m).imp_of_mem fun hy hz k a b => ?_
      unfold Before
      rw [hkey (hne (.inl hy)), hkey (hne (.inl hz))]
      exact k a b
  · rcases hon hy with rfl | hy <;> rcases hon hz with rfl | hz
    · exact absurd rfl hyz
    · rw [hkx, hkey (hne hz)]; exact (h.counter _ _ hz).ne'
    · rw [hkx, hkey (hne hy)]; exact (h.counter _ _ hy).ne
    · rw [hkey (hne hy), hkey (hne hz)]; exact h.sequence m m' y z hy hz hyz
  · rcases hon hy with rfl | hy
    · rw [hkx, hn]; omega
    · rw [hkey (hne hy), hn]; exact (h.counter _ _ hy).trans (Nat.lt_succ_self _)

/-- A queue is put into order: its transfers are no longer loose. -/
theorem Ordered.reorder (h : L.Ordered home loose) {l : LinkId} (hs : ∀ m, L'.sending m = L.sending m) (hn : L'.next = L.next)
    (hst : ∀ y, L'.stand y = L.stand y) (hq : ∀ m, m ≠ l → L'.queue m = L.queue m) (hp : (L'.queue l).Perm (L.queue l))
    (ho : (L'.queue l).Pairwise L.Before) : L'.Ordered home fun y => loose y ∧ y ∉ L.queue l := by
  have hmem : ∀ {m y}, y ∈ L'.queue m ↔ y ∈ L.queue m := by
    intro m y
    by_cases e : m = l
    · exact e ▸ hp.mem_iff
    · rw [hq m e]
  have hon : ∀ {m y}, L'.On m y → L.On m y := fun {m y} o => o.imp hmem.1 fun o => hs m ▸ o
  have hkey : ∀ y, L'.key y = L.key y := fun y => key_congr (hst y)
  refine ⟨fun m y hy => ?_, fun m y hy => ?_, fun m => ?_, fun m m' y hy hy' => ?_, fun m m' y hy hy' => ?_,
    fun m => ?_, fun m m' y z hy hz hyz => ?_, fun m y hy => ?_⟩
  · rw [hst]; exact h.waits m y (hmem.1 hy)
  · rw [hst]; exact h.sends m y (hs m ▸ hy)
  · by_cases e : m = l
    · subst e; exact hp.nodup_iff.2 (h.nodup m)
    · rw [hq m e]; exact h.nodup m
  · exact h.oneQueue m m' y (hmem.1 hy) (hmem.1 hy')
  · exact h.oneSending m m' y (hs m ▸ hy) (hs m' ▸ hy')
  · by_cases e : m = l
    · subst e
      refine ho.imp fun k _ _ => ?_
      unfold Before at k ⊢; rw [hkey, hkey]; exact k
    · rw [hq m e]
      refine (h.order m).imp_of_mem fun hy hz k a b => ?_
      have out : ∀ {y}, y ∈ L.queue m → y ∉ L.queue l := fun hy c => e (h.oneQueue _ _ _ hy c)
      unfold Before; rw [hkey, hkey]
      exact k (fun c => a ⟨c, out hy⟩) fun c => b ⟨c, out hz⟩
  · rw [hkey, hkey]; exact h.sequence m m' y z (hon hy) (hon hz) hyz
  · rw [hkey, hn]; exact h.counter m y (hon hy)

/-- The transfers that stand somewhere get new sequences in the order of their old ones. -/
theorem Ordered.reseq (h : L.Ordered home loose) (hq : ∀ l, L'.queue l = L.queue l) (hs : ∀ l, L'.sending l = L.sending l)
    (hst : ∀ x k, L.stand x = some k → ∃ k', L'.stand x = some k' ∧ k'.standing = k.standing ∧ k'.line = k.line ∧
      k'.key.urgent = k.key.urgent ∧ k'.key.l = k.key.l)
    (hseq : ∀ l m x y, L.On l x → L.On m y → (L.key x).seq < (L.key y).seq → (L'.key x).seq < (L'.key y).seq)
    (hn : ∀ l x, L.On l x → (L'.key x).seq < L'.next) : L'.Ordered home loose := by
  have hon : ∀ {l y}, L'.On l y → L.On l y := fun {l y} o => by unfold On at o ⊢; rwa [hq, hs] at o
  have hkey : ∀ {l y}, L.On l y → (L'.key y).urgent = (L.key y).urgent ∧ (L'.key y).l = (L.key y).l := by
    intro l y o
    have : ∃ k, L.stand y = some k := o.elim (fun o => (h.waits l y o).imp fun _ p => p.1) fun o => (h.sends l y o).imp fun _ p => p.1
    obtain ⟨k, hk⟩ := this
    obtain ⟨k', hk', _, _, a, b⟩ := hst y k hk
    rw [key_of_stand hk, key_of_stand hk']
    exact ⟨a, b⟩
  refine ⟨fun l y hy => ?_, fun l y hy => ?_, fun l => hq l ▸ h.nodup l, fun l m y hy hy' => ?_, fun l m y hy hy' => ?_,
    fun l => ?_, fun l m y z hy hz hyz => ?_, fun l y hy => hn l y (hon hy)⟩
  · rw [hq] at hy
    obtain ⟨k, hk, a, b⟩ := h.waits l y hy
    obtain ⟨k', hk', c, d, _⟩ := hst y k hk
    exact ⟨k', hk', c.trans a, d ▸ b⟩
  · rw [hs] at hy
    obtain ⟨k, hk, a, b⟩ := h.sends l y hy
    obtain ⟨k', hk', c, d, _⟩ := hst y k hk
    exact ⟨k', hk', c.trans a, d ▸ b⟩
  · rw [hq] at hy hy'; exact h.oneQueue l m y hy hy'
  · rw [hs] at hy hy'; exact h.oneSending l m y hy hy'
  · rw [hq]
    refine (h.order l).imp_of_mem fun {y z} hy hz k a b => ?_
    have hb := k a b
    unfold Before at hb ⊢
    rw [QueueKey.before_iff] at hb ⊢
    obtain ⟨uy, ly⟩ := hkey (.inl hy)
    obtain ⟨uz, lz⟩ := hkey (.inl hz)
    rw [uy, uz, ly, lz]
    exact hb.imp id fun p => ⟨p.1, p.2.imp id fun q => ⟨q.1, hseq l l y z (.inl hy) (.inl hz) q.2⟩⟩
  · rcases Nat.lt_or_gt_of_ne (h.sequence l m y z (hon hy) (hon hz) hyz) with k | k
    · exact (hseq l m y z (hon hy) (hon hz) k).ne
    · exact (hseq m l z y (hon hz) (hon hy) k).ne'

end Layout

end Sys2Proof.Machine
end

section
/-! What is kept of the queues and the pool by the scheduler's operations: joining, leaving, moving, picking, stopping, renumbering
(R69, R74 to R78, R87). -/

namespace Sys2Proof.Machine

variable {b s t u : State} {home : LinkId → LineId → Prop} {loose : Xfer → Prop}

/-! ### The pool -/

/-- The clauses of QueuesSound on the pool, the page table and the lines, with the order of the tables. -/
structure PoolOk (recs : Table RecView) (pages : Table (List Nat)) (free : List Nat) (line : LineId → LineView) : Prop where
  recsRise : Table.rising recs = true
  pagesRise : Table.rising pages = true
  free : free.Nodup ∧ ∀ n ∈ free, Table.get recs n = none
  dests : ∀ e ∈ pages, e.2.Nodup ∧ ∀ n ∈ e.2, ∃ v, Table.get recs n = some v ∧ v.parent = e.1
  lives : ∀ i v, Table.get recs i = some v → v.state.isFinal = false → (line v.line).enabled = true
  slots : ∀ n, (line n).slot ≠ none → (line n).enabled = true

def State.Pooled (s : State) : Prop := PoolOk (recViews s) (pageViews s) s.free fun n => (s.line n).view

/-- Changes of records that keep their line and page, and bring none back that has ended. -/
theorem PoolOk.restate {recs recs' : Table RecView} {pages : Table (List Nat)} {free : List Nat} {line : LineId → LineView}
    (h : PoolOk recs pages free line) (hk : Table.keys recs' = Table.keys recs)
    (hback : ∀ i v', Table.get recs' i = some v' → ∃ v, Table.get recs i = some v ∧ v'.line = v.line ∧
      (v'.state.isFinal = false → v.state.isFinal = false))
    (hforth : ∀ i v, Table.get recs i = some v → ∃ v', Table.get recs' i = some v' ∧ v'.parent = v.parent) :
    PoolOk recs' pages free line where
  recsRise := by rw [Table.rising_iff, hk, ← Table.rising_iff]; exact h.recsRise
  pagesRise := h.pagesRise
  free := by
    refine ⟨h.free.1, fun n hn => ?_⟩
    by_contra hc
    obtain ⟨v', hv'⟩ := Option.ne_none_iff_exists'.1 hc
    obtain ⟨v, hv, _⟩ := hback n v' hv'
    rw [h.free.2 n hn] at hv
    cases hv
  dests e he := by
    refine ⟨(h.dests e he).1, fun n hn => ?_⟩
    obtain ⟨v, hv, hp⟩ := (h.dests e he).2 n hn
    obtain ⟨v', hv', hp'⟩ := hforth n v hv
    exact ⟨v', hv', hp'.trans hp⟩
  lives i v' hv' hf := by
    obtain ⟨v, hv, hl, hfin⟩ := hback i v' hv'
    rw [hl]
    exact h.lives i v hv (hfin hf)
  slots := h.slots

/-- Changes of lines that keep which are enabled, and load a slot at an enabled line alone. -/
theorem PoolOk.reline {recs : Table RecView} {pages : Table (List Nat)} {free : List Nat} {line line' : LineId → LineView}
    (h : PoolOk recs pages free line) (he : ∀ n, (line' n).enabled = (line n).enabled)
    (hs : ∀ n, (line' n).slot ≠ none → (line n).slot ≠ none ∨ (line n).enabled = true) : PoolOk recs pages free line' where
  recsRise := h.recsRise
  pagesRise := h.pagesRise
  free := h.free
  dests := h.dests
  lives i v hv hf := (he _).trans (h.lives i v hv hf)
  slots n hn := (he n).trans ((hs n hn).elim (h.slots n) id)

/-! ### Kept states -/

/-- The link a line is routed on is the one its transfers may stand on. -/
def State.routes (s : State) : LinkId → LineId → Prop := fun l n => s.linkOf n = l

/-- The queues and the pool are in order but for loose transfers. -/
structure State.Laid (home : LinkId → LineId → Prop) (loose : Xfer → Prop) (s : State) : Prop where
  ordered : s.layout.Ordered home loose
  pool : s.Pooled

/-- The queues and the pool are in order. -/
abbrev State.Kept (s : State) : Prop := s.Laid s.routes fun _ => False

/-- What an event but a firing keeps: the deadline list makes nothing due, and the queues and the pool stay in order. -/
structure Keeps (s t : State) : Prop extends Dues s t where
  kept : s.Kept → t.Kept

theorem Keeps.refl (s : State) : Keeps s s := ⟨.refl s, id⟩

theorem Keeps.trans (h : Keeps s t) (k : Keeps t u) : Keeps s u := ⟨h.toDues.trans k.toDues, k.kept ∘ h.kept⟩

/-! ### Light changes -/

theorem stand_of_views (hr : ∀ i, (t.rec? i).map DestRec.view = (s.rec? i).map DestRec.view)
    (hl : ∀ n, (t.line n).view = (s.line n).view) : t.stand = s.stand := by
  funext x
  cases x with
  | dest i =>
    have e : ∀ s : State, s.stand (.dest i) = ((s.rec? i).map DestRec.view).map RecView.stand := fun s => by
      rw [Option.map_map]; rfl
    rw [e, e, hr]
  | slot n =>
    have e : ∀ s : State, s.stand (.slot n) = (s.line n).view.slot.map (SlotView.stand n) := fun s => by
      unfold Line.view; rw [Option.map_map]; rfl
    rw [e, e, hl]

theorem Light.layout (h : Light s t) : t.layout = s.layout := by
  unfold State.layout
  rw [stand_of_views h.rec? h.lines, h.seqNext]
  simp only [fun l => (h.links l).1, fun l => (h.links l).2]

theorem Light.linkOf (h : Light s t) (n : LineId) : t.linkOf n = s.linkOf n := congrArg LineView.link (h.lines n)

theorem Light.routes (h : Light s t) : t.routes = s.routes := by
  unfold State.routes
  simp only [h.linkOf]

theorem Light.pooled (h : Light s t) (k : s.Pooled) : t.Pooled := by
  unfold State.Pooled at k ⊢
  rw [h.recs, h.pages, h.free]
  simpa only [h.lines] using k

theorem Light.laid (h : Light s t) (k : s.Laid home loose) : t.Laid home loose := ⟨h.layout ▸ k.ordered, h.pooled k.pool⟩

theorem Light.kept (h : Light s t) (k : s.Kept) : t.Kept := by
  have := h.laid k
  rwa [← h.routes] at this

/-- A light change after one that keeps the queues. -/
theorem Light.keeps (k : Light s t) (h : Keeps b s) : Keeps b t := h.trans ⟨k.toDues, k.kept⟩

/-- A still change after one that keeps the queues. -/
theorem Still.keeps (k : Still s t) (h : Keeps b s) : Keeps b t := k.light.keeps h

theorem ite_keeps {p : Prop} [Decidable p] (ht : p → Keeps b t) (hu : ¬ p → Keeps b u) : Keeps b (if p then t else u) := by
  split
  · next h => exact ht h
  · next h => exact hu h

theorem foldl_keeps {α : Type} (f : State → α → State) (hf : ∀ (s : State) (a : α), Keeps b s → Keeps b (f s a)) (xs : List α)
    (h : Keeps b s) : Keeps b (xs.foldl f s) := by
  induction xs generalizing s with
  | nil => exact h
  | cons x xs ih => exact ih (hf s x h)

/-! ### The deadline list -/

theorem modLink_dues (l : LinkId) (f : Link → Link) (h : Dues b s) : Dues b (s.modLink l f) :=
  h.trans ⟨rfl, List.Sublist.refl _, fun _ p => p⟩

theorem modLine_dues (n : LineId) (f : Line → Line) (h : Dues b s) : Dues b (s.modLine n f) :=
  h.trans ⟨rfl, List.Sublist.refl _, fun _ p => p⟩

theorem modSlot_dues (n : LineId) (f : Slot → Slot) (h : Dues b s) : Dues b (s.modSlot n f) := modLine_dues n _ h

theorem setSeqNext_dues (n : Nat) (h : Dues b s) : Dues b (s.setSeq n) :=
  h.trans ⟨rfl, List.Sublist.refl _, fun _ p => p⟩

theorem rec_modRec (s : State) (n i : Nat) (f : DestRec → DestRec) :
    (s.modRec n f).rec? i = if i = n then (s.rec? n).map f else s.rec? i :=
  Table.get_modify s.recs n i f

theorem modRec_dues (n : Nat) (f : DestRec → DestRec) (hf : ∀ r, (f r).isFallback = r.isFallback) (h : Dues b s) :
    Dues b (s.modRec n f) := by
  refine h.trans ⟨rfl, List.Sublist.refl _, fun i p => ?_⟩
  obtain ⟨r, hr, hp⟩ := p
  rw [rec_modRec] at hr
  split at hr
  · next e =>
    subst e
    obtain ⟨q, hq, rfl⟩ := Option.map_eq_some_iff.1 hr
    exact ⟨q, hq, (hf q).symm.trans hp⟩
  · exact ⟨r, hr, hp⟩

theorem setSeq_dues (x : Xfer) (q : Nat) (h : Dues b s) : Dues b (setSeq x q s) := by
  cases x with
  | dest n => exact modRec_dues n _ (fun _ => rfl) h
  | slot n => exact modSlot_dues n _ h

theorem renumberFrom_dues (xs : List Xfer) (q : Nat) (h : Dues b s) : Dues b (renumberFrom q xs s) := by
  induction xs generalizing q s with
  | nil => exact h
  | cons x xs ih => exact ih _ (setSeq_dues _ _ h)

theorem roomForSeq_dues (h : Dues b s) : Dues b (roomForSeq s) := by
  unfold roomForSeq renumber
  split
  · exact setSeqNext_dues _ (renumberFrom_dues _ _ h)
  · exact h

theorem joinQueue_dues (l : LinkId) (x : Xfer) (h : Dues b s) : Dues b (joinQueue l x s) := by
  unfold joinQueue
  dsimp only
  refine Dues.trans ?_ (schedMirror_still l (.refl _)).light.toDues
  split
  · exact (modLink_dues l _ (setSeqNext_dues _ (setSeq_dues _ _ (roomForSeq_dues h)))).trans
      (bumpCounter_still _ (.refl _)).light.toDues
  · exact modLink_dues l _ (setSeqNext_dues _ (setSeq_dues _ _ (roomForSeq_dues h)))

/-! ### A record or slot that stands nowhere changes -/

/-- The record numbers keep what they stand for. -/
structure RecKeeps (f : DestRec → DestRec) : Prop where
  line : ∀ r, (f r).line = r.line
  parent : ∀ r, (f r).parent = r.parent
  isFallback : ∀ r, (f r).isFallback = r.isFallback

theorem stand_modRec_ne {n : Nat} {f : DestRec → DestRec} {y : Xfer} (h : y ≠ .dest n) :
    (s.modRec n f).layout.stand y = s.layout.stand y := by
  cases y with
  | dest i =>
    have : i ≠ n := fun e => h (e ▸ rfl)
    show ((s.modRec n f).rec? i).map _ = _
    rw [rec_modRec, if_neg this]; rfl
  | slot m => rfl

theorem stand_dest {i : Nat} {r : DestRec} (h : s.rec? i = some r) : s.layout.stand (.dest i) = some r.view.stand := by
  show (s.rec? i).map _ = _
  rw [h]; rfl

theorem modRec_pooled {n : Nat} {f : DestRec → DestRec} (hf : RecKeeps f)
    (hl : ∀ r, s.rec? n = some r → (f r).state.isFinal = false → r.state.isFinal = false) (h : s.Pooled) :
    (s.modRec n f).Pooled := by
  refine PoolOk.restate h ?_ (fun i v' hv' => ?_) fun i v hv => ?_
  · rw [keys_recViews, keys_recViews]; exact Table.keys_modify _ _ _
  · rw [get_recViews, rec_modRec] at hv'
    rw [get_recViews]
    split at hv'
    · next e =>
      subst e
      obtain ⟨r', hr', rfl⟩ := Option.map_eq_some_iff.1 hv'
      obtain ⟨r, hr, rfl⟩ := Option.map_eq_some_iff.1 hr'
      exact ⟨r.view, by rw [hr]; rfl, hf.line r, hl r hr⟩
    · exact ⟨v', hv', rfl, id⟩
  · rw [get_recViews] at hv
    obtain ⟨r, hr, rfl⟩ := Option.map_eq_some_iff.1 hv
    rw [get_recViews, rec_modRec]
    split
    · next e =>
      subst e
      rw [hr]
      exact ⟨(f r).view, rfl, hf.parent r⟩
    · rw [hr]
      exact ⟨r.view, rfl, rfl⟩

theorem modRec_laid {n : Nat} {f : DestRec → DestRec} (hf : RecKeeps f) (hi : s.layout.Idle (.dest n))
    (hl : ∀ r, s.rec? n = some r → (f r).state.isFinal = false → r.state.isFinal = false) (h : s.Laid home loose) :
    (s.modRec n f).Laid home loose :=
  ⟨h.ordered.restand hi (fun _ => rfl) (fun _ => rfl) rfl fun _ hy => stand_modRec_ne hy, modRec_pooled hf hl h.pool⟩

/-- A change of a record that stands nowhere and does not come back from a final state. -/
theorem modRec_keeps (n : Nat) (f : DestRec → DestRec) (hf : RecKeeps f)
    (hi : b.Kept → s.layout.Idle (.dest n) ∧ ∀ r, s.rec? n = some r → (f r).state.isFinal = false → r.state.isFinal = false)
    (h : Keeps b s) : Keeps b (s.modRec n f) :=
  ⟨modRec_dues n f hf.isFallback h.toDues, fun k => modRec_laid hf (hi k).1 (hi k).2 (h.kept k)⟩

theorem stand_modLine_ne {n : LineId} {f : Line → Line} {y : Xfer} (h : y ≠ .slot n) :
    (s.modLine n f).layout.stand y = s.layout.stand y := by
  cases y with
  | dest i => rfl
  | slot m =>
    have : m ≠ n := fun e => h (e ▸ rfl)
    show (((s.modLine n f).line m).slot).map _ = _
    rw [State.line_modLine, if_neg this]; rfl

theorem stand_slot {n : LineId} {sl : Slot} (h : (s.line n).slot = some sl) :
    s.layout.stand (.slot n) = some (sl.view.stand n) := by
  show ((s.line n).slot).map _ = _
  rw [h]; rfl

/-- What a change of a line's slot keeps of the line. -/
structure LineKept (k k' : Line) : Prop where
  enabled : k'.enabled = k.enabled
  link : k'.cfg.link = k.cfg.link
  slot : k'.slot ≠ none → k.slot ≠ none ∨ k.enabled = true

theorem modLine_routes {n : LineId} {f : Line → Line} (hf : (f (s.line n)).cfg.link = (s.line n).cfg.link) :
    (s.modLine n f).routes = s.routes := by
  funext l m
  unfold State.routes State.linkOf
  rw [State.line_modLine]
  split
  · next e => rw [e, hf]
  · rfl

theorem modLine_pooled {n : LineId} {f : Line → Line} (hf : LineKept (s.line n) (f (s.line n))) (h : s.Pooled) :
    (s.modLine n f).Pooled := by
  refine PoolOk.reline h (fun m => ?_) fun m => ?_
  · rw [State.line_modLine]
    split
    · next e => exact e ▸ hf.enabled
    · rfl
  · rw [State.line_modLine]
    split
    · next e =>
      subst e
      simpa [Line.view] using hf.slot
    · exact .inl

theorem modLine_laid {n : LineId} {f : Line → Line} (hf : LineKept (s.line n) (f (s.line n))) (hi : s.layout.Idle (.slot n))
    (h : s.Laid home loose) : (s.modLine n f).Laid home loose :=
  ⟨h.ordered.restand hi (fun _ => rfl) (fun _ => rfl) rfl fun _ hy => stand_modLine_ne hy, modLine_pooled hf h.pool⟩

/-- A change of a slot that stands nowhere. -/
theorem modLine_keeps (n : LineId) (f : Line → Line) (hi : b.Kept → s.layout.Idle (.slot n) ∧ LineKept (s.line n) (f (s.line n)))
    (h : Keeps b s) : Keeps b (s.modLine n f) := by
  refine ⟨modLine_dues n f h.toDues, fun k => ?_⟩
  have := modLine_laid (hi k).2 (hi k).1 (h.kept k)
  rwa [← modLine_routes (hi k).2.link] at this

/-! ### Sequences (R75) -/

def QueueKey.withSeq (k : QueueKey) (q : Nat) : QueueKey := { k with seq := q }

def Stand.withSeq (k : Stand) (q : Nat) : Stand := { k with key := k.key.withSeq q }

theorem stand_setSeq (x y : Xfer) (q : Nat) (s : State) :
    (setSeq x q s).layout.stand y = if y = x then (s.layout.stand x).map (Stand.withSeq · q) else s.layout.stand y := by
  by_cases e : y = x
  · subst e
    rw [if_pos rfl]
    cases y with
    | dest i =>
      show ((s.modRec i _).rec? i).map _ = ((s.rec? i).map _).map _
      rw [rec_modRec, if_pos rfl]
      cases s.rec? i <;> rfl
    | slot n =>
      show ((s.modLine n _).line n).slot.map _ = ((s.line n).slot.map _).map _
      rw [State.line_modLine_self]
      dsimp only
      cases (s.line n).slot <;> rfl
  · rw [if_neg e]
    cases x with
    | dest i => exact stand_modRec_ne e
    | slot n => exact stand_modLine_ne e

/-- What setting a sequence leaves alone. -/
theorem setSeq_frame (x : Xfer) (q : Nat) (s : State) :
    (∀ l, (setSeq x q s).link l = s.link l) ∧ (setSeq x q s).seqNext = s.seqNext ∧ (setSeq x q s).routes = s.routes ∧
      (s.Pooled → (setSeq x q s).Pooled) := by
  cases x with
  | dest i => exact ⟨fun _ => rfl, rfl, rfl, modRec_pooled ⟨fun _ => rfl, fun _ => rfl, fun _ => rfl⟩ fun _ _ h => h⟩
  | slot n =>
    refine ⟨fun _ => rfl, rfl, modLine_routes rfl, modLine_pooled ⟨rfl, rfl, fun h => .inl fun e => h ?_⟩⟩
    simp [e]

theorem renumberFrom_frame (xs : List Xfer) (q : Nat) (s : State) :
    (∀ l, (renumberFrom q xs s).link l = s.link l) ∧ (renumberFrom q xs s).routes = s.routes ∧
      (s.Pooled → (renumberFrom q xs s).Pooled) := by
  induction xs generalizing q s with
  | nil => exact ⟨fun _ => rfl, rfl, id⟩
  | cons x xs ih =>
    obtain ⟨h1, _, h3, h4⟩ := setSeq_frame x q s
    obtain ⟨k1, k3, k4⟩ := ih (q + 1) (setSeq x q s)
    exact ⟨fun l => (k1 l).trans (h1 l), k3.trans h3, k4 ∘ h4⟩

theorem renumberFrom_stand_not_mem (xs : List Xfer) (q : Nat) (s : State) {y : Xfer} (hy : y ∉ xs) :
    (renumberFrom q xs s).layout.stand y = s.layout.stand y := by
  induction xs generalizing q s with
  | nil => rfl
  | cons x xs ih =>
    rw [List.mem_cons, not_or] at hy
    refine (ih (q + 1) (setSeq x q s) hy.2).trans ?_
    rw [stand_setSeq, if_neg hy.1]

/-- The transfer at place `k` of the list gets the sequence `q + k`. -/
theorem renumberFrom_stand_getElem (xs : List Xfer) (q : Nat) (s : State) (hn : xs.Nodup) (k : Nat) (hk : k < xs.length) :
    (renumberFrom q xs s).layout.stand xs[k] = (s.layout.stand xs[k]).map (Stand.withSeq · (q + k)) := by
  induction xs generalizing q s k with
  | nil => cases hk
  | cons x xs ih =>
    rw [List.nodup_cons] at hn
    cases k with
    | zero =>
      show (renumberFrom (q + 1) xs (setSeq x q s)).layout.stand x = _
      rw [renumberFrom_stand_not_mem _ _ _ hn.1, stand_setSeq, if_pos rfl]
      rfl
    | succ k =>
      have hk : k < xs.length := by simpa using hk
      show (renumberFrom (q + 1) xs (setSeq x q s)).layout.stand xs[k] = (s.layout.stand xs[k]).map _
      rw [ih (q + 1) (setSeq x q s) hn.2 k hk, stand_setSeq,
        if_neg fun e : xs[k] = x => hn.1 (e ▸ List.getElem_mem hk), show q + 1 + k = q + (k + 1) by omega]

/-- Every transfer that stands somewhere, each once, with rising sequences. -/
theorem sequenced_spec (h : s.layout.Ordered home loose) :
    (∀ x, x ∈ sequenced s ↔ ∃ l, s.layout.On l x) ∧ (sequenced s).Nodup ∧ (sequenced s).Pairwise (SeqBefore s) := by
  have hmem : ∀ x, x ∈ allLinks.flatMap (fun l => (s.link l).sending.toList ++ (s.link l).queue) ↔ ∃ l, s.layout.On l x := by
    intro x
    simp only [List.mem_flatMap, List.mem_append, Option.mem_toList, allLinks, List.mem_finRange, true_and]
    exact exists_congr fun l => or_comm
  have hnodup : (allLinks.flatMap fun l => (s.link l).sending.toList ++ (s.link l).queue).Nodup := by
    rw [List.nodup_flatMap]
    refine ⟨fun l _ => ?_, ?_⟩
    · rw [List.nodup_append]
      refine ⟨?_, h.nodup l, fun x hx y hy e => ?_⟩
      · cases (s.link l).sending <;> simp
      · subst e
        exact h.not_sending (m := l) hy (Option.mem_toList.1 hx)
    · refine (List.nodup_finRange 4).imp fun {l m} hlm x hx hy => hlm ?_
      simp only [List.mem_append, Option.mem_toList] at hx hy
      rcases hx with hx | hx <;> rcases hy with hy | hy
      · exact h.oneSending l m x hx hy
      · exact absurd hx (h.not_sending (m := l) hy)
      · exact absurd hy (h.not_sending (m := m) hx)
      · exact h.oneQueue l m x hx hy
  have hseq : ∀ x ∈ allLinks.flatMap (fun l => (s.link l).sending.toList ++ (s.link l).queue),
      ∀ y ∈ allLinks.flatMap (fun l => (s.link l).sending.toList ++ (s.link l).queue), x ≠ y →
        (xferKey s x).seq ≠ (xferKey s y).seq := by
    intro x hx y hy hxy
    obtain ⟨l, hl⟩ := (hmem x).1 hx
    obtain ⟨m, hm⟩ := (hmem y).1 hy
    rw [xferKey_eq, xferKey_eq]
    exact h.sequence l m x y hl hm hxy
  obtain ⟨hp, ho⟩ := foldl_insertBySeq_spec hnodup hseq
  exact ⟨fun x => hp.mem_iff.trans (hmem x), hp.nodup_iff.2 hnodup, ho⟩

theorem Layout.Ordered.stand_of_on {L : Layout} (h : L.Ordered home loose) {l : LinkId} {x : Xfer} (o : L.On l x) :
    ∃ k, L.stand x = some k :=
  o.elim (fun o => (h.waits l x o).imp fun _ p => p.1) fun o => (h.sends l x o).imp fun _ p => p.1

theorem renumber_laid (h : s.Laid home loose) : (renumber s).Laid home loose := by
  obtain ⟨hmem, hn, hsorted⟩ := sequenced_spec h.ordered
  obtain ⟨hlink, -, hpool⟩ := renumberFrom_frame (sequenced s) 0 s
  have hstand : ∀ x, (renumber s).layout.stand x = (renumberFrom 0 (sequenced s) s).layout.stand x := fun _ => rfl
  have place : ∀ {l x}, s.layout.On l x → ∃ (k : Nat) (hk : k < (sequenced s).length), (sequenced s)[k] = x ∧
      ((renumber s).layout.key x).seq = k := by
    intro l x o
    obtain ⟨k, hk, e⟩ := List.getElem_of_mem ((hmem x).2 ⟨l, o⟩)
    refine ⟨k, hk, e, ?_⟩
    obtain ⟨st, hst⟩ := h.ordered.stand_of_on o
    have := renumberFrom_stand_getElem (sequenced s) 0 s hn k hk
    rw [e, hst, Nat.zero_add] at this
    rw [Layout.key_of_stand ((hstand x).trans this)]
    rfl
  refine ⟨h.ordered.reseq (fun l => congrArg Link.queue (hlink l)) (fun l => congrArg Link.sending (hlink l)) ?_ ?_ ?_, hpool h.pool⟩
  · intro x k hk
    rw [hstand]
    by_cases hx : x ∈ sequenced s
    · obtain ⟨j, hj, rfl⟩ := List.getElem_of_mem hx
      rw [renumberFrom_stand_getElem _ _ _ hn, hk]
      exact ⟨_, rfl, rfl, rfl, rfl, rfl⟩
    · rw [renumberFrom_stand_not_mem _ _ _ hx]
      exact ⟨k, hk, rfl, rfl, rfl, rfl⟩
  · intro l m x y hx hy hxy
    obtain ⟨i, hi, rfl, ei⟩ := place hx
    obtain ⟨j, hj, rfl, ej⟩ := place hy
    rw [ei, ej]
    by_contra hji
    rcases Nat.lt_or_eq_of_le (Nat.le_of_not_lt hji) with hlt | heq
    · have := List.pairwise_iff_getElem.1 hsorted j i hj hi hlt
      unfold SeqBefore at this
      rw [xferKey_eq, xferKey_eq] at this
      omega
    · subst heq; omega
  · intro l x hx
    obtain ⟨i, hi, _, ei⟩ := place hx
    rw [ei]
    exact hi

/-- What making room for a sequence keeps: all but the sequences of the transfers that stand somewhere. -/
structure SeqsMoved (s t : State) : Prop where
  link : ∀ l, t.link l = s.link l
  routes : t.routes = s.routes
  stand : ∀ x, s.layout.Idle x → t.layout.stand x = s.layout.stand x

theorem roomForSeq_laid (h : s.Laid home loose) : (roomForSeq s).Laid home loose ∧ SeqsMoved s (roomForSeq s) := by
  unfold roomForSeq
  split
  · obtain ⟨hlink, hhome, -⟩ := renumberFrom_frame (sequenced s) 0 s
    refine ⟨renumber_laid h, hlink, hhome, fun x hx => renumberFrom_stand_not_mem _ _ _ fun c => ?_⟩
    obtain ⟨l, hl⟩ := ((sequenced_spec h.ordered).1 x).1 c
    exact hx.not_on l hl
  · exact ⟨h, fun _ => rfl, rfl, fun _ _ => rfl⟩

/-! ### Joining, leaving and moving (R74 to R76) -/

theorem modLink_pooled (l : LinkId) (f : Link → Link) (h : s.Pooled) : (s.modLink l f).Pooled := h

theorem modLink_routes (l : LinkId) (f : Link → Link) : (s.modLink l f).routes = s.routes := rfl

theorem modLink_stand (l : LinkId) (f : Link → Link) (x : Xfer) : (s.modLink l f).layout.stand x = s.layout.stand x := by
  cases x <;> rfl

/-- A change of a link changes no transfer's keys. -/
theorem before_modLink (l : LinkId) (f : Link → Link) : (s.modLink l f).layout.Before = SortsBefore s := by
  funext y z
  unfold SortsBefore Layout.Before
  rw [xferKey_eq, xferKey_eq, Layout.key_congr (modLink_stand l f y), Layout.key_congr (modLink_stand l f z)]

theorem layout_before (s : State) : s.layout.Before = SortsBefore s := by
  funext y z
  unfold SortsBefore Layout.Before
  rw [xferKey_eq, xferKey_eq]

theorem joinQueue_light (l : LinkId) (x : Xfer) (s : State) :
    let s1 := (setSeq x (roomForSeq s).seqNext (roomForSeq s)).setSeq ((roomForSeq s).seqNext + 1)
    Light (s1.modLink l fun k => { k with queue := insertByKey s1 x k.queue }) (joinQueue l x s) := by
  unfold joinQueue
  dsimp only
  split
  · exact (schedMirror_still l (bumpCounter_still _ (.refl _))).light
  · exact (schedMirror_still l (.refl _)).light

/-- A QUEUED transfer that stands nowhere joins a queue of its line's link. -/
theorem joinQueue_laid {l : LinkId} {x : Xfer} (hi : s.layout.Idle x) (hloose : ∀ y ∈ (s.link l).queue, ¬ loose y)
    (hk : ∃ k, s.layout.stand x = some k ∧ k.standing = .queued ∧ home l k.line) (h : s.Laid home loose) :
    (joinQueue l x s).Laid home loose ∧ (joinQueue l x s).routes = s.routes := by
  obtain ⟨h0, hm⟩ := roomForSeq_laid h
  generalize hr : roomForSeq s = r at h0 hm
  have hlight := joinQueue_light l x s
  rw [hr] at hlight
  obtain ⟨f1, f2, f3, f4⟩ := setSeq_frame x r.seqNext r
  obtain ⟨k, hk, hq, hh⟩ := hk
  have hir : r.layout.Idle x := fun m => by
    have := hi m
    show x ∉ (r.link m).queue ∧ (r.link m).sending ≠ some x
    rwa [hm.link m]
  refine ⟨hlight.laid ⟨h0.ordered.join (l := l) hir (fun y hy => hloose y ?_) (fun y hy => ?_) ?_ (fun m => ?_) rfl
    (fun m hml => ?_) ?_ ?_, f4 h0.pool⟩, ?_⟩
  · rw [← hm.link l]; exact hy
  · exact (modLink_stand _ _ _).trans ((stand_setSeq x y _ r).trans (if_neg hy))
  · refine ⟨k.withSeq r.seqNext, (modLink_stand _ _ _).trans ((stand_setSeq x x _ r).trans ?_), hq, hh, rfl⟩
    rw [if_pos rfl, hm.stand x hi, hk]
    rfl
  · show ((State.modLink _ l _).link m).sending = (r.link m).sending
    rw [State.link_modLink]
    split
    · next e =>
      have hs := congrArg Link.sending (f1 l)
      exact e ▸ hs
    · exact congrArg Link.sending (f1 m)
  · show ((State.modLink _ l _).link m).queue = (r.link m).queue
    rw [State.link_modLink, if_neg hml]
    exact congrArg Link.queue (f1 m)
  · show ((State.modLink _ l _).link l).queue.Perm (x :: (r.link l).queue)
    rw [State.link_modLink_self]
    refine (insertByKey_perm _ _ _).trans ?_
    rw [show ((setSeq x r.seqNext r).setSeq (r.seqNext + 1)).link l = r.link l from f1 l]
  · intro ho
    show ((State.modLink _ l _).link l).queue.Pairwise _
    rw [State.link_modLink_self]
    have e : ((setSeq x r.seqNext r).setSeq (r.seqNext + 1)).link l = r.link l := f1 l
    rw [before_modLink] at ho ⊢
    rw [e]
    refine insertByKey_pairwise (fun y hy => ?_) ho
    have hyx : y ≠ x := fun c => (hir l).1 (c ▸ hy)
    rw [xferKey_eq, xferKey_eq]
    have hx' : ((setSeq x r.seqNext r).setSeq (r.seqNext + 1)).layout.stand x = some (k.withSeq r.seqNext) := by
      refine (stand_setSeq x x _ r).trans ?_
      rw [if_pos rfl, hm.stand x hi, hk]
      rfl
    have hy' : ((setSeq x r.seqNext r).setSeq (r.seqNext + 1)).layout.key y = r.layout.key y :=
      Layout.key_congr ((stand_setSeq x y _ r).trans (if_neg hyx))
    rw [Layout.key_of_stand hx', hy']
    exact (h0.ordered.counter l y (.inl hy)).ne'
  · rw [hlight.routes, modLink_routes]
    exact f3.trans hm.routes

theorem joinQueue_keeps (l : LinkId) (x : Xfer)
    (hp : b.Kept → s.layout.Idle x ∧ ∃ k, s.layout.stand x = some k ∧ k.standing = .queued ∧ s.routes l k.line)
    (h : Keeps b s) : Keeps b (joinQueue l x s) := by
  refine ⟨joinQueue_dues l x h.toDues, fun k => ?_⟩
  have := joinQueue_laid (hp k).1 (fun _ _ => id) (hp k).2 (h.kept k)
  rw [State.Kept, this.2]
  exact this.1

/-- A change of the queue and the SENDING slot of one link. -/
theorem layout_modLink (l : LinkId) (f : Link → Link) (s : State) :
    (s.modLink l f).layout =
      ⟨fun m => if m = l then (f (s.link l)).queue else (s.link m).queue,
        fun m => if m = l then (f (s.link l)).sending else (s.link m).sending, s.layout.stand, s.seqNext⟩ := by
  have hst : (s.modLink l f).stand = s.stand := by funext x; cases x <;> rfl
  unfold State.layout
  simp only [State.link_modLink, apply_ite Link.queue, apply_ite Link.sending, hst]
  rfl

theorem leaveQueue_light (l : LinkId) (x : Xfer) (s : State) :
    Light (s.modLink l fun k => { k with queue := k.queue.filter fun y => y != x }) (leaveQueue l x s) := by
  unfold leaveQueue
  split
  · exact (schedMirror_still l (.refl _)).light
  · next hx =>
    refine .of_views rfl rfl rfl rfl rfl rfl (fun _ => rfl) fun m => ?_
    rw [State.link_modLink]
    split
    · next e =>
      subst e
      refine ⟨(List.filter_eq_self.2 fun y hy => ?_).symm, rfl⟩
      simp only [bne_iff_ne]
      rintro rfl
      exact hx hy
    · exact ⟨rfl, rfl⟩

theorem leaveQueue_laid (l : LinkId) (x : Xfer) (h : s.Laid home loose) : (leaveQueue l x s).Laid home loose := by
  refine (leaveQueue_light l x s).laid ⟨h.ordered.shrink (fun m => ?_) (fun m y hy => ?_) rfl fun _ => modLink_stand _ _ _, h.pool⟩
  · rw [layout_modLink]
    dsimp only
    split
    · next e => exact e ▸ List.filter_sublist
    · exact List.Sublist.refl _
  · rw [layout_modLink] at hy
    dsimp only at hy
    split at hy
    · next e => exact e ▸ hy
    · exact hy

/-- A transfer that has left a queue is not in it, and no other queue or SENDING slot has changed. -/
theorem leaveQueue_layout (l : LinkId) (x : Xfer) (s : State) : (leaveQueue l x s).layout =
    ⟨fun m => if m = l then (s.link l).queue.filter (fun y => y != x) else (s.link m).queue, s.layout.sending,
      s.layout.stand, s.seqNext⟩ := by
  rw [(leaveQueue_light l x s).layout, layout_modLink]
  congr
  funext m
  split
  · next e => rw [e]; rfl
  · rfl

theorem leaveQueue_routes (l : LinkId) (x : Xfer) (s : State) : (leaveQueue l x s).routes = s.routes :=
  (leaveQueue_light l x s).routes

theorem leaveQueue_keeps (l : LinkId) (x : Xfer) (h : Keeps b s) : Keeps b (leaveQueue l x s) := by
  refine h.trans ⟨(modLink_dues l _ (.refl s)).trans (leaveQueue_light l x s).toDues, fun k => ?_⟩
  rw [State.Kept, leaveQueue_routes]
  exact leaveQueue_laid l x k

/-- A waiting transfer whose keys have changed moves to its place. -/
theorem moveInQueue_laid {l : LinkId} {x : Xfer} (hl : ∀ m, x ∈ (s.link m).queue → m = l) (h : s.Laid home (· = x)) :
    (moveInQueue l x s).Laid home fun _ => False := by
  unfold moveInQueue
  split
  · next hx =>
    refine (schedMirror_still l (.refl _)).light.laid ⟨?_, h.pool⟩
    have hperm : (insertByKey s x ((s.link l).queue.filter fun y => y != x)).Perm (s.link l).queue := by
      refine (insertByKey_perm _ _ _).trans ?_
      have e : (s.link l).queue.erase x = _ := (h.ordered.nodup l).erase_eq_filter x
      exact e ▸ (List.perm_cons_erase hx).symm
    have hnew := h.ordered.reorder (l := l) (L' := (s.modLink l fun k =>
      { k with queue := insertByKey s x (k.queue.filter fun y => y != x) }).layout)
      (fun m => ?_) rfl (fun _ => modLink_stand _ _ _) (fun m hm => ?_) ?_ ?_
    · refine hnew.mono (fun _ _ p => p) ?_
      intro m y hy ⟨e, hn⟩
      subst e
      exact hn hx
    · show ((s.modLink l _).link m).sending = (s.link m).sending
      rw [State.link_modLink]; split
      · next e => rw [e]
      · rfl
    · show ((s.modLink l _).link m).queue = (s.link m).queue
      rw [State.link_modLink, if_neg hm]
    · show ((s.modLink l _).link l).queue.Perm _
      rw [State.link_modLink_self]
      exact hperm
    · show ((s.modLink l _).link l).queue.Pairwise _
      rw [State.link_modLink_self]
      rw [layout_before]
      refine insertByKey_pairwise (fun y hy => ?_) ?_
      · rw [List.mem_filter] at hy
        rw [xferKey_eq, xferKey_eq]
        exact h.ordered.sequence l l x y (.inl hx) (.inl hy.1) (fun e => by simp [e] at hy)
      · refine ((h.ordered.order l).sublist List.filter_sublist).imp_of_mem fun {y z} hy hz k => layout_before s ▸ k ?_ ?_
        · simpa using (List.mem_filter.1 hy).2
        · simpa using (List.mem_filter.1 hz).2
  · next hx =>
    refine ⟨h.ordered.mono (fun _ _ p => p) fun m y hy e => hx ?_, h.pool⟩
    subst e
    exact hl m hy ▸ hy

/-! ### Rekeying a transfer -/

/-- A change of the urgency or the L of a record. -/
structure Rekeys (f : DestRec → DestRec) : Prop extends RecKeeps f where
  state : ∀ r, (f r).state = r.state
  seq : ∀ r, (f r).seq = r.seq

theorem modRec_rekey {n : Nat} {f : DestRec → DestRec} (hf : Rekeys f) (h : s.Laid home loose) :
    (s.modRec n f).Laid home fun y => y = .dest n ∨ loose y := by
  refine ⟨h.ordered.rekey (fun _ => rfl) (fun _ => rfl) rfl (fun _ hy => stand_modRec_ne hy) fun k hk => ?_,
    modRec_pooled hf.toRecKeeps (fun r _ => (hf.state r).symm ▸ id) h.pool⟩
  obtain ⟨r, hr, rfl⟩ := Option.map_eq_some_iff.1 (show (s.rec? n).map _ = some k from hk)
  refine ⟨(f r).view.stand, stand_dest (by rw [rec_modRec, if_pos rfl, hr]; rfl), ?_, hf.line r, hf.seq r⟩
  show (f r).state.standing = r.state.standing
  rw [hf.state]

theorem modSlot_rekey {n : LineId} {f : Slot → Slot} (hf : ∀ sl, (f sl).state = sl.state ∧ (f sl).seq = sl.seq)
    (h : s.Laid home loose) : (s.modSlot n f).Laid home fun y => y = .slot n ∨ loose y := by
  refine ⟨h.ordered.rekey (fun _ => rfl) (fun _ => rfl) rfl (fun _ hy => stand_modLine_ne hy) fun k hk => ?_,
    modLine_pooled ⟨rfl, rfl, fun c => .inl fun e => c (by simp [e])⟩ h.pool⟩
  obtain ⟨sl, hsl, rfl⟩ := Option.map_eq_some_iff.1 (show (s.line n).slot.map _ = some k from hk)
  refine ⟨(f sl).view.stand n, stand_slot ?_, ?_, rfl, (hf sl).2⟩
  · rw [State.modSlot, State.line_modLine_self, hsl]; rfl
  · show (f sl).state.standing = sl.state.standing
    rw [(hf sl).1]

theorem modSlot_linkOf (n m : LineId) (f : Slot → Slot) : (s.modSlot n f).linkOf m = s.linkOf m := by
  unfold State.linkOf State.modSlot
  rw [State.line_modLine]
  split
  · next e => rw [e]
  · rfl

theorem modSlot_routes (n : LineId) (f : Slot → Slot) : (s.modSlot n f).routes = s.routes := modLine_routes rfl

theorem updateL_dues (n : Nat) (h : Dues b s) : Dues b (updateL n s) := by
  unfold updateL; split
  · exact h
  · exact modRec_dues _ _ (fun _ => rfl) h

theorem updateL_routes (n : Nat) (s : State) : (updateL n s).routes = s.routes := by unfold updateL; split <;> rfl

theorem updateL_laid (n : Nat) (h : s.Laid home loose) : (updateL n s).Laid home fun y => y = .dest n ∨ loose y := by
  unfold updateL; split
  · exact ⟨h.ordered.mono (fun _ _ p => p) fun _ _ _ p => .inr p, h.pool⟩
  · exact modRec_rekey ⟨⟨fun _ => rfl, fun _ => rfl, fun _ => rfl⟩, fun _ => rfl, fun _ => rfl⟩ h

/-! ### Picks (R77, R78) -/

/-- The transfer's own part of a pick: its record or slot is SENDING from its acked offset on. -/
def markSending (x : Xfer) (s : State) : State :=
  match x with
  | .dest n => s.modRec n fun r => { r with state := .sending, sent := r.acked }
  | .slot n => s.modSlot n fun sl => { sl with state := .sending, sent := sl.acked }

/-- The link's part of a pick. -/
def takePicked (l : LinkId) (x : Xfer) (s : State) : State :=
  s.modLink l fun k => { k with
    queue := k.queue.filter fun y => y != x
    sending := some x
    sendingSlack := slack (xferKey s x).l s.clock.value
    lastCkpt := none
    windowTimer := none
    rewindPending := false
    openOwed := true }

theorem beginSending_still (l : LinkId) (x : Xfer) (s : State) :
    Still (markSending x (takePicked l x s)) (beginSending l x s) := by
  unfold beginSending
  cases x
  · exact schedMirror_still l (writeEntry_still _ (.refl _))
  · exact schedMirror_still l (writeLineMirror_still _ (.refl _))

theorem markSending_stand_ne {x y : Xfer} (h : y ≠ x) (s : State) :
    (markSending x s).layout.stand y = s.layout.stand y := by
  cases x
  · exact stand_modRec_ne h
  · exact stand_modLine_ne h

theorem markSending_link (x : Xfer) (s : State) (l : LinkId) : (markSending x s).link l = s.link l := by cases x <;> rfl

theorem markSending_routes (x : Xfer) (s : State) : (markSending x s).routes = s.routes := by
  cases x
  · rfl
  · exact modSlot_routes _ _

theorem markSending_dues (x : Xfer) (h : Dues b s) : Dues b (markSending x s) := by
  cases x with
  | dest n => exact modRec_dues n _ (fun _ => rfl) h
  | slot n => exact modSlot_dues n _ h

theorem markSending_stand {x : Xfer} {k : Stand} (h : s.layout.stand x = some k) :
    ∃ k', (markSending x s).layout.stand x = some k' ∧ k'.standing = .sending ∧ k'.line = k.line ∧ k'.key = k.key := by
  cases x with
  | dest n =>
    obtain ⟨r, hr, rfl⟩ := Option.map_eq_some_iff.1 (show (s.rec? n).map _ = some k from h)
    have hr' : (markSending (.dest n) s).rec? n = some { r with state := .sending, sent := r.acked } := by
      rw [markSending, rec_modRec, if_pos rfl, hr]; rfl
    exact ⟨_, stand_dest hr', rfl, rfl, rfl⟩
  | slot n =>
    obtain ⟨sl, hsl, rfl⟩ := Option.map_eq_some_iff.1 (show (s.line n).slot.map _ = some k from h)
    have hsl' : ((markSending (.slot n) s).line n).slot = some { sl with state := .sending, sent := sl.acked } := by
      rw [markSending, State.modSlot, State.line_modLine_self, hsl]; rfl
    exact ⟨_, stand_slot hsl', rfl, rfl, rfl⟩

theorem markSending_pooled {x : Xfer} (hx : ∃ k, s.layout.stand x = some k ∧ k.standing = .queued) (h : s.Pooled) :
    (markSending x s).Pooled := by
  cases x with
  | dest n =>
    refine modRec_pooled ⟨fun _ => rfl, fun _ => rfl, fun _ => rfl⟩ (fun r hr _ => ?_) h
    obtain ⟨k, hk, hq⟩ := hx
    rw [stand_dest hr] at hk
    cases hk
    have hq : r.state.standing = .queued := hq
    cases e : r.state <;> simp_all [DestState.standing, DestState.isFinal]
  | slot n => exact modLine_pooled ⟨rfl, rfl, fun c => .inl fun e => c (by simp [e])⟩ h

theorem beginSending_keeps (l : LinkId) (x : Xfer) (hx : x ∈ (s.link l).queue) (h : Keeps b s) : Keeps b (beginSending l x s) := by
  refine (beginSending_still l x s).keeps (h.trans ⟨markSending_dues x (modLink_dues l _ (.refl s)), fun k => ?_⟩)
  rw [State.Kept, markSending_routes, takePicked, modLink_routes]
  obtain ⟨st, hst, hq, -⟩ := k.ordered.waits l x hx
  have hst' : (takePicked l x s).layout.stand x = some st := (modLink_stand _ _ _).trans hst
  refine ⟨k.ordered.begin (l := l) hx (fun m => ?_) (fun m => ?_) ?_ (fun y hy => ?_) (fun k' hk' => ?_),
    markSending_pooled ⟨st, hst', hq⟩ (modLink_pooled l _ k.pool)⟩
  · show ((markSending x _).link m).queue = _
    rw [markSending_link, State.link_modLink]
    split <;> rfl
  · show ((markSending x _).link m).sending = _
    rw [markSending_link, State.link_modLink]
    split <;> rfl
  · cases x <;> rfl
  · rw [markSending_stand_ne hy]
    exact modLink_stand _ _ _
  · exact markSending_stand ((modLink_stand _ _ _).trans hk')

theorem pick_keeps (l : LinkId) (h : Keeps b s) : Keeps b (pick l s) := by
  unfold pick
  dsimp only
  split
  · split
    · next x hx => exact (kick_light l (.refl _)).keeps (beginSending_keeps l x (List.mem_of_find?_eq_some hx) h)
    · exact h
  · exact h

/-! ### Emptying the SENDING slot (R86 to R88) -/

theorem clearSending_light (l : LinkId) (s : State) : Light (s.modLink l fun k => { k with
    sending := none
    sendingSlack := 0
    windowTimer := none
    lastCkpt := none
    openOwed := false
    rewindPending := false }) (clearSending l s) :=
  (schedMirror_still l (.refl _)).light

theorem clearSending_layout (l : LinkId) (s : State) : (clearSending l s).layout =
    ⟨s.layout.queue, fun m => if m = l then none else (s.link m).sending, s.layout.stand, s.seqNext⟩ := by
  rw [(clearSending_light l s).layout, layout_modLink]
  congr
  funext m
  split
  · next e => rw [e]; rfl
  · rfl

theorem clearSending_routes (l : LinkId) (s : State) : (clearSending l s).routes = s.routes := (clearSending_light l s).routes

theorem clearSending_laid (l : LinkId) (h : s.Laid home loose) : (clearSending l s).Laid home loose := by
  refine ⟨h.ordered.shrink (fun m => ?_) (fun m y hy => ?_) ?_ fun _ => ?_, (clearSending_light l s).pooled h.pool⟩
  · rw [clearSending_layout]
  · rw [clearSending_layout] at hy
    dsimp only at hy
    split at hy
    · cases hy
    · exact hy
  · rw [clearSending_layout]; rfl
  · rw [clearSending_layout]

theorem clearSending_keeps (l : LinkId) (h : Keeps b s) : Keeps b (clearSending l s) := by
  refine h.trans ⟨(modLink_dues l _ (.refl s)).trans (clearSending_light l s).toDues, fun k => ?_⟩
  rw [State.Kept, clearSending_routes]
  exact clearSending_laid l k

/-- The transfer taken out of a SENDING slot stands nowhere. -/
theorem clearSending_idle {l : LinkId} {x : Xfer} (h : s.layout.Ordered home loose) (hx : (s.link l).sending = some x) :
    (clearSending l s).layout.Idle x := by
  intro m
  rw [clearSending_layout]
  refine ⟨fun hq => h.not_sending (m := l) hq hx, fun hs => ?_⟩
  dsimp only at hs
  split at hs
  · cases hs
  · next e => exact e (h.oneSending m l x hs hx)

theorem voidWire_light (l : LinkId) (x : Xfer) (s : State) :
    Light s (s.modLink l fun k => { k with wire := k.wire.map (WireFrame.void x) }) :=
  modLink_light l _ (fun _ => ⟨rfl, rfl⟩) (.refl s)

theorem stopSending_layout (l : LinkId) (x : Xfer) (s : State) : (stopSending l x s).layout =
    ⟨s.layout.queue, fun m => if m = l ∧ (s.link l).sending = some x then none else (s.link m).sending, s.layout.stand,
      s.seqNext⟩ := by
  have e := (voidWire_light l x s).layout
  unfold stopSending
  split
  · next hs =>
    rw [clearSending_layout]
    simp only [hs, and_true]
    have e1 : ∀ m, ((s.modLink l fun k => { k with wire := k.wire.map (WireFrame.void x) }).link m).sending = (s.link m).sending :=
      fun m => congrFun (congrArg Layout.sending e) m
    simp only [e1]
    rw [e]
    rfl
  · next hs => simp only [hs, and_false, if_false]; rfl

theorem stopSending_keeps (l : LinkId) (x : Xfer) (h : Keeps b s) : Keeps b (stopSending l x s) :=
  ite_keeps (fun _ => clearSending_keeps l ((voidWire_light l x s).keeps h)) fun _ => h

end Sys2Proof.Machine
end

section
/-! What is kept of the queues and the pool by the catalog's slots and by the pool's changes of state: retraction, placing, release
(R24, R25, R33, R36, R54 to R63). -/

namespace Sys2Proof.Machine

variable {b s t u : State} {home : LinkId → LineId → Prop} {loose : Xfer → Prop}

/-! ### Transfers that stand nowhere -/

/-- A record that neither waits nor is being sent stands nowhere. -/
theorem State.Laid.idle_dest (h : s.Laid home loose) {n : Nat} (hn : ∀ r, s.rec? n = some r → r.state.standing = .apart) :
    s.layout.Idle (.dest n) := by
  refine h.ordered.idle_of_apart fun k hk => ?_
  obtain ⟨r, hr, rfl⟩ := Option.map_eq_some_iff.1 (show (s.rec? n).map _ = some k from hk)
  exact hn r hr

/-- A slot that neither waits nor is being sent stands nowhere. -/
theorem State.Laid.idle_slot (h : s.Laid home loose) {n : LineId}
    (hn : ∀ sl, (s.line n).slot = some sl → sl.state.standing = .apart) : s.layout.Idle (.slot n) := by
  refine h.ordered.idle_of_apart fun k hk => ?_
  obtain ⟨sl, hsl, rfl⟩ := Option.map_eq_some_iff.1 (show (s.line n).slot.map _ = some k from hk)
  exact hn sl hsl

/-- A record in no final state that stands in no queue and no SENDING slot. -/
structure Aside (s : State) (n : Nat) : Prop where
  idle : s.layout.Idle (.dest n)
  live : ∀ r, s.rec? n = some r → r.state.isFinal = false

theorem State.Laid.aside (h : s.Laid home loose) {n : Nat} {r : DestRec} (hr : s.rec? n = some r)
    (ha : r.state.standing = .apart) (hl : r.state.isFinal = false) : Aside s n := by
  refine ⟨h.idle_dest fun q hq => ?_, fun q hq => ?_⟩
  · rw [hr] at hq; cases hq; exact ha
  · rw [hr] at hq; cases hq; exact hl

theorem Light.idle (h : Light s t) {x : Xfer} (hi : s.layout.Idle x) : t.layout.Idle x := by rw [h.layout]; exact hi

/-- A light change keeps the view of every record. -/
theorem Light.rec_view (h : Light s t) {n : Nat} {r : DestRec} (hr : t.rec? n = some r) :
    ∃ q, s.rec? n = some q ∧ q.view = r.view := by
  have e := h.rec? n
  rw [hr] at e
  exact Option.map_eq_some_iff.1 e.symm

theorem Light.aside (h : Light s t) {n : Nat} (ha : Aside s n) : Aside t n := by
  refine ⟨h.idle ha.idle, fun r hr => ?_⟩
  obtain ⟨q, hq, e⟩ := h.rec_view hr
  have e : q.state = r.state := congrArg RecView.state e
  exact e ▸ ha.live q hq

theorem routes_linkOf (s : State) (n : LineId) : s.routes (s.linkOf n) n := rfl

/-! ### Slots -/

theorem moveInQueue_frame (l : LinkId) (x : Xfer) (s : State) :
    Dues s (moveInQueue l x s) ∧ (moveInQueue l x s).routes = s.routes := by
  unfold moveInQueue
  split
  · have k := (schedMirror_still l (Still.refl (s.modLink l fun k =>
      { k with queue := insertByKey s x (k.queue.filter fun y => y != x) }))).light
    exact ⟨(modLink_dues l _ (.refl s)).trans k.toDues, k.routes.trans (modLink_routes l _)⟩
  · exact ⟨.refl s, rfl⟩

/-- A transfer whose keys have changed moves to its place in the queue of its line's link. -/
theorem rekeyed_move {x : Xfer} {l : LinkId} (hd : Dues b s) (hr : s.routes = b.routes)
    (hl : ∀ k, s.layout.stand x = some k → s.linkOf k.line = l) (hk : b.Kept → s.Laid b.routes fun y => y = x ∨ False) :
    Keeps b (moveInQueue l x s) := by
  obtain ⟨hd', hr'⟩ := moveInQueue_frame l x s
  refine ⟨hd.trans hd', fun kb => ?_⟩
  have hs := hk kb
  rw [← hr] at hs
  have hs' : s.Laid s.routes (· = x) := ⟨hs.ordered.mono (fun _ _ p => p) fun _ _ _ p => p.resolve_right id, hs.pool⟩
  rw [State.Kept, hr']
  refine moveInQueue_laid (fun m hm => ?_) hs'
  obtain ⟨k, hk, _, hh⟩ := hs.ordered.waits m x hm
  exact (show s.linkOf k.line = m from hh).symm.trans (hl k hk)

theorem refreshSlot_keeps (n : LineId) (h : Keeps b s) : Keeps b (refreshSlot n s) := by
  unfold refreshSlot
  split
  · exact h
  · next sl hsl =>
    refine ite_keeps (fun _ => h) fun _ => h.trans ?_
    refine rekeyed_move (modSlot_dues _ _ (.refl s)) (modSlot_routes _ _) (fun k hk => ?_) fun ks =>
      modSlot_rekey (fun _ => ⟨rfl, rfl⟩) ks
    obtain ⟨_, _, rfl⟩ := Option.map_eq_some_iff.1 (show ((s.modSlot n _).line n).slot.map _ = some k from hk)
    exact modSlot_linkOf n n _

/-- A slot that is QUEUED and stands nowhere joins its link's queue, after which the link picks. -/
theorem joinSlot_keeps (n : LineId) (hi : b.Kept → s.layout.Idle (.slot n))
    (hq : ∃ sl, (s.line n).slot = some sl ∧ sl.state = .queued) (h : Keeps b s) :
    Keeps b (pick (s.linkOf n) (joinQueue (s.linkOf n) (.slot n) (writeLineMirror n s))) := by
  have hw := (writeLineMirror_still n (Still.refl s)).light
  refine pick_keeps _ (joinQueue_keeps _ _ (fun k => ⟨hw.idle (hi k), ?_⟩) (hw.keeps h))
  obtain ⟨sl, hsl, hst⟩ := hq
  rw [hw.layout, hw.routes]
  refine ⟨sl.view.stand n, stand_slot hsl, ?_, routes_linkOf s n⟩
  show sl.state.standing = .queued
  rw [hst]; rfl

theorem loadSlot_keeps (n : LineId) (g : U16) (he : (s.line n).enabled = true) (hs : (s.line n).slot = none) (h : Keeps b s) :
    Keeps b (loadSlot n g s) := by
  have hidle : b.Kept → s.layout.Idle (.slot n) := fun k => (h.kept k).idle_slot fun sl hsl => by rw [hs] at hsl; cases hsl
  refine joinSlot_keeps n hidle ⟨_, by rw [State.line_modLine_self], rfl⟩ ?_
  exact modLine_keeps n _ (fun k => ⟨hidle k, rfl, rfl, fun _ => .inr he⟩) h

theorem changeoverChoice_slot {n : LineId} {g : U16} (h : changeoverChoice s n = some g) : (s.line n).slot = none := by
  unfold changeoverChoice at h
  dsimp only at h
  split at h
  · next hc => exact hc.1
  · cases h

theorem changeoverCheck_keeps (n : LineId) (h : Keeps b s) : Keeps b (changeoverCheck n s) := by
  unfold changeoverCheck
  split
  · next g hg => exact loadSlot_keeps n g (changeoverChoice_enabled hg) (changeoverChoice_slot hg) h
  · exact h

theorem reexamine_keeps (n : LineId) (h : Keeps b s) : Keeps b (reexamine n s) :=
  changeoverCheck_keeps n (refreshSlot_keeps n h)

theorem requeueSlot_keeps (n : LineId) (f : Slot → Slot) (hi : b.Kept → s.layout.Idle (.slot n)) (h : Keeps b s) :
    Keeps b (requeueSlot n f s) := by
  unfold requeueSlot
  split
  · exact h
  · next sl hsl =>
    refine joinSlot_keeps n hi ?_ (modLine_keeps n _ (fun k => ⟨hi k, rfl, rfl, fun _ => .inl (by simp [hsl])⟩) h)
    rw [State.modSlot, State.line_modLine_self]
    dsimp only
    rw [hsl]
    exact ⟨_, rfl, rfl⟩

theorem idleSlot_keeps (n : LineId) (hi : b.Kept → s.layout.Idle (.slot n)) (h : Keeps b s) : Keeps b (idleSlot n s) :=
  (writeLineMirror_still n (.refl _)).keeps (modLine_keeps n _ (fun k => ⟨hi k, rfl, rfl, fun c => absurd rfl c⟩) h)

/-- A transfer at a line of link `l` that has left the queue and the SENDING slot of that link stands nowhere. -/
theorem leave_stop_idle {l : LinkId} {x : Xfer} {k : Stand} (h : s.Kept) (hx : s.layout.stand x = some k)
    (hl : s.linkOf k.line = l) : (stopSending l x (leaveQueue l x s)).layout.Idle x := by
  have hq : ∀ m, x ∈ (s.link m).queue → m = l := fun m hm => by
    obtain ⟨k', hk', _, hh⟩ := h.ordered.waits m x hm
    rw [hx] at hk'
    cases hk'
    exact (show s.linkOf k.line = m from hh).symm.trans hl
  have hs : ∀ m, (s.link m).sending = some x → m = l := fun m hm => by
    obtain ⟨k', hk', _, hh⟩ := h.ordered.sends m x hm
    rw [hx] at hk'
    cases hk'
    exact (show s.linkOf k.line = m from hh).symm.trans hl
  have he : ∀ m, ((leaveQueue l x s).link m).sending = (s.link m).sending := fun m =>
    congrFun (congrArg Layout.sending (leaveQueue_layout l x s)) m
  intro m
  rw [stopSending_layout]
  refine ⟨fun c => ?_, fun c => ?_⟩
  · rw [leaveQueue_layout] at c
    dsimp only at c
    split at c
    · simp at c
    · next e => exact e (hq m c)
  · dsimp only at c
    rw [he, he] at c
    split at c
    · cases c
    · next e =>
      have := hs m c
      exact e ⟨this, this ▸ c⟩

theorem detachSlot_keeps (n : LineId) (h : Keeps b s) : Keeps b (detachSlot n s) :=
  stopSending_keeps _ _ (leaveQueue_keeps _ _ h)

/-- Taking a transfer out of its place changes no line. -/
theorem detach_lines (l m : LinkId) (x : Xfer) (s : State) : (stopSending m x (leaveQueue l x s)).lines = s.lines := by
  have h1 : ∀ s : State, (leaveQueue l x s).lines = s.lines := fun s => by
    unfold leaveQueue
    split
    · exact (schedMirror_still l (.refl _)).lines
    · rfl
  have h2 : ∀ s : State, (stopSending m x s).lines = s.lines := fun s => by
    unfold stopSending clearSending
    split
    · exact (schedMirror_still m (.refl _)).lines
    · rfl
  rw [h2, h1]

theorem detachSlot_line (n m : LineId) (s : State) : (detachSlot n s).line m = s.line m := by
  unfold State.line detachSlot; rw [detach_lines]

theorem detachSlot_idle (n : LineId) (h : s.Kept) : (detachSlot n s).layout.Idle (.slot n) := by
  cases hs : (s.line n).slot with
  | none =>
    refine ((detachSlot_keeps n (.refl s)).kept h).idle_slot fun sl hsl => ?_
    rw [detachSlot_line, hs] at hsl
    cases hsl
  | some sl => exact leave_stop_idle h (stand_slot hs) rfl

theorem abortSlot_keeps (n : LineId) (h : Keeps b s) : Keeps b (abortSlot n s) := by
  unfold abortSlot
  split
  · exact h
  · next sl hsl =>
    have hd := detachSlot_keeps n h
    have hw : Light (detachSlot n s) (if sl.siteHasData then withdrawTarget n sl.generation (detachSlot n s) else detachSlot n s) :=
      ite_light (withdrawTarget_light _ _ (.refl _)) (.refl _)
    exact pick_keeps _ (idleSlot_keeps n (fun k => hw.idle (detachSlot_idle n (h.kept k))) (hw.keeps hd))

/-! ### Changes of a record's state -/

/-- A pool change of a record that stands nowhere. -/
theorem applyChange_keeps (n : Nat) (f : DestRec → DestRec) (hf : RecKeeps f)
    (hi : b.Kept → s.layout.Idle (.dest n) ∧ ∀ r, s.rec? n = some r → (f r).state.isFinal = false → r.state.isFinal = false)
    (h : Keeps b s) : Keeps b (applyChange n f s) :=
  (monitor_light n (.refl _)).keeps ((writeEntry_still n (.refl _)).keeps (modRec_keeps n f hf hi h))

theorem finish_keeps (n : Nat) (st : DestState) (d : Detail) (hst : st.isFinal = true) (hi : b.Kept → s.layout.Idle (.dest n))
    (h : Keeps b s) : Keeps b (finish n st d s) := by
  refine (dropControl_still _ (.refl _)).keeps (applyChange_keeps n _ ⟨fun _ => rfl, fun _ => rfl, fun _ => rfl⟩
    (fun k => ⟨hi k, fun r _ hr => ?_⟩) h)
  rw [hst] at hr; cases hr

theorem detachRec_keeps (n : Nat) (h : Keeps b s) : Keeps b (detachRec n s) := by
  unfold detachRec
  split
  · exact h
  · split
    · exact leaveQueue_keeps _ _ h
    · exact stopSending_keeps _ _ h
    all_goals exact h

/-- Taking a record's transfer out of its place changes no record. -/
theorem detachRec_recs (n : Nat) (s : State) : (detachRec n s).recs = s.recs := by
  have h1 : ∀ l x, (leaveQueue l x s).recs = s.recs := fun l x => by
    unfold leaveQueue
    split
    · exact (schedMirror_still l (.refl _)).recs
    · rfl
  have h2 : ∀ l x, (stopSending l x s).recs = s.recs := fun l x => by
    unfold stopSending clearSending
    split
    · exact (schedMirror_still l (.refl _)).recs
    · rfl
  unfold detachRec
  split
  · rfl
  · split
    · exact h1 _ _
    · exact h2 _ _
    all_goals rfl

theorem detachRec_rec (n i : Nat) (s : State) : (detachRec n s).rec? i = s.rec? i := by
  unfold State.rec?; rw [detachRec_recs]

/-- A transfer whose standing is known stands in no other kind of place. -/
theorem State.Laid.place_of_stand (h : s.Laid home loose) {x : Xfer} {k : Stand} (hx : s.layout.stand x = some k) (l : LinkId) :
    (x ∈ (s.link l).queue → k.standing = .queued ∧ home l k.line) ∧
      ((s.link l).sending = some x → k.standing = .sending ∧ home l k.line) := by
  refine ⟨fun c => ?_, fun c => ?_⟩
  · obtain ⟨k', hk', a⟩ := h.ordered.waits l x c
    rw [hx] at hk'; cases hk'; exact a
  · obtain ⟨k', hk', a⟩ := h.ordered.sends l x c
    rw [hx] at hk'; cases hk'; exact a

/-- Detached, a record stands nowhere. -/
theorem detachRec_idle (n : Nat) (h : s.Kept) : (detachRec n s).layout.Idle (.dest n) := by
  unfold detachRec
  split
  · next hn => exact h.idle_dest fun r hr => by rw [hn] at hr; cases hr
  · next r hr =>
    have hst := stand_dest hr
    have hp := h.place_of_stand hst
    have apart : r.state.standing = .apart → s.layout.Idle (.dest n) := fun ha => h.idle_dest fun q hq => by
      rw [hr] at hq; cases hq; exact ha
    split
    case h_1 e =>
      intro l
      rw [leaveQueue_layout]
      have hsend : r.view.stand.standing = .queued := by show r.state.standing = _; rw [e]; rfl
      refine ⟨fun c => ?_, fun c => ?_⟩
      · dsimp only at c
        split at c
        · simp at c
        · next hne => exact hne ((hp l).1 c).2.symm
      · have := ((hp l).2 c).1
        rw [hsend] at this; cases this
    case h_2 e =>
      intro l
      rw [stopSending_layout]
      have hsend : r.view.stand.standing = .sending := by show r.state.standing = _; rw [e]; rfl
      refine ⟨fun c => ?_, fun c => ?_⟩
      · have := ((hp l).1 c).1
        rw [hsend] at this; cases this
      · dsimp only at c
        split at c
        · cases c
        · next hne =>
          have hl : s.linkOf r.line = l := ((hp l).2 c).2
          exact hne ⟨hl.symm, hl ▸ c⟩
    all_goals
      next e => exact apart (by rw [e]; rfl)

theorem takeBack_keeps (n : Nat) (r : DestRec) (x : RetractEnd) (d : Detail) (ha : b.Kept → Aside s n) (h : Keeps b s) :
    Keeps b (takeBack n r x d s) := by
  unfold takeBack
  refine ite_keeps (fun _ => ?_) fun _ => ?_
  · refine (sendOwedWithdraw_light n (.refl _)).keeps ((dropControl_still _ (.refl _)).keeps ?_)
    exact applyChange_keeps n _ ⟨fun _ => rfl, fun _ => rfl, fun _ => rfl⟩ (fun k => ⟨(ha k).idle, fun r hr _ => (ha k).live r hr⟩) h
  · exact finish_keeps n _ d (by cases x <;> rfl) (fun k => (ha k).idle) h

/-! ### Retraction (R36) -/

theorem retract_keeps (n : Nat) (x : RetractEnd) (d : Detail) (h : Keeps b s) : Keeps b (retract n x d s) := by
  unfold retract
  split
  · exact h
  · next r hr =>
    refine ite_keeps (fun _ => h) fun hl => ?_
    have hb : Keeps b (takeBack n r x d (detachRec n s)) := by
      refine takeBack_keeps n r x d (fun k => ⟨detachRec_idle n (h.kept k), fun q hq => ?_⟩) (detachRec_keeps n h)
      rw [detachRec_rec, hr] at hq
      cases hq
      simpa using fun e => hl (.inl e)
    exact ite_keeps (fun _ => pick_keeps _ hb) fun _ => hb

theorem retractAlone_keeps (n : Nat) (x : RetractEnd) (d : Detail) (h : Keeps b s) : Keeps b (retractAlone n x d s) := by
  unfold retractAlone
  split
  · exact h
  · exact reexamine_keeps _ (retract_keeps n x d h)

theorem retractMany_keeps (ids : List Nat) (x : RetractEnd) (d : Detail) (h : Keeps b s) : Keeps b (retractMany ids x d s) :=
  foldl_keeps _ (fun _ i h => retract_keeps i x d h) _ h

theorem retractPage_keeps (ids : List Nat) (x : RetractEnd) (d : Detail) (h : Keeps b s) : Keeps b (retractPage ids x d s) :=
  foldl_keeps _ (fun _ i h => retractAlone_keeps i x d h) _ h

/-! ### Placing (R25) -/

theorem updateL_keeps (n : Nat) (ha : b.Kept → s.layout.Idle (.dest n)) (h : Keeps b s) : Keeps b (updateL n s) := by
  unfold updateL
  split
  · exact h
  · exact modRec_keeps n _ ⟨fun _ => rfl, fun _ => rfl, fun _ => rfl⟩ (fun k => ⟨ha k, fun _ _ => id⟩) h

/-- The L computed anew leaves a record otherwise as it was. -/
theorem updateL_rec {n : Nat} {r : DestRec} (hr : s.rec? n = some r) :
    (updateL n s).rec? n = some { r with latestStart := recLatestStart s r } := by
  unfold updateL
  rw [hr]
  dsimp only
  rw [rec_modRec, if_pos rfl, hr]
  rfl

theorem updateL_idle {x : Xfer} (n : Nat) (h : s.layout.Idle x) : (updateL n s).layout.Idle x := by
  unfold updateL
  split <;> exact h

/-- A QUEUED record that stands nowhere has its L computed and joins its link's queue. -/
theorem joinRec_keeps {n : Nat} {r : DestRec} {l : LinkId} (hr : s.rec? n = some r) (hq : r.state = .queued)
    (hl : s.linkOf r.line = l) (ha : b.Kept → s.layout.Idle (.dest n)) (h : Keeps b s) :
    Keeps b (joinQueue l (.dest n) (updateL n s)) := by
  refine joinQueue_keeps _ _ (fun k => ⟨updateL_idle n (ha k), _, stand_dest (updateL_rec hr), ?_, ?_⟩) (updateL_keeps n ha h)
  · show r.state.standing = .queued
    rw [hq]; rfl
  · rw [updateL_routes]; exact hl

theorem rec_modRec_self {n : Nat} {r : DestRec} (f : DestRec → DestRec) (hr : s.rec? n = some r) :
    (s.modRec n f).rec? n = some (f r) := by
  rw [rec_modRec, if_pos rfl, hr]; rfl

theorem placeRaw_keeps (n : Nat) (ha : b.Kept → Aside s n) (h : Keeps b s) : Keeps b (placeRaw n s) := by
  unfold placeRaw
  split
  · exact h
  · next r hr =>
    have hmod : ∀ st : DestState, Keeps b (s.modRec n fun q => { q with state := st, timer := .stopped }) := fun st =>
      modRec_keeps n _ ⟨fun _ => rfl, fun _ => rfl, fun _ => rfl⟩ (fun k => ⟨(ha k).idle, fun r hr _ => (ha k).live r hr⟩) h
    split
    · refine pick_keeps _ ((applyChange_light n id (fun _ => rfl) (.refl _)).keeps ?_)
      exact joinRec_keeps (rec_modRec_self (fun q => { q with state := .queued, timer := .stopped }) hr) rfl
        rfl (fun k => (ha k).idle) (hmod .queued)
    · exact (applyChange_light n id (fun _ => rfl) (.refl _)).keeps (updateL_keeps n (fun k => (ha k).idle) (hmod .targetWait))
    · exact retract_keeps n _ _ h

theorem place_keeps (n : Nat) (ha : b.Kept → Aside s n) (h : Keeps b s) : Keeps b (place n s) := by
  unfold place
  split
  · exact h
  · exact reexamine_keeps _ (placeRaw_keeps n ha h)

/-! ### Release and receipts (R29, R30, R33, R34) -/

theorem enterReleasing_keeps (n : Nat) (ha : b.Kept → Aside s n) (h : Keeps b s) : Keeps b (enterReleasing n s) :=
  applyChange_keeps n _ ⟨fun _ => rfl, fun _ => rfl, fun _ => rfl⟩ (fun k => ⟨(ha k).idle, fun r hr _ => (ha k).live r hr⟩) h

theorem mayRelease_delivered {r : DestRec} (h : mayRelease s r = true) : r.state = .delivered := by
  unfold mayRelease at h
  simp only [Bool.and_eq_true, beq_iff_eq] at h
  exact h.1.1.1

theorem releaseCheck_keeps (n : Nat) (h : Keeps b s) : Keeps b (releaseCheck n s) := by
  unfold releaseCheck
  split
  · exact h
  · next r hr =>
    refine ite_keeps (fun hm => ?_) fun _ => h
    have hd := mayRelease_delivered hm
    exact (sendRelease_light n (.refl _)).keeps
      (enterReleasing_keeps n (fun k => (h.kept k).aside hr (by rw [hd]; rfl) (by rw [hd]; rfl)) h)

theorem deliver_keeps (n : Nat) (ha : b.Kept → Aside s n) (h : Keeps b s) : Keeps b (deliver n s) := by
  unfold deliver
  split
  · exact h
  · exact releaseCheck_keeps n (applyChange_keeps n _ ⟨fun _ => rfl, fun _ => rfl, fun _ => rfl⟩
      (fun k => ⟨(ha k).idle, fun r hr _ => (ha k).live r hr⟩) h)

theorem attemptFailed_keeps (n : Nat) (ha : b.Kept → Aside s n) (h : Keeps b s) : Keeps b (attemptFailed n s) := by
  unfold attemptFailed
  split
  · exact h
  · refine ite_keeps (fun _ => ?_) fun _ => ?_
    · have hm := modRec_light (b := s) n (fun q => { q with attempts := q.attempts + 1 }) (fun _ => rfl) (.refl _)
      exact reexamine_keeps _ (finish_keeps n _ _ rfl (fun k => hm.idle (ha k).idle) (hm.keeps h))
    · have hm := modRec_light (b := s) n (fun q => { q with attempts := q.attempts + 1, acked := 0, sent := 0 }) (fun _ => rfl) (.refl _)
      exact place_keeps n (fun k => hm.aside (ha k)) (hm.keeps h)

end Sys2Proof.Machine
end

section
/-! What the scheduler, the catalog's slots and the pool's changes of one record leave alone of the other records, of whatever state
they start from: a record in its place stays there, but that the scheduler may pick it (R69, R77). -/

namespace Sys2Proof.Machine

variable {p : Bool} {A : Nat → Prop} {b s t u : State}

/-! ### The frame -/

/-- What the scheduler leaves of a record: all that its owner gave it, and its state, but that with `p` a pick makes a QUEUED record
SENDING. -/
structure RecStays (p : Bool) (r r' : DestRec) : Prop where
  parent : r'.parent = r.parent
  line : r'.line = r.line
  siteHasData : r'.siteHasData = r.siteHasData
  isFallback : r'.isFallback = r.isFallback
  detail : r'.detail = r.detail
  retract : r'.retract = r.retract
  state : r'.state = r.state ∨ p = true ∧ r.state = .queued ∧ r'.state = .sending

theorem RecStays.refl (r : DestRec) : RecStays p r r := ⟨rfl, rfl, rfl, rfl, rfl, rfl, .inl rfl⟩

theorem RecStays.trans {q r r' : DestRec} (h : RecStays p q r) (k : RecStays p r r') : RecStays p q r' := by
  refine ⟨k.parent.trans h.parent, k.line.trans h.line, k.siteHasData.trans h.siteHasData, k.isFallback.trans h.isFallback,
    k.detail.trans h.detail, k.retract.trans h.retract, ?_⟩
  rcases k.state with ks | ⟨hp, kq, ks⟩ <;> rcases h.state with hs | ⟨hp', hq, hs⟩
  · exact .inl (ks.trans hs)
  · exact .inr ⟨hp', hq, ks.trans hs⟩
  · exact .inr ⟨hp, hs ▸ kq, ks⟩
  · rw [hs] at kq; cases kq

/-- A record is there, in its place, and what was left of it is as before. -/
def StaysAs (p : Bool) (t : State) (i : Nat) (r : DestRec) : Prop :=
  ∃ r', t.rec? i = some r' ∧ RecStays p r r' ∧ InPlace t i r'

/-- What of a line no operation of the scheduler or the pool changes. -/
structure LineStays (k k' : Line) : Prop where
  enabled : k'.enabled = k.enabled
  cfg : k'.cfg = k.cfg
  held : k'.held = k.held
  catalog : k'.catalog = k.catalog

theorem LineStays.refl (k : Line) : LineStays k k := ⟨rfl, rfl, rfl, rfl⟩

theorem LineStays.trans {i j k : Line} (h : LineStays i j) (g : LineStays j k) : LineStays i k :=
  ⟨g.enabled.trans h.enabled, g.cfg.trans h.cfg, g.held.trans h.held, g.catalog.trans h.catalog⟩

/-- What a change aimed at the records `A` alone leaves: pages, verification, free list, lines, and the other records in their
places. -/
structure Spares (p : Bool) (A : Nat → Prop) (s t : State) : Prop where
  pages : t.pages = s.pages
  verify : t.verify = s.verify
  free : t.free = s.free
  line : ∀ n, LineStays (s.line n) (t.line n)
  recs : ∀ i r, ¬ A i → s.rec? i = some r → InPlace s i r → StaysAs p t i r

theorem Spares.refl (s : State) : Spares p A s s :=
  ⟨rfl, rfl, rfl, fun _ => .refl _, fun _ r _ hr hi => ⟨r, hr, .refl r, hi⟩⟩

theorem Spares.trans (h : Spares p A s t) (k : Spares p A t u) : Spares p A s u := by
  refine ⟨k.pages.trans h.pages, k.verify.trans h.verify, k.free.trans h.free, fun n => (h.line n).trans (k.line n),
    fun i r ha hr hi => ?_⟩
  obtain ⟨q, hq, hs, hqi⟩ := h.recs i r ha hr hi
  obtain ⟨r', hr', hs', hi'⟩ := k.recs i q ha hq hqi
  exact ⟨r', hr', hs.trans hs', hi'⟩

/-- A change aimed at fewer records. -/
theorem Spares.mono {B : Nat → Prop} (hAB : ∀ i, A i → B i) (h : Spares p A s t) : Spares p B s t :=
  ⟨h.pages, h.verify, h.free, h.line, fun i r ha => h.recs i r fun c => ha (hAB i c)⟩

/-- A change without a pick is one with picks. -/
theorem Spares.loud (h : Spares false A s t) : Spares p A s t := by
  refine ⟨h.pages, h.verify, h.free, h.line, fun i r ha hr hi => ?_⟩
  obtain ⟨r', hr', hs, hi'⟩ := h.recs i r ha hr hi
  exact ⟨r', hr', ⟨hs.parent, hs.line, hs.siteHasData, hs.isFallback, hs.detail, hs.retract,
    .inl (hs.state.resolve_right fun c => by cases c.1)⟩, hi'⟩

theorem Spares.page? (h : Spares p A s t) (n : Nat) : t.page? n = s.page? n := by unfold State.page?; rw [h.pages]

theorem Spares.linkOf (h : Spares p A s t) (n : LineId) : t.linkOf n = s.linkOf n := by unfold State.linkOf; rw [(h.line n).cfg]

/-- The table of R25 gives the same place to a record of the same line and page. -/
theorem Spares.recGen (h : Spares p A s t) {r r' : DestRec} (hr : r'.parent = r.parent) : t.recGen r' = s.recGen r := by
  unfold State.recGen; rw [hr, h.page?]

theorem Spares.placement (h : Spares p A s t) {r r' : DestRec} (hp : r'.parent = r.parent) (hl : r'.line = r.line) :
    placement t r' = placement s r := by
  unfold Machine.placement Line.entry
  rw [h.recGen hp, hl, (h.line r.line).held, (h.line r.line).catalog]

theorem InPlace.of_stays {r r' : DestRec} {i : Nat} (hi : InPlace s i r) (hs : r'.state = r.state) (hl : r'.line = r.line)
    (hk : t.linkOf r.line = s.linkOf r.line) (hq : ∀ l, Xfer.dest i ∈ (t.link l).queue → Xfer.dest i ∈ (s.link l).queue) :
    InPlace t i r' := fun l c => by
  obtain ⟨h1, h2⟩ := hi l (hq l c)
  exact ⟨hs.trans h1, by rw [hl, hk]; exact h2⟩

/-- A change that leaves every record and keeps no queue longer. -/
theorem Spares.of_same (hp : t.pages = s.pages) (hv : t.verify = s.verify) (hf : t.free = s.free)
    (hl : ∀ n, LineStays (s.line n) (t.line n))
    (hr : ∀ i r, ¬ A i → s.rec? i = some r → ∃ r', t.rec? i = some r' ∧ RecStays false r r')
    (hq : ∀ i l, ¬ A i → Xfer.dest i ∈ (t.link l).queue → Xfer.dest i ∈ (s.link l).queue) : Spares p A s t := by
  refine Spares.loud ⟨hp, hv, hf, hl, fun i r ha hi hin => ?_⟩
  obtain ⟨r', hr', hs⟩ := hr i r ha hi
  refine ⟨r', hr', hs, hin.of_stays (hs.state.resolve_right fun c => by cases c.1) hs.line ?_ fun l => hq i l ha⟩
  unfold State.linkOf
  rw [(hl _).cfg]

theorem Still.spares (h : Still s t) : Spares p A s t := by
  refine .of_same h.pages h.verify h.free (fun n => h.line n ▸ .refl _) (fun i r _ hr => ⟨r, by rw [h.rec?, hr], .refl r⟩) ?_
  intro i l _ hq
  rwa [(h.links l).queue] at hq

/-- A still change after one that spares the other records. -/
theorem Still.sparing (k : Still s t) (h : Spares p A b s) : Spares p A b t := h.trans k.spares

theorem ite_spares {c : Prop} [Decidable c] (ht : c → Spares p A b t) (hu : ¬ c → Spares p A b u) :
    Spares p A b (if c then t else u) := by
  split
  · next h => exact ht h
  · next h => exact hu h

theorem foldl_spares {α : Type} (f : State → α → State) (xs : List α)
    (hf : ∀ (s : State), ∀ a ∈ xs, Spares p A b s → Spares p A b (f s a)) (h : Spares p A b s) :
    Spares p A b (xs.foldl f s) := by
  induction xs generalizing s with
  | nil => exact h
  | cons x xs ih => exact ih (fun s a ha => hf s a (.tail _ ha)) (hf s x (.head _) h)

/-! ### Primitives -/

theorem modLink_spares (l : LinkId) (f : Link → Link) (hf : ∀ k, ∀ i, ¬ A i → Xfer.dest i ∈ (f k).queue → Xfer.dest i ∈ k.queue)
    (h : Spares p A b s) : Spares p A b (s.modLink l f) := by
  refine h.trans (.of_same rfl rfl rfl (fun _ => .refl _) (fun i r _ hr => ⟨r, hr, .refl r⟩) fun i m ha hq => ?_)
  rw [State.link_modLink] at hq
  split at hq
  · next e => exact e ▸ hf _ i ha hq
  · exact hq

theorem modLine_spares (n : LineId) (f : Line → Line) (hf : ∀ k, LineStays k (f k)) (h : Spares p A b s) :
    Spares p A b (s.modLine n f) := by
  refine h.trans (.of_same rfl rfl rfl (fun m => ?_) (fun _ r _ hr => ⟨r, hr, .refl r⟩) fun _ _ _ hq => hq)
  rw [State.line_modLine]
  split
  · next e => exact e ▸ hf _
  · exact .refl _

theorem modSlot_spares (n : LineId) (f : Slot → Slot) (h : Spares p A b s) : Spares p A b (s.modSlot n f) :=
  modLine_spares n _ (fun _ => ⟨rfl, rfl, rfl, rfl⟩) h

theorem setSeqNext_spares (n : Nat) (h : Spares p A b s) : Spares p A b (s.setSeq n) :=
  h.trans (.of_same rfl rfl rfl (fun _ => .refl _) (fun _ r _ hr => ⟨r, hr, .refl r⟩) fun _ _ _ hq => hq)

theorem setDeadlines_spares (d : List DeadlineEntry) (h : Spares p A b s) : Spares p A b (s.setDeadlines d) :=
  h.trans (.of_same rfl rfl rfl (fun _ => .refl _) (fun _ r _ hr => ⟨r, hr, .refl r⟩) fun _ _ _ hq => hq)

/-- A change of a record aimed at, or one that leaves it as it stays. -/
theorem modRec_spares (n : Nat) (f : DestRec → DestRec) (hf : A n ∨ ∀ r, RecStays false r (f r)) (h : Spares p A b s) :
    Spares p A b (s.modRec n f) := by
  refine h.trans (.of_same rfl rfl rfl (fun _ => .refl _) (fun i r ha hr => ?_) fun _ _ _ hq => hq)
  rw [rec_modRec]
  split
  · next e =>
    subst e
    rw [hr]
    exact ⟨f r, rfl, hf.elim (fun c => absurd c ha) fun c => c r⟩
  · exact ⟨r, hr, .refl r⟩

/-! ### The scheduler -/

theorem updateL_spares (n : Nat) (h : Spares p A b s) : Spares p A b (updateL n s) := by
  unfold updateL
  split
  · exact h
  · exact modRec_spares n _ (.inr fun _ => ⟨rfl, rfl, rfl, rfl, rfl, rfl, .inl rfl⟩) h

theorem setSeq_spares (x : Xfer) (q : Nat) (h : Spares p A b s) : Spares p A b (setSeq x q s) := by
  cases x with
  | dest n => exact modRec_spares n _ (.inr fun _ => ⟨rfl, rfl, rfl, rfl, rfl, rfl, .inl rfl⟩) h
  | slot n => exact modSlot_spares n _ h

theorem renumberFrom_spares (xs : List Xfer) (q : Nat) (h : Spares p A b s) : Spares p A b (renumberFrom q xs s) := by
  induction xs generalizing q s with
  | nil => exact h
  | cons x xs ih => exact ih _ (setSeq_spares _ _ h)

theorem roomForSeq_spares (h : Spares p A b s) : Spares p A b (roomForSeq s) := by
  unfold roomForSeq renumber
  exact ite_spares (fun _ => setSeqNext_spares _ (renumberFrom_spares _ _ h)) fun _ => h

theorem insertByKey_spares (l : LinkId) (x : Xfer) (hx : ∀ n, x = .dest n → A n) (h : Spares p A b s) :
    Spares p A b (s.modLink l fun k => { k with queue := insertByKey s x k.queue }) :=
  modLink_spares l _ (fun _ i ha hq => (mem_insertByKey.1 hq).resolve_left fun e => ha (hx i e.symm)) h

theorem joinQueue_spares (l : LinkId) (x : Xfer) (hx : ∀ n, x = .dest n → A n) (h : Spares p A b s) :
    Spares p A b (joinQueue l x s) := by
  have hj := insertByKey_spares l x hx (setSeqNext_spares ((roomForSeq s).seqNext + 1)
    (setSeq_spares x (roomForSeq s).seqNext (roomForSeq_spares h)))
  exact (schedMirror_still l (.refl _)).sparing (ite_spares (fun _ => (bumpCounter_still _ (.refl _)).sparing hj) fun _ => hj)

theorem leaveQueue_spares (l : LinkId) (x : Xfer) (h : Spares p A b s) : Spares p A b (leaveQueue l x s) :=
  ite_spares (fun _ => (schedMirror_still l (.refl _)).sparing
    (modLink_spares l _ (fun _ _ _ hq => (List.mem_filter.1 hq).1) h)) fun _ => h

theorem moveInQueue_spares (l : LinkId) (x : Xfer) (h : Spares p A b s) : Spares p A b (moveInQueue l x s) := by
  unfold moveInQueue
  refine ite_spares (fun hx => (schedMirror_still l (.refl _)).sparing (h.trans ?_)) fun _ => h
  refine .of_same rfl rfl rfl (fun _ => .refl _) (fun i r _ hr => ⟨r, hr, .refl r⟩) fun i m _ hq => ?_
  rw [State.link_modLink] at hq
  split at hq
  · next e =>
    subst e
    rcases mem_insertByKey.1 hq with e | c
    · exact e ▸ hx
    · exact (List.mem_filter.1 c).1
  · exact hq

theorem clearSending_spares (l : LinkId) (h : Spares p A b s) : Spares p A b (clearSending l s) :=
  (schedMirror_still l (.refl _)).sparing (modLink_spares l _ (fun _ _ _ hq => hq) h)

theorem stopSending_spares (l : LinkId) (x : Xfer) (h : Spares p A b s) : Spares p A b (stopSending l x s) :=
  ite_spares (fun _ => clearSending_spares l (modLink_spares l _ (fun _ _ _ hq => hq) h)) fun _ => h

theorem markSending_linkOf (x : Xfer) (n : LineId) (s : State) : (markSending x s).linkOf n = s.linkOf n := by
  cases x with
  | dest i => rfl
  | slot m => exact modSlot_linkOf m n _

/-- A transfer taken from a queue becomes the SENDING one; a record among the others is in its place still. -/
theorem beginSending_spares (l : LinkId) (x : Xfer) (hx : x ∈ (s.link l).queue) (h : Spares true A b s) :
    Spares true A b (beginSending l x s) := by
  refine (beginSending_still l x s).sparing (h.trans ⟨?_, ?_, ?_, fun n => ?_, fun i r ha hr hi => ?_⟩)
  · cases x <;> rfl
  · cases x <;> rfl
  · cases x <;> rfl
  · cases x with
    | dest i => exact .refl _
    | slot m =>
      unfold markSending State.modSlot
      rw [State.line_modLine]
      split
      · next e => exact e ▸ ⟨rfl, rfl, rfl, rfl⟩
      · exact .refl _
  · have hq : ∀ m, Xfer.dest i ∈ ((markSending x (takePicked l x s)).link m).queue →
        Xfer.dest i ∈ (s.link m).queue ∧ (m = l → Xfer.dest i ≠ x) := by
      intro m c
      rw [markSending_link, takePicked, State.link_modLink] at c
      split at c
      · next e =>
        subst e
        exact ⟨(List.mem_filter.1 c).1, fun _ => by simpa using (List.mem_filter.1 c).2⟩
      · next e => exact ⟨c, fun e' => absurd e' e⟩
    have hk : (markSending x (takePicked l x s)).linkOf r.line = s.linkOf r.line :=
      markSending_linkOf x r.line _
    by_cases e : x = .dest i
    · subst e
      obtain ⟨hqd, hl⟩ := hi l hx
      refine ⟨{ r with state := .sending, sent := r.acked }, ?_, ⟨rfl, rfl, rfl, rfl, rfl, rfl, .inr ⟨rfl, hqd, rfl⟩⟩, fun m c => ?_⟩
      · rw [markSending, rec_modRec, if_pos rfl]
        exact congrArg _ hr
      · obtain ⟨hm, hne⟩ := hq m c
        exact absurd rfl (hne ((hi m hm).2.trans hl.symm))
    · refine ⟨r, ?_, .refl r, hi.of_stays rfl rfl hk fun m c => (hq m c).1⟩
      cases x with
      | dest n =>
        rw [markSending, rec_modRec, if_neg fun c => e (congrArg Xfer.dest c.symm)]
        exact hr
      | slot n => exact hr

theorem deskWrite_links (off : Nat) (bytes : List Byte) (s : State) : (deskWrite off bytes s).links = s.links := by
  unfold deskWrite; split <;> rfl

theorem writeEntry_links (n : Nat) (s : State) : (writeEntry n s).links = s.links := by
  unfold writeEntry
  split
  · rfl
  · split
    · rfl
    · split <;> rfl

theorem writeEntry_link (n : Nat) (l : LinkId) (s : State) : (writeEntry n s).link l = s.link l := by
  unfold State.link; rw [writeEntry_links]

theorem writeLineMirror_link (n : LineId) (l : LinkId) (s : State) : (writeLineMirror n s).link l = s.link l := by
  unfold State.link
  rw [show (writeLineMirror n s).links = s.links from deskWrite_links _ _ _]

theorem schedMirror_openOwed (l : LinkId) (s : State) : ((schedMirror l s).link l).openOwed = (s.link l).openOwed := by
  have hw : ((schedMirror l s).link l).openOwed = ((refreshFirst l s).link l).openOwed := by
    unfold State.link
    rw [show (schedMirror l s).links = (refreshFirst l s).links from deskWrite_links _ _ _]
  rw [hw, refreshFirst, State.link_modLink_self]
  dsimp only
  split <;> rfl

/-- A transfer just picked owes its OPEN. -/
theorem beginSending_openOwed (l : LinkId) (x : Xfer) (s : State) : ((beginSending l x s).link l).openOwed = true := by
  have hm : ∀ x, ((markSending x (takePicked l x s)).link l).openOwed = true := fun x => by
    rw [markSending_link, takePicked, State.link_modLink_self]
  unfold beginSending
  rw [schedMirror_openOwed]
  cases x with
  | dest n =>
    dsimp only
    rw [writeEntry_link]
    exact hm (.dest n)
  | slot n =>
    dsimp only
    rw [writeLineMirror_link]
    exact hm (.slot n)

theorem pick_spares (l : LinkId) (h : Spares true A b s) : Spares true A b (pick l s) := by
  unfold pick
  dsimp only
  split
  · split
    · next x hx =>
      exact (kick_still l (.inr (beginSending_openOwed l x s)) (.refl _)).sparing
        (beginSending_spares l x (List.mem_of_find?_eq_some hx) h)
    · exact h
  · exact h

/-! ### Slots -/

theorem refreshSlot_spares (n : LineId) (h : Spares p A b s) : Spares p A b (refreshSlot n s) := by
  unfold refreshSlot
  split
  · exact h
  · exact ite_spares (fun _ => h) fun _ => moveInQueue_spares _ _ (modSlot_spares n _ h)

theorem joinSlot_spares (n : LineId) (h : Spares true A b s) :
    Spares true A b (pick (s.linkOf n) (joinQueue (s.linkOf n) (.slot n) (writeLineMirror n s))) :=
  pick_spares _ (joinQueue_spares _ _ nofun ((writeLineMirror_still n (.refl _)).sparing h))

theorem loadSlot_spares (n : LineId) (g : U16) (h : Spares true A b s) : Spares true A b (loadSlot n g s) := by
  unfold loadSlot
  exact joinSlot_spares n (modLine_spares n _ (fun _ => ⟨rfl, rfl, rfl, rfl⟩) h)

theorem reexamine_spares (n : LineId) (h : Spares true A b s) : Spares true A b (reexamine n s) := by
  unfold reexamine changeoverCheck
  have hr := refreshSlot_spares n h
  split
  · exact loadSlot_spares _ _ hr
  · exact hr

/-! ### Changes of one record -/

theorem monitor_spares (n : Nat) (h : Spares p A b s) : Spares p A b (monitor n s) := by
  unfold monitor removeDeadline addDeadline
  split
  · exact h
  · split
    case h_7 =>
      dsimp only
      split
      · exact ite_spares (fun _ => setDeadlines_spares _ h) fun _ => setDeadlines_spares _ (setDeadlines_spares _ h)
      · exact setDeadlines_spares _ h
    all_goals first | exact h | exact setDeadlines_spares _ h

theorem applyChange_spares (n : Nat) (f : DestRec → DestRec) (hf : A n ∨ ∀ r, RecStays false r (f r)) (h : Spares p A b s) :
    Spares p A b (applyChange n f s) :=
  monitor_spares n ((writeEntry_still n (.refl _)).sparing (modRec_spares n f hf h))

theorem finish_spares (n : Nat) (st : DestState) (d : Detail) (ha : A n) (h : Spares p A b s) : Spares p A b (finish n st d s) :=
  (dropControl_still _ (.refl _)).sparing (applyChange_spares n _ (.inl ha) h)

theorem detachRec_spares (n : Nat) (h : Spares p A b s) : Spares p A b (detachRec n s) := by
  unfold detachRec
  split
  · exact h
  · split
    · exact leaveQueue_spares _ _ h
    · exact stopSending_spares _ _ h
    all_goals exact h

theorem sendWithdraw_spares (n : Nat) (h : Spares p A b s) : Spares p A b (sendWithdraw n s) := by
  unfold sendWithdraw
  split
  · exact h
  · split
    · exact h
    · exact (offer_still _ _ (.refl _)).sparing
        (modRec_spares n _ (.inr fun _ => ⟨rfl, rfl, rfl, rfl, rfl, rfl, .inl rfl⟩) h)

theorem sendOwedWithdraw_spares (n : Nat) (h : Spares p A b s) : Spares p A b (sendOwedWithdraw n s) := by
  unfold sendOwedWithdraw
  split
  · exact h
  · exact ite_spares (fun _ => sendWithdraw_spares n h) fun _ => h

theorem takeBack_spares (n : Nat) (r : DestRec) (x : RetractEnd) (d : Detail) (ha : A n) (h : Spares p A b s) :
    Spares p A b (takeBack n r x d s) :=
  ite_spares (fun _ => sendOwedWithdraw_spares n ((dropControl_still _ (.refl _)).sparing (applyChange_spares n _ (.inl ha) h)))
    fun _ => finish_spares n _ d ha h

/-- Retraction of a record that is not SENDING makes no pick. -/
theorem retract_spares (n : Nat) (x : RetractEnd) (d : Detail) (ha : A n)
    (hp : p = true ∨ ∀ r, s.rec? n = some r → r.state ≠ .sending) (h : Spares p A b s) : Spares p A b (retract n x d s) := by
  unfold retract
  split
  · exact h
  · next r hr =>
    have hb := takeBack_spares n r x d ha (detachRec_spares n h)
    refine ite_spares (fun _ => h) fun _ => ite_spares (fun hs => ?_) fun _ => hb
    rcases hp with rfl | hp
    · exact pick_spares _ hb
    · exact absurd hs (hp r hr)

theorem retractAlone_spares (n : Nat) (x : RetractEnd) (d : Detail) (ha : A n) (h : Spares true A b s) :
    Spares true A b (retractAlone n x d s) := by
  unfold retractAlone
  split
  · exact h
  · exact reexamine_spares _ (retract_spares n x d ha (.inl rfl) h)

theorem placeRaw_spares (n : Nat) (ha : A n) (h : Spares true A b s) : Spares true A b (placeRaw n s) := by
  unfold placeRaw
  split
  · exact h
  · split
    · refine pick_spares _ (applyChange_spares n _ (.inl ha) (joinQueue_spares _ _ (fun m e => ?_) (updateL_spares n
        (modRec_spares n _ (.inl ha) h))))
      cases e
      exact ha
    · exact applyChange_spares n _ (.inl ha) (updateL_spares n (modRec_spares n _ (.inl ha) h))
    · exact retract_spares n _ _ ha (.inl rfl) h

/-- A record that is not placed in its queue makes no pick. -/
theorem placeRaw_spares_quiet {r : DestRec} (n : Nat) (ha : A n) (hr : s.rec? n = some r) (hs : r.state ≠ .sending)
    (hq : placement s r ≠ .queued) (h : Spares p A b s) : Spares p A b (placeRaw n s) := by
  unfold placeRaw
  rw [hr]
  dsimp only
  split
  · next e => exact absurd e hq
  · exact applyChange_spares n _ (.inl ha) (updateL_spares n (modRec_spares n _ (.inl ha) h))
  · refine retract_spares n _ _ ha (.inr fun q hq => ?_) h
    rw [hr] at hq
    cases hq
    exact hs

theorem place_spares (n : Nat) (ha : A n) (h : Spares true A b s) : Spares true A b (place n s) := by
  unfold place
  split
  · exact h
  · exact reexamine_spares _ (placeRaw_spares n ha h)

end Sys2Proof.Machine
end

section
/-! What is kept of the queues and the pool at the end of page entries and at the outcomes of passes and reads (R9 to R12, R17, R18,
R52, R64). -/

namespace Sys2Proof.Machine

variable {b s t : State}

/-! ### Tables -/

section Tables

variable {α : Type}

theorem Table.mem_of_get {t : Table α} {n : Nat} {a : α} (h : Table.get t n = some a) : (n, a) ∈ t := by
  induction t with
  | nil => cases h
  | cons e t ih =>
    obtain ⟨k, c⟩ := e
    unfold Table.get at h
    split at h
    · next e => cases h; exact e ▸ .head _
    · exact .tail _ (ih h)

theorem Table.get_of_mem {t : Table α} (hr : Table.rising t = true) {n : Nat} {a : α} (h : (n, a) ∈ t) :
    Table.get t n = some a := by
  rw [Table.rising_iff] at hr
  induction t with
  | nil => cases h
  | cons e t ih =>
    obtain ⟨k, c⟩ := e
    simp only [Table.keys, List.map_cons, List.pairwise_cons] at hr
    rcases List.mem_cons.1 h with e | h
    · cases e; simp [Table.get]
    · have : k < n := hr.1 n (List.mem_map.2 ⟨_, h, rfl⟩)
      rw [Table.get, if_neg (by omega)]
      exact ih hr.2 h

theorem Table.get_foldl_del (xs : List Nat) (t : Table α) (i : Nat) :
    Table.get (xs.foldl (fun t n => Table.del t n) t) i = if i ∈ xs then none else Table.get t i := by
  induction xs generalizing t with
  | nil => simp
  | cons x xs ih =>
    rw [List.foldl_cons, ih, Table.get_del]
    by_cases h1 : i = x <;> by_cases h2 : i ∈ xs <;> simp [h1, h2]

theorem Table.rising_foldl_del (xs : List Nat) {t : Table α} (h : Table.rising t = true) :
    Table.rising (xs.foldl (fun t n => Table.del t n) t) = true := by
  induction xs generalizing t with
  | nil => exact h
  | cons x xs ih => exact ih (Table.rising_del h x)

theorem Table.map_foldl_del {β : Type} (f : α → β) (xs : List Nat) (t : Table α) :
    (xs.foldl (fun t n => Table.del t n) t).map (fun e => (e.1, f e.2)) =
      xs.foldl (fun t n => Table.del t n) (t.map fun e => (e.1, f e.2)) := by
  induction xs generalizing t with
  | nil => rfl
  | cons x xs ih =>
    rw [List.foldl_cons, List.foldl_cons, ih]
    congr 1
    simp [Table.del, List.filter_map, Function.comp_def]

end Tables

/-! ### Light changes of a page, a line and a link -/

theorem modPage_keeps (n : Nat) (f : Page → Page) (hf : ∀ p, (f p).dests = p.dests) (h : Keeps b s) : Keeps b (s.modPage n f) :=
  (modPage_light n f hf (.refl _)).keeps h

theorem modLine_view_keeps (n : LineId) (f : Line → Line) (hf : ∀ k, (f k).view = k.view) (h : Keeps b s) :
    Keeps b (s.modLine n f) :=
  (modLine_light n f hf (.refl _)).keeps h

theorem modLink_view_keeps (l : LinkId) (f : Link → Link) (hf : ∀ k, (f k).queue = k.queue ∧ (f k).sending = k.sending)
    (h : Keeps b s) : Keeps b (s.modLink l f) :=
  (modLink_light l f hf (.refl _)).keeps h

/-! ### The end of a page entry (R18) -/

/-- The records of a page go back to the free list, and its entry. -/
def dropPage (n : Nat) (ds : List Nat) (s : State) : State :=
  (ds.foldl (fun s i => s.delRec i) (s.setFree (s.free ++ ds))).delPage n

theorem foldl_delRec (ds : List Nat) (s : State) :
    ds.foldl (fun s i => s.delRec i) s = { s with recs := ds.foldl (fun t n => Table.del t n) s.recs } := by
  induction ds generalizing s with
  | nil => rfl
  | cons d ds ih => exact ih _

theorem dropPage_eq (n : Nat) (ds : List Nat) (s : State) : dropPage n ds s =
    { s with free := s.free ++ ds, recs := ds.foldl (fun t n => Table.del t n) s.recs, pages := Table.del s.pages n } := by
  unfold dropPage
  rw [foldl_delRec]
  rfl

theorem dropPage_rec (n : Nat) (ds : List Nat) (s : State) (i : Nat) :
    (dropPage n ds s).rec? i = if i ∈ ds then none else s.rec? i := by
  rw [dropPage_eq]
  exact Table.get_foldl_del ds s.recs i

theorem dropPage_pooled {n : Nat} {ds : List Nat} (hp : Table.get (pageViews s) n = some ds) (h : s.Pooled) :
    (dropPage n ds s).Pooled := by
  have hrecs : recViews (dropPage n ds s) = ds.foldl (fun t n => Table.del t n) (recViews s) := by
    rw [dropPage_eq]; exact Table.map_foldl_del _ _ _
  have hpages : pageViews (dropPage n ds s) = Table.del (pageViews s) n := by
    rw [dropPage_eq]
    exact (Table.map_foldl_del Page.dests [n] s.pages)
  have hfree : (dropPage n ds s).free = s.free ++ ds := by rw [dropPage_eq]
  have hline : ∀ m, (dropPage n ds s).line m = s.line m := fun m => by rw [dropPage_eq]; rfl
  obtain ⟨hn, hr⟩ := h.dests _ (Table.mem_of_get hp)
  unfold State.Pooled
  rw [hrecs, hpages, hfree]
  simp only [hline]
  refine ⟨Table.rising_foldl_del ds h.recsRise, Table.rising_del h.pagesRise n, ⟨?_, fun i hi => ?_⟩, fun e he => ?_,
    fun i v hv => ?_, h.slots⟩
  · refine List.nodup_append.2 ⟨h.free.1, hn, fun i hi j hj e => ?_⟩
    subst e
    obtain ⟨v, hv, _⟩ := hr i hj
    rw [h.free.2 i hi] at hv
    cases hv
  · rw [Table.get_foldl_del]
    split
    · rfl
    · next c => exact h.free.2 i ((List.mem_append.1 hi).resolve_right c)
  · obtain ⟨hm, hne⟩ := List.mem_filter.1 he
    refine ⟨(h.dests e hm).1, fun i hi => ?_⟩
    obtain ⟨v, hv, hpar⟩ := (h.dests e hm).2 i hi
    refine ⟨v, ?_, hpar⟩
    rw [Table.get_foldl_del, if_neg]
    · exact hv
    · intro c
      obtain ⟨v', hv', hpar'⟩ := hr i c
      rw [hv] at hv'
      cases hv'
      exact (bne_iff_ne.1 hne) (hpar.symm.trans hpar')
  · rw [Table.get_foldl_del] at hv
    split at hv
    · cases hv
    · exact h.lives i v hv

/-- A page whose destinations have ended is freed. -/
theorem dropPage_keeps {n : Nat} {ds : List Nat} (hp : Table.get (pageViews s) n = some ds)
    (he : ∀ i ∈ ds, ∀ v, Table.get (recViews s) i = some v → v.state.isFinal = true) (h : Keeps b s) :
    Keeps b (dropPage n ds s) := by
  refine h.trans ⟨⟨?_, ?_, fun i ⟨r, hr, hf⟩ => ⟨r, ?_, hf⟩⟩, fun k => ⟨?_, dropPage_pooled hp k.pool⟩⟩
  · rw [dropPage_eq]
  · rw [dropPage_eq]; exact List.Sublist.refl _
  · rw [dropPage_rec] at hr
    split at hr
    · cases hr
    · exact hr
  · have hroutes : (dropPage n ds s).routes = s.routes := by rw [dropPage_eq]; rfl
    rw [hroutes]
    have hl : ∀ l, (dropPage n ds s).link l = s.link l := fun l => by rw [dropPage_eq]; rfl
    refine k.ordered.restands (fun l => congrArg Link.queue (hl l)) (fun l => congrArg Link.sending (hl l))
      (by rw [dropPage_eq]; rfl) fun l y o => ?_
    cases y with
    | slot m => rw [dropPage_eq]; rfl
    | dest i =>
      show ((dropPage n ds s).rec? i).map _ = (s.rec? i).map _
      rw [dropPage_rec, if_neg]
      intro c
      refine (k.idle_dest fun r hr => ?_).not_on l o
      exact DestState.apart_of_final (he i c r.view (by rw [get_recViews, hr]; rfl))

theorem freePage_keeps {n : Nat} {p : Page} (hp : s.page? n = some p) (he : pageEnded s p = true) (h : Keeps b s) :
    Keeps b (freePage n p s) := by
  have hlight : Light s (finalDisposition p.orderAddr (pageOutcome (leaveVerify (.page n) s) p).1
      (pageOutcome (leaveVerify (.page n) s) p).2 (leaveVerify (.page n) s)) :=
    (finalDisposition_still _ _ _ (.refl _)).after (leaveVerify_light _ (.refl _))
  refine dropPage_keeps (ds := p.dests) ?_ (fun i hi v hv => ?_) (hlight.keeps h)
  · rw [hlight.pages, get_pageViews, hp]; rfl
  · rw [hlight.recs, get_recViews] at hv
    obtain ⟨r, hr, rfl⟩ := Option.map_eq_some_iff.1 hv
    have := List.all_eq_true.1 he i hi
    rw [hr] at this
    exact this

theorem pageEndCheck_keeps (n : Nat) (h : Keeps b s) : Keeps b (pageEndCheck n s) := by
  unfold pageEndCheck
  split
  · exact h
  · next p hp => exact ite_keeps (fun he => freePage_keeps hp he h) fun _ => h

theorem pageEndOf_keeps (n : Nat) (h : Keeps b s) : Keeps b (pageEndOf n s) := by
  unfold pageEndOf
  split
  · exact h
  · exact ite_keeps (fun _ => pageEndCheck_keeps _ h) fun _ => h

theorem sweepPages_keeps (h : Keeps b s) : Keeps b (sweepPages s) :=
  foldl_keeps _ (fun _ n h => pageEndCheck_keeps n h) _ h

/-! ### Outcomes of a pass -/

theorem faultPage_keeps (n : Nat) (why : SourceFault) (h : Keeps b s) : Keeps b (faultPage n why s) := by
  unfold faultPage
  split
  · exact h
  · exact (raise_still _ (.refl _)).keeps (retractPage_keeps _ _ _ (modPage_keeps n _ (fun _ => rfl) h))

/-- A record whose page is being verified is placed. -/
theorem placeVerified_keeps (i : Nat) (h : Keeps b s) :
    Keeps b (match s.rec? i with
      | some r => if r.state = .verifyWait then place i s else s
      | none => s) := by
  split
  · next r hr =>
    exact ite_keeps (fun hv => place_keeps i (fun k => (h.kept k).aside hr (by rw [hv]; rfl) (by rw [hv]; rfl)) h) fun _ => h
  · exact h

theorem pagePassEnd_keeps (n : Nat) (crc : U32) (h : Keeps b s) : Keeps b (pagePassEnd n crc s) := by
  unfold pagePassEnd
  split
  · exact h
  · have hc : Keeps b (s.modPage n fun e => { e with computedCrc := some crc }) :=
      modPage_keeps n _ (fun _ => rfl) h
    refine ite_keeps (fun _ => foldl_keeps _ (fun _ i h => placeVerified_keeps i h) _ ?_) fun _ => faultPage_keeps n _ hc
    exact modPage_keeps n _ (fun _ => rfl) hc

theorem catalogPassFault_keeps (n : LineId) (g : U16) (why : SourceFault) (crc : Option U32) (h : Keeps b s) :
    Keeps b (catalogPassFault n g why crc s) :=
  reexamine_keeps n (retractMany_keeps _ _ _ ((raise_still _ (.refl _)).keeps ((setCatState_light n g _ 1 1 (.refl _)).keeps h)))

theorem catalogPassEnd_keeps (n : LineId) (g : U16) (crc : U32) (h : Keeps b s) : Keeps b (catalogPassEnd n g crc s) := by
  unfold catalogPassEnd
  split
  · exact h
  · exact ite_keeps (fun _ => reexamine_keeps n ((setCatState_light n g _ 1 0 (.refl _)).keeps h))
      fun _ => catalogPassFault_keeps n g _ _ h

theorem passEnd_keeps (bytes : List Byte) (h : Keeps b s) : Keeps b (passEnd bytes s) := by
  unfold passEnd
  split
  · exact h
  · have hc : Keeps b (bumpCounter .verifyPasses (s.modVerify fun v => { v with busy := none })) :=
      (bumpCounter_still _ (.refl _)).keeps ((modVerify_light _ (.refl _)).keeps h)
    dsimp only
    split
    · exact pageEndCheck_keeps _ (pagePassEnd_keeps _ _ hc)
    · exact sweepPages_keeps (catalogPassEnd_keeps _ _ _ hc)

theorem passReadError_keeps (h : Keeps b s) : Keeps b (passReadError s) := by
  unfold passReadError
  split
  · exact h
  · have hv : Keeps b (s.modVerify fun v => { v with busy := none }) := (modVerify_light _ (.refl _)).keeps h
    dsimp only
    split
    · exact pageEndCheck_keeps _ (faultPage_keeps _ _ hv)
    · exact sweepPages_keeps (catalogPassFault_keeps _ _ _ _ hv)

/-! ### Read errors while sending -/

theorem pageReadError_keeps (n : Nat) (h : Keeps b s) : Keeps b (pageReadError n s) := by
  unfold pageReadError
  split
  · exact h
  · split
    · exact h
    · split
      · exact pageEndCheck_keeps _ (faultPage_keeps _ _ h)
      · exact (raise_still _ (.refl _)).keeps h
      all_goals exact h

theorem slotReadError_keeps (n : LineId) (h : Keeps b s) : Keeps b (slotReadError n s) := by
  unfold slotReadError
  split
  · exact h
  · refine ite_keeps (fun _ => sweepPages_keeps (reexamine_keeps n (retractMany_keeps _ _ _ (changeoverCheck_keeps n
      (abortSlot_keeps n ?_))))) fun _ => h
    exact (raise_still _ (.refl _)).keeps ((setCatState_light n _ _ 0 1 (.refl _)).keeps h)

end Sys2Proof.Machine
end

section
/-! What is kept of the queues and the pool by changes of press lines and of link states (R31, R32, R60, R62, R66, R73, R129 to R140,
R155, R158). -/

namespace Sys2Proof.Machine

variable {b s t : State} {home : LinkId → LineId → Prop} {loose : Xfer → Prop}

/-! ### Transfers that stay where they stand: nowhere -/

theorem joinQueue_idle {l : LinkId} {x y : Xfer} (hy : y ≠ x) (h : s.layout.Idle y) : (joinQueue l x s).layout.Idle y := by
  have hr : ∀ m, (roomForSeq s).link m = s.link m := by
    intro m
    unfold roomForSeq
    split
    · exact (renumberFrom_frame (sequenced s) 0 s).1 m
    · rfl
  refine (joinQueue_light l x s).idle fun m => ?_
  obtain ⟨hq, hs⟩ := h m
  have hf : (setSeq x (roomForSeq s).seqNext (roomForSeq s)).link m = s.link m := ((setSeq_frame x _ _).1 m).trans (hr m)
  rw [layout_modLink]
  dsimp only
  split
  · next e =>
    subst e
    exact ⟨fun c => (mem_insertByKey.1 c).elim hy fun c => hq ((congrArg (fun k : Link => y ∈ k.queue) hf).mp c),
      (congrArg (fun k : Link => k.sending ≠ some y) hf).mpr hs⟩
  · exact ⟨(congrArg (fun k : Link => y ∉ k.queue) hf).mpr hq, (congrArg (fun k : Link => k.sending ≠ some y) hf).mpr hs⟩

theorem pick_idle {l : LinkId} {y : Xfer} (h : s.layout.Idle y) : (pick l s).layout.Idle y := by
  unfold pick
  dsimp only
  split
  · split
    · next x hx =>
      refine (kick_light l (.refl _)).idle ((beginSending_still l x s).light.idle fun m => ?_)
      obtain ⟨hq, hs⟩ := h m
      have hxy : x ≠ y := fun e => (h l).1 (e ▸ List.mem_of_find?_eq_some hx)
      show y ∉ ((markSending x (takePicked l x s)).link m).queue ∧ ((markSending x (takePicked l x s)).link m).sending ≠ some y
      rw [markSending_link, takePicked, State.link_modLink]
      split
      · next e => exact ⟨fun c => (h l).1 (List.mem_filter.1 c).1, fun c => hxy (Option.some.inj c)⟩
      · exact ⟨hq, hs⟩
    · exact h
  · exact h

theorem leaveQueue_idle {l : LinkId} {x y : Xfer} (h : s.layout.Idle y) : (leaveQueue l x s).layout.Idle y := by
  intro m
  rw [leaveQueue_layout]
  refine ⟨fun c => ?_, (h m).2⟩
  dsimp only at c
  split at c
  · next e => exact (h m).1 (e ▸ (List.mem_filter.1 c).1)
  · exact (h m).1 c

theorem stopSending_idle {l : LinkId} {x y : Xfer} (h : s.layout.Idle y) : (stopSending l x s).layout.Idle y := by
  intro m
  rw [stopSending_layout]
  refine ⟨(h m).1, fun c => ?_⟩
  dsimp only at c
  split at c
  · cases c
  · exact (h m).2 c

theorem detachRec_idle_of_idle {n : Nat} {y : Xfer} (h : s.layout.Idle y) : (detachRec n s).layout.Idle y := by
  unfold detachRec
  split
  · exact h
  · split
    · exact leaveQueue_idle h
    · exact stopSending_idle h
    all_goals exact h

/-- A change of a record moves no transfer. -/
theorem applyChange_idle {n : Nat} {f : DestRec → DestRec} {y : Xfer} (h : s.layout.Idle y) :
    (applyChange n f s).layout.Idle y := by
  refine (monitor_light n (.refl _)).idle ((writeEntry_still n (.refl _)).light.idle ?_)
  exact h

theorem finish_idle {n : Nat} {st : DestState} {d : Detail} {y : Xfer} (h : s.layout.Idle y) :
    (finish n st d s).layout.Idle y :=
  (dropControl_still _ (.refl _)).light.idle (applyChange_idle h)

theorem takeBack_idle {n : Nat} {r : DestRec} {x : RetractEnd} {d : Detail} {y : Xfer} (h : s.layout.Idle y) :
    (takeBack n r x d s).layout.Idle y := by
  unfold takeBack
  split
  · exact (sendOwedWithdraw_light n (.refl _)).idle ((dropControl_still _ (.refl _)).light.idle (applyChange_idle h))
  · exact finish_idle h

theorem retract_idle {n : Nat} {x : RetractEnd} {d : Detail} {y : Xfer} (h : s.layout.Idle y) :
    (retract n x d s).layout.Idle y := by
  unfold retract
  split
  · exact h
  · next r _ =>
    split
    · exact h
    · have hb := takeBack_idle (n := n) (r := r) (x := x) (d := d) (detachRec_idle_of_idle (n := n) h)
      dsimp only
      split
      · exact pick_idle hb
      · exact hb

theorem retractMany_idle {ids : List Nat} {x : RetractEnd} {d : Detail} {y : Xfer} (h : s.layout.Idle y) :
    (retractMany ids x d s).layout.Idle y := by
  induction ids generalizing s with
  | nil => exact h
  | cons i ids ih => exact ih (retract_idle h)

theorem requeueSlot_idle {n m : LineId} {f : Slot → Slot} (hm : m ≠ n) (h : s.layout.Idle (.slot m)) :
    (requeueSlot n f s).layout.Idle (.slot m) := by
  unfold requeueSlot
  split
  · exact h
  · exact pick_idle (joinQueue_idle (fun e => hm (Xfer.slot.inj e)) ((writeLineMirror_still n (.refl _)).light.idle h))

/-! ### Records in their places -/

/-- Of a state whose queues are in order every record is in its place. -/
theorem State.Laid.inPlace (h : s.Kept) {i : Nat} {r : DestRec} (hr : s.rec? i = some r) : InPlace s i r := fun l hl => by
  obtain ⟨hq, hh⟩ := (h.place_of_stand (stand_dest hr) l).1 hl
  exact ⟨DestState.eq_queued hq, Eq.symm hh⟩

/-- A record that stands nowhere and is left alone stands nowhere still. -/
theorem StaysAs.aside {p : Bool} {i : Nat} {r : DestRec} (h : StaysAs p t i r) (ht : t.Kept) (ha : r.state.standing = .apart)
    (hl : r.state.isFinal = false) : Aside t i := by
  obtain ⟨r', hr', hs, _⟩ := h
  have hst : r'.state = r.state := hs.state.resolve_right fun ⟨_, e, _⟩ => by rw [e] at ha; cases ha
  exact ht.aside hr' (hst ▸ ha) (hst ▸ hl)

/-- Operations on records each of which the operations on the others leave alone. -/
theorem foldl_spared {p : Bool} {s0 : State} (f : State → Nat → State) (ids : List Nat) (hn : b.Kept → ids.Nodup)
    (hf : ∀ s, ∀ i ∈ ids, Keeps b s → (b.Kept → Spares p (· ≠ i) s0 s) → Keeps b (f s i) ∧
      (b.Kept → ∀ A : Nat → Prop, A i → Spares p A s0 s → Spares p A s0 (f s i)))
    (hs : b.Kept → Spares p (· ∉ ids) s0 s) (h : Keeps b s) : Keeps b (ids.foldl f s) := by
  induction ids generalizing s with
  | nil => exact h
  | cons i ids ih =>
    have hne : b.Kept → Spares p (· ≠ i) s0 s := fun k => (hs k).mono fun j hj e => hj (e ▸ .head _)
    obtain ⟨hk, hsp⟩ := hf s i (.head _) h hne
    refine ih (fun k => (List.nodup_cons.1 (hn k)).2) (fun s j hj => hf s j (.tail _ hj)) (fun k => ?_) hk
    exact hsp k (· ∉ ids) (List.nodup_cons.1 (hn k)).1 ((hs k).mono fun j hj c => hj (.tail _ c))

theorem State.Laid.keys_nodup (h : s.Laid home loose) : (Table.keys s.recs).Nodup := by
  have := (Table.rising_iff _).1 h.pool.recsRise
  rw [keys_recViews] at this
  exact this.imp (fun h => Nat.ne_of_lt h)

/-- Records listed from the table are listed once. -/
theorem State.Laid.listed_nodup (h : s.Laid home loose) (p : Nat × DestRec → Bool) :
    ((s.recs.filter p).map fun e => e.1).Nodup :=
  h.keys_nodup.sublist (List.filter_sublist.map _)

theorem linesOn_nodup (s : State) (l : LinkId) : (s.linesOn l).Nodup :=
  (List.nodup_finRange 64).sublist List.filter_sublist

theorem place_mod_keeps (n : Nat) (f : DestRec → DestRec) (hf : ∀ r, (f r).view = r.view) (ha : b.Kept → Aside s n)
    (h : Keeps b s) : Keeps b (place n (s.modRec n f)) := by
  have hm := modRec_light n f hf (.refl s)
  exact place_keeps n (fun k => hm.aside (ha k)) (hm.keeps h)

/-! ### Changes of line states -/

theorem pickIfReady_keeps (old : Line) (n : LineId) (h : Keeps b s) : Keeps b (pickIfReady old n s) :=
  ite_keeps (fun _ => pick_keeps _ h) fun _ => h

theorem changeLine_keeps (n : LineId) (f : Line → Line) (hf : ∀ k, (f k).view = k.view) (h : Keeps b s) :
    Keeps b (changeLine n f s) :=
  (changeLine_light n f hf (.refl _)).keeps h

theorem enterLineState_keeps (p : LineId × LineState) (h : Keeps b s) : Keeps b (enterLineState s p) :=
  pickIfReady_keeps _ _ (changeLine_keeps p.1 _ (fun _ => rfl) h)

theorem setLineStates_keeps (ns : List (LineId × LineState)) (h : Keeps b s) : Keeps b (setLineStates ns s) :=
  (raiseIfAnyChanged_still _ (.refl _)).keeps (foldl_keeps _ (fun _ p h => enterLineState_keeps p h) _ h)

theorem closeWindow_keeps (l : LinkId) (w : RollWindow) (h : Keeps b s) : Keeps b (closeWindow l w s) := by
  have hs := setLineStates_keeps (rollStates s l w) ((shutWindow_still l (.refl _)).keeps h)
  exact (finishOrders_still _ _ (.refl _)).keeps (foldl_keeps _ (fun _ n h => (askQuery_light n (.refl _)).keeps h) _ hs)

theorem rollWindowClose_keeps (l : LinkId) (h : Keeps b s) : Keeps b (rollWindowClose l s) := by
  unfold rollWindowClose
  split
  · exact ite_keeps (fun _ => closeWindow_keeps l _ h) fun _ => h
  · exact h

/-! ### A held generation changes (R60, R66) -/

theorem replaceQueued_keeps (n : Nat) (hq : b.Kept → ∀ r, s.rec? n = some r → r.state = .queued) (h : Keeps b s) :
    Keeps b (replaceQueued n s) := by
  unfold replaceQueued
  split
  · exact h
  · next r hr =>
    refine placeRaw_keeps n (fun k => ?_) (leaveQueue_keeps _ _ h)
    have e : leaveQueue (s.linkOf r.line) (.dest n) s = detachRec n s := by
      unfold detachRec
      rw [hr]
      dsimp only
      rw [hq k r hr]
    rw [e]
    refine ⟨detachRec_idle n (h.kept k), fun q hq' => ?_⟩
    rw [detachRec_rec, hr] at hq'
    cases hq'
    rw [hq k r hr]
    rfl

theorem leaveQueue_rec (l : LinkId) (x : Xfer) (i : Nat) (s : State) : (leaveQueue l x s).rec? i = s.rec? i := by
  unfold leaveQueue
  split
  · exact (schedMirror_still l (.refl _)).rec? i
  · rfl

theorem replaceQueued_spares {p : Bool} {A : Nat → Prop} {n : Nat} {r : DestRec} (ha : A n) (hr : s.rec? n = some r)
    (hs : r.state ≠ .sending) (hp : placement s r ≠ .queued) (h : Spares p A b s) : Spares p A b (replaceQueued n s) := by
  unfold replaceQueued
  rw [hr]
  have hl := leaveQueue_spares (p := p) (A := A) (s.linkOf r.line) (.dest n) (.refl s)
  refine placeRaw_spares_quiet n ha ((leaveQueue_rec _ _ _ _).trans hr) hs ?_ (h.trans hl)
  rw [hl.placement rfl rfl]
  exact hp

/-- A record whose generation its line does not hold is not placed in the queue (R25). -/
theorem placement_not_queued {r : DestRec} (h0 : s.recGen r ≠ 0) (hh : (s.line r.line).held ≠ s.recGen r) :
    placement s r ≠ .queued := by
  unfold placement
  dsimp only
  rw [if_neg fun c => c.elim h0 hh]
  split
  · split <;> nofun
  · nofun

/-- The QUEUED records of a line whose generation it holds no more are placed again, each still QUEUED at its turn. -/
theorem replaceOthers_keeps (n : LineId) (h : Keeps b s) :
    Keeps b ((queuedOtherThan s n (s.line n).held).foldl (fun s i => replaceQueued i s) s) := by
  have hlist : ∀ i ∈ queuedOtherThan s n (s.line n).held, b.Kept → ∃ r, s.rec? i = some r ∧ r.state = .queued ∧
      placement s r ≠ .queued := by
    intro i hi k
    obtain ⟨hof, hq⟩ := List.mem_filter.1 hi
    obtain ⟨⟨j, q⟩, he, rfl⟩ := List.mem_map.1 hof
    obtain ⟨hm, hl⟩ := List.mem_filter.1 he
    have hrise : Table.rising s.recs = true := by
      rw [Table.rising_iff, ← keys_recViews, ← Table.rising_iff]; exact (h.kept k).pool.recsRise
    have hr : s.rec? j = some q := Table.get_of_mem hrise hm
    have hline : q.line = n := by simpa using hl
    rw [hr] at hq
    simp only [Bool.and_eq_true, beq_iff_eq, bne_iff_ne] at hq
    refine ⟨q, hr, hq.1.1, placement_not_queued hq.1.2 ?_⟩
    rw [hline]
    exact Ne.symm hq.2
  have hnd : b.Kept → (queuedOtherThan s n (s.line n).held).Nodup := fun k =>
    ((h.kept k).listed_nodup _).sublist List.filter_sublist
  refine foldl_spared (p := false) (s0 := s) _ _ hnd (fun t i hi ht hsp => ?_) (fun _ => .refl _) h
  have hturn : b.Kept → ∃ r, t.rec? i = some r ∧ r.state = .queued ∧ placement t r ≠ .queued := fun k => by
    obtain ⟨r, hr, hq, hp⟩ := hlist i hi k
    obtain ⟨r', hr', hs, _⟩ := (hsp k).recs i r (fun c => c rfl) hr ((h.kept k).inPlace hr)
    refine ⟨r', hr', (hs.state.resolve_right fun c => by cases c.1).trans hq, ?_⟩
    rw [(hsp k).placement hs.parent hs.line]
    exact hp
  refine ⟨replaceQueued_keeps i (fun k r hr => ?_) ht, fun k A ha hA => ?_⟩
  · obtain ⟨r', hr', hq, _⟩ := hturn k
    rw [hr] at hr'
    cases hr'
    exact hq
  · obtain ⟨r', hr', hq, hp⟩ := hturn k
    exact replaceQueued_spares ha hr' (by rw [hq]; nofun) hp hA

theorem targetLost_keeps (n : LineId) (h : Keeps b s) : Keeps b (targetLost n s) := by
  unfold targetLost
  refine ite_keeps (fun _ => changeoverCheck_keeps n h) fun _ => reexamine_keeps n ?_
  have hs := (writeLineMirror_still n (.refl _)).keeps (modLine_view_keeps n (fun k => { k with held := 0 }) (fun _ => rfl) h)
  have hh : ((writeLineMirror n (s.modLine n fun k => { k with held := 0 })).line n).held = 0 := by
    rw [(writeLineMirror_still n (.refl _)).line, State.line_modLine_self]
  have := replaceOthers_keeps n hs
  rwa [hh] at this

theorem statusReply_keeps (n : LineId) (c : Byte) (h : Keeps b s) : Keeps b (statusReply n c s) := by
  unfold statusReply
  have h1 := modLine_view_keeps n (fun k => { k with statusByte := c, timeouts := 0 }) (fun _ => rfl)
    ((clearQuery_light n (.refl _)).keeps h)
  have h2 := ite_keeps (p := statusTargetLost c = true) (fun _ => targetLost_keeps n h1) fun _ => h1
  have h3 := modLine_view_keeps n (fun k => { k with state := statusState c }) (fun _ => rfl) h2
  have h4 := (raiseIfChanged_still (s.line n) n (.refl _)).keeps ((settleLine_light (s.line n) n (.refl _)).keeps h3)
  exact sweepPages_keeps ((finishOrders_still _ _ (.refl _)).keeps (pickIfReady_keeps _ n h4))

/-! ### Coming up (R139) -/

theorem recLinkUp_keeps (n : Nat) (h : Keeps b s) : Keeps b (recLinkUp n s) := by
  have hm : Keeps b (s.modRec n fun q => { q with timer := q.timer.resume }) :=
    (modRec_light n (fun q => { q with timer := q.timer.resume }) (fun _ => rfl) (.refl _)).keeps h
  unfold recLinkUp
  split
  · exact h
  · split
    · exact ite_keeps (fun _ => (sendRelease_light n (.refl _)).keeps h) fun _ => hm
    · exact ite_keeps (fun _ => (sendWithdraw_light n (.refl _)).keeps h) fun _ => hm
    · exact releaseCheck_keeps n h
    all_goals exact h

theorem enterReleasing_aside {i j : Nat} (h : Aside s i) : Aside (enterReleasing j s) i := by
  refine (monitor_light j (.refl _)).aside ((writeEntry_still j (.refl _)).light.aside ⟨h.idle, fun r hr => ?_⟩)
  rw [rec_modRec] at hr
  split at hr
  · obtain ⟨q, _, rfl⟩ := Option.map_eq_some_iff.1 hr
    rfl
  · exact h.live r hr

/-- Records that pass the release check become RELEASING; each stands nowhere. -/
theorem foldl_enterReleasing_keeps (ids : List Nat) (ha : b.Kept → ∀ i ∈ ids, Aside s i) (h : Keeps b s) :
    Keeps b (ids.foldl (fun s n => enterReleasing n s) s) := by
  induction ids generalizing s with
  | nil => exact h
  | cons i ids ih =>
    exact ih (fun k j hj => enterReleasing_aside (ha k j (.tail _ hj))) (enterReleasing_keeps i (fun k => ha k i (.head _)) h)

theorem releasable_aside {l : LinkId} (h : s.Kept) {i : Nat} (hi : i ∈ releasable s l) : Aside s i := by
  obtain ⟨e, _, hm⟩ := List.mem_flatMap.1 hi
  have hr := (List.mem_filter.1 hm).2
  split at hr
  · next r hq =>
    have hd := mayRelease_delivered (Bool.and_eq_true_iff.1 hr).2
    exact h.aside hq (by rw [hd]; rfl) (by rw [hd]; rfl)
  · cases hr

theorem ownersUp_keeps (l : LinkId) (h : Keeps b s) : Keeps b (ownersUp l s) := by
  have h1 := foldl_enterReleasing_keeps (releasable s l) (fun k _ hi => releasable_aside (h.kept k) hi) h
  exact foldl_keeps _ (fun _ n h => (sendOwedTarget_light n (.refl _)).keeps h) _
    (foldl_keeps _ (fun _ n h => recLinkUp_keeps n h) _ h1)

theorem linkUp_keeps (l : LinkId) (h : Keeps b s) : Keeps b (linkUp l s) := by
  have h1 := modLink_view_keeps l (fun k => { k with state := .up, credit := Config.creditGrant, silence := some k.silenceLimit })
    (fun _ => ⟨rfl, rfl⟩) h
  have h2 : Keeps b (linesUp l _) := setLineStates_keeps _ ((linkChanged_still l (.refl _)).keeps h1)
  unfold linkUp
  exact pick_keeps l ((openWindow_still l _ (.refl _)).keeps (ownersUp_keeps l h2))

/-! ### Going down (R140) -/

theorem returnRec_keeps (n : Nat) (ha : b.Kept → Aside s n) (h : Keeps b s) : Keeps b (returnRec n s) :=
  place_mod_keeps n _ (fun _ => rfl) ha h

theorem returnSlot_keeps (n : LineId) (hi : b.Kept → s.layout.Idle (.slot n)) (h : Keeps b s) : Keeps b (returnSlot n s) :=
  requeueSlot_keeps n _ hi h

theorem clearSending_rec (l : LinkId) (i : Nat) (s : State) : (clearSending l s).rec? i = s.rec? i :=
  (schedMirror_still l (.refl _)).rec? i

/-- A record taken out of a SENDING slot stands nowhere and is in no final state. -/
theorem clearSending_aside {l : LinkId} {n : Nat} (h : s.Laid home loose) (hx : (s.link l).sending = some (.dest n)) :
    Aside (clearSending l s) n := by
  refine ⟨clearSending_idle h.ordered hx, fun r hr => ?_⟩
  rw [clearSending_rec] at hr
  obtain ⟨k, hk, hs, _⟩ := h.ordered.sends l _ hx
  rw [stand_dest hr] at hk
  cases hk
  rw [show r.state = .sending from DestState.eq_sending hs]
  rfl

theorem returnSending_keeps (l : LinkId) (h : Keeps b s) : Keeps b (returnSending l s) := by
  unfold returnSending
  split
  · exact h
  · next x hx =>
    have hc := clearSending_keeps l h
    cases x with
    | dest n => exact returnRec_keeps n (fun k => clearSending_aside (h.kept k) hx) hc
    | slot n => exact returnSlot_keeps n (fun k => clearSending_idle (h.kept k).ordered hx) hc

/-- Records of one state that stand nowhere, each placed again in its turn. -/
theorem foldl_place_keeps (f : Nat → State → State) (ids : List Nat) (st : DestState) (ha : st.standing = .apart)
    (hl : st.isFinal = false) (hn : b.Kept → ids.Nodup) (hids : b.Kept → ∀ i ∈ ids, ∃ r, s.rec? i = some r ∧ r.state = st)
    (hf : ∀ t i, (b.Kept → Aside t i) → Keeps b t → Keeps b (f i t))
    (hsp : ∀ (t : State) (i : Nat) (A : Nat → Prop), A i → Spares true A s t → Spares true A s (f i t)) (h : Keeps b s) :
    Keeps b (ids.foldl (fun s i => f i s) s) := by
  refine foldl_spared (p := true) (s0 := s) _ ids hn (fun t i hi ht hst => ?_) (fun _ => .refl _) h
  refine ⟨hf t i (fun k => ?_) ht, fun _ A hA hs => hsp t i A hA hs⟩
  obtain ⟨r, hr, rfl⟩ := hids k i hi
  exact ((hst k).recs i r (fun c => c rfl) hr ((h.kept k).inPlace hr)).aside (ht.kept k) ha hl

/-- What a filtered list of records holds. -/
theorem mem_state_filter {ids : List Nat} {st : DestState} {i : Nat}
    (hi : i ∈ ids.filter fun n => match s.rec? n with | some r => r.state == st | none => false) :
    ∃ r, s.rec? i = some r ∧ r.state = st := by
  have := (List.mem_filter.1 hi).2
  split at this
  · next r hr => exact ⟨r, hr, by simpa using this⟩
  · cases this

theorem returnRec_spares {A : Nat → Prop} (n : Nat) (ha : A n) (h : Spares true A b s) : Spares true A b (returnRec n s) :=
  place_spares n ha (modRec_spares n _ (.inl ha) h)

theorem ownersDown_keeps (l : LinkId) (h : Keeps b s) : Keeps b (ownersDown l s) := by
  have h1 : Keeps b ((receiptWaiters s l).foldl (fun s n => returnRec n s) s) :=
    foldl_place_keeps returnRec _ .receiptWait rfl rfl
      (fun k => ((h.kept k).listed_nodup _).sublist List.filter_sublist) (fun _ _ hi => mem_state_filter hi)
      (fun _ i => returnRec_keeps i) (fun _ i _ => returnRec_spares i) h
  have h2 : ∀ (ns : List LineId) (s : State), ns.Nodup → (b.Kept → ∀ n ∈ ns, s.layout.Idle (.slot n)) → Keeps b s →
      Keeps b (ns.foldl (fun s n => returnSlot n s) s) := by
    intro ns
    induction ns with
    | nil => exact fun _ _ _ h => h
    | cons n ns ih =>
      intro s hn hi h
      obtain ⟨hmem, hn⟩ := List.nodup_cons.1 hn
      refine ih _ hn (fun k m hm => ?_) (returnSlot_keeps n (fun k => hi k n (.head _)) h)
      exact requeueSlot_idle (fun e => hmem (e ▸ hm)) (hi k m (.tail _ hm))
  refine foldl_keeps _ (fun _ n h => (pauseTimer_light n (.refl _)).keeps h) _
    (h2 _ _ ((linesOn_nodup _ l).sublist List.filter_sublist) (fun k n hn => ?_) h1)
  refine (h1.kept k).idle_slot fun sl hsl => ?_
  have := (List.mem_filter.1 hn).2
  rw [hsl] at this
  have : sl.state = .confirmWait := by simpa using this
  rw [this]; rfl

theorem linkDown_keeps (l : LinkId) (st : LinkState) (h : Keeps b s) : Keeps b (linkDown l st s) := by
  have h1 : Keeps b (dropLink l st s) := modLink_view_keeps l _ (fun _ => ⟨rfl, rfl⟩) h
  exact (pollDown_light l (.refl _)).keeps (setLineStates_keeps _ (ownersDown_keeps l (returnSending_keeps l
    ((linkChanged_still l (.refl _)).keeps h1))))

theorem silenceTimeout_keeps (l : LinkId) (h : Keeps b s) : Keeps b (silenceTimeout l s) :=
  ite_keeps (fun _ => sweepPages_keeps (linkDown_keeps l _ h)) fun _ => h

theorem lossOfSignal_keeps (l : LinkId) (h : Keeps b s) : Keeps b (lossOfSignal l s) :=
  ite_keeps (fun _ => sweepPages_keeps (linkDown_keeps l _ h)) fun _ => h

theorem retryTimeout_keeps (l : LinkId) (h : Keeps b s) : Keeps b (retryTimeout l s) :=
  ite_keeps (fun _ => (linkChanged_still l (.refl _)).keeps (modLink_view_keeps l _ (fun _ => ⟨rfl, rfl⟩) h)) fun _ => h

end Sys2Proof.Machine
end

section
/-! What is kept of the queues and the pool by SET LINK, the running of transfers and arriving frames (R59 to R61, R73, R79, R83 to R86,
R138, R143, R147 to R149). -/

namespace Sys2Proof.Machine

variable {b s t : State} {home : LinkId → LineId → Prop} {loose : Xfer → Prop}

/-! ### SET LINK (R138, R73) -/

/-- A transfer's record or slot is at a line of a link. -/
def State.AtLink (s : State) (l : LinkId) (x : Xfer) : Prop := ∀ k, s.layout.stand x = some k → s.linkOf k.line = l

/-- What a recomputation of L and urgency leaves: the queues, the SENDING slots, and the order of all but the transfers at the
link. -/
structure Rekeyed (P : Xfer → Prop) (b s : State) : Prop where
  dues : Dues b s
  routes : s.routes = b.routes
  queue : ∀ l, (s.link l).queue = (b.link l).queue
  laid : b.Kept → s.Laid b.routes P

theorem updateL_link (n : Nat) (l : LinkId) (s : State) : (updateL n s).link l = s.link l := by unfold updateL; split <;> rfl

theorem updateL_rekeyed {P : Xfer → Prop} (n : Nat) (hn : b.Kept → P (.dest n)) (h : Rekeyed P b s) :
    Rekeyed P b (updateL n s) := by
  refine ⟨updateL_dues n h.dues, (updateL_routes n s).trans h.routes, fun l => ?_, fun k => ?_⟩
  · rw [updateL_link]; exact h.queue l
  · have := updateL_laid n (h.laid k)
    exact ⟨this.ordered.mono (fun _ _ p => p) fun _ _ _ c => c.elim (fun e => e ▸ hn k) id, this.pool⟩

theorem modSlot_rekeyed {P : Xfer → Prop} (n : LineId) (f : Slot → Slot) (hf : ∀ sl, (f sl).state = sl.state ∧ (f sl).seq = sl.seq)
    (hn : P (.slot n)) (h : Rekeyed P b s) : Rekeyed P b (s.modSlot n f) := by
  refine ⟨modSlot_dues n _ h.dues, (modSlot_routes n _).trans h.routes, h.queue, fun k => ?_⟩
  have := modSlot_rekey (n := n) hf (h.laid k)
  exact ⟨this.ordered.mono (fun _ _ p => p) fun _ _ _ c => c.elim (fun e => e ▸ hn) id, this.pool⟩

theorem recomputeSlot_rekeyed {P : Xfer → Prop} (n : LineId) (hn : P (.slot n)) (h : Rekeyed P b s) :
    Rekeyed P b (recomputeSlot n s) := by
  unfold recomputeSlot
  split
  · exact h
  · exact modSlot_rekeyed n _ (fun _ => ⟨rfl, rfl⟩) hn h

/-- A queue put back into order after the keys of transfers at its link have changed. -/
theorem resortQueue_keeps (l : LinkId) (h : Rekeyed (b.AtLink l) b s) : Keeps b (resortQueue l s) := by
  refine (schedMirror_still l (.refl _)).keeps ⟨modLink_dues l _ h.dues, fun k => ?_⟩
  have hs := h.laid k
  rw [State.Kept, modLink_routes, h.routes]
  have hq : (s.link l).queue.Nodup := hs.ordered.nodup l
  obtain ⟨hperm, hsort⟩ := sortQueue_spec (s := s) hq fun x hx y hy hxy => by
    rw [xferKey_eq, xferKey_eq]
    exact hs.ordered.sequence l l x y (.inl hx) (.inl hy) hxy
  refine ⟨(hs.ordered.reorder (l := l) (L' := (s.modLink l fun k => { k with queue := sortQueue s k.queue }).layout)
    (fun m => ?_) rfl (modLink_stand l _) (fun m hm => ?_) ?_ ?_).mono (fun _ _ p => p) fun m y hy c => ?_, hs.pool⟩
  · rw [layout_modLink]
    dsimp only
    split
    · next e => rw [e]; rfl
    · rfl
  · rw [layout_modLink]
    exact if_neg hm
  · rw [layout_modLink]
    dsimp only
    rw [if_pos rfl]
    exact hperm
  · rw [layout_modLink]
    dsimp only
    rw [if_pos rfl, layout_before]
    exact hsort
  · obtain ⟨hat, hnot⟩ := c
    have hy : y ∈ (s.link m).queue := by
      rw [layout_modLink] at hy
      dsimp only at hy
      split at hy
      · next e => exact absurd (hperm.subset hy) hnot
      · exact hy
    obtain ⟨st, hst, _, hh⟩ := k.ordered.waits m y (show y ∈ (b.link m).queue from h.queue m ▸ hy)
    have : m = l := (show b.linkOf st.line = m from hh).symm.trans (hat st hst)
    exact hnot (this ▸ hy)

theorem recomputable_atLink {l : LinkId} {i : Nat} (hi : i ∈ recomputable s l) (k : s.Kept) : s.AtLink l (.dest i) := by
  obtain ⟨⟨j, q⟩, he, rfl⟩ := List.mem_map.1 (List.mem_filter.1 hi).1
  obtain ⟨hm, hl⟩ := List.mem_filter.1 he
  have hrise : Table.rising s.recs = true := by
    rw [Table.rising_iff, ← keys_recViews, ← Table.rising_iff]; exact k.pool.recsRise
  intro st hst
  rw [stand_dest (Table.get_of_mem hrise hm)] at hst
  cases hst
  exact beq_iff_eq.1 hl

theorem linesOn_atLink {l : LinkId} {n : LineId} (hn : n ∈ s.linesOn l) : s.AtLink l (.slot n) := by
  intro st hst
  obtain ⟨sl, _, rfl⟩ := Option.map_eq_some_iff.1 (show (s.line n).slot.map _ = some st from hst)
  have := (List.mem_filter.1 hn).2
  simp only [Bool.and_eq_true, beq_iff_eq] at this
  exact this.2

/-- What a fold of operations leaves when each leaves it. -/
theorem foldl_rekeyed {α : Type} {P : Xfer → Prop} (f : State → α → State) (xs : List α)
    (hf : ∀ s, ∀ x ∈ xs, Rekeyed P b s → Rekeyed P b (f s x)) (h : Rekeyed P b s) : Rekeyed P b (xs.foldl f s) := by
  induction xs generalizing s with
  | nil => exact h
  | cons x xs ih => exact ih (fun s y hy => hf s y (.tail _ hy)) (hf s x (.head _) h)

theorem updateL_lines (n : Nat) (s : State) : (updateL n s).lines = s.lines := by unfold updateL; split <;> rfl

theorem foldl_updateL_linesOn (ids : List Nat) (l : LinkId) (s : State) :
    (ids.foldl (fun s n => updateL n s) s).linesOn l = s.linesOn l := by
  have : (ids.foldl (fun s n => updateL n s) s).lines = s.lines := by
    induction ids generalizing s with
    | nil => rfl
    | cons i ids ih => exact (ih _).trans (updateL_lines i s)
  unfold State.linesOn State.line
  rw [this]

theorem recomputeLink_keeps (l : LinkId) (h : Keeps b s) : Keeps b (recomputeLink l s) := by
  have h0 : Rekeyed (s.AtLink l) s s :=
    ⟨.refl s, rfl, fun _ => rfl, fun k => ⟨k.ordered.mono (fun _ _ p => p) fun _ _ _ c => c.elim, k.pool⟩⟩
  have h1 : Rekeyed (s.AtLink l) s ((recomputable s l).foldl (fun s n => updateL n s) s) :=
    foldl_rekeyed _ _ (fun _ i hi h => updateL_rekeyed i (recomputable_atLink hi) h) h0
  refine h.trans (resortQueue_keeps l (foldl_rekeyed _ _ (fun _ n hn h => recomputeSlot_rekeyed n ?_ h) h1))
  rw [foldl_updateL_linesOn] at hn
  exact linesOn_atLink hn

theorem applyEnable_keeps (l : LinkId) (e : Bool) (h : Keeps b s) : Keeps b (applyEnable l e s) := by
  unfold applyEnable
  split
  · exact (linkChanged_still l (.refl _)).keeps (modLink_view_keeps l _ (fun _ => ⟨rfl, rfl⟩) h)
  · exact h
  · exact h
  · exact h
  · exact h
  · exact (linkChanged_still l (.refl _)).keeps (modLink_view_keeps l _ (fun _ => ⟨rfl, rfl⟩) h)
  · exact linkDown_keeps l _ h
  · exact (linkChanged_still l (.refl _)).keeps (modLink_view_keeps l _ (fun _ => ⟨rfl, rfl⟩) h)

theorem applySetLink_keeps (l : LinkId) (w : SetLinkBody) (h : Keeps b s) : Keeps b (applySetLink l w s) := by
  have h1 := modLink_view_keeps l (fun k => { k with
    rate := setLinkRate w, guardMs := setLinkGuard w, silenceLimit := setLinkSilence w }) (fun _ => ⟨rfl, rfl⟩) h
  have h2 := modLink_view_keeps l (fun k => { k with silence := k.silence.map fun _ => setLinkSilence w }) (fun _ => ⟨rfl, rfl⟩)
    (applyEnable_keeps l w.enable h1)
  unfold applySetLink
  exact (writeLinkMirror_still l (.refl _)).keeps (recomputeLink_keeps l h2)

theorem takeSetLink_keeps (a : U64) (w : SetLinkBody) (h : Keeps b s) : Keeps b (takeSetLink a w s) :=
  ite_keeps (fun _ => (finalDisposition_still _ _ _ (.refl _)).keeps (applySetLink_keeps _ w h))
    fun _ => (refuse_still _ _ (.refl _)).keeps h

/-! ### Switches and completion (R84 to R86) -/

theorem handBack_keeps (x : Xfer) (hi : b.Kept → s.layout.Idle x) (ha : b.Kept → ∀ n, x = .dest n → Aside s n) (h : Keeps b s) :
    Keeps b (handBack x s) := by
  cases x with
  | dest n =>
    unfold handBack
    dsimp only
    split
    · exact h
    · exact place_mod_keeps n _ (fun _ => rfl) (fun k => ha k n rfl) h
  | slot n => exact requeueSlot_keeps n _ hi h

theorem clearSending_aside_of {l : LinkId} {x : Xfer} (h : s.Kept) (hx : (s.link l).sending = some x) (n : Nat)
    (e : x = .dest n) : Aside (clearSending l s) n :=
  clearSending_aside h (e ▸ hx)

theorem switchAway_keeps (l : LinkId) (x : Xfer) (hx : (s.link l).sending = some x) (h : Keeps b s) :
    Keeps b (switchAway l x s) :=
  pick_keeps l (handBack_keeps x (fun k => clearSending_idle (h.kept k).ordered hx)
    (fun k => clearSending_aside_of (h.kept k) hx) (clearSending_keeps l h))

theorem sentWhole_keeps (x : Xfer) (hi : b.Kept → s.layout.Idle x) (ha : b.Kept → ∀ n, x = .dest n → Aside s n) (h : Keeps b s) :
    Keeps b (sentWhole x s) := by
  cases x with
  | dest n =>
    exact applyChange_keeps n _ ⟨fun _ => rfl, fun _ => rfl, fun _ => rfl⟩
      (fun k => ⟨hi k, fun r hr _ => (ha k n rfl).live r hr⟩) h
  | slot n =>
    refine (writeLineMirror_still n (.refl _)).keeps (modLine_keeps n _ (fun k => ⟨hi k, rfl, rfl, fun c => .inl fun e => c ?_⟩) h)
    simp [e]

theorem complete_keeps (l : LinkId) (x : Xfer) (hx : (s.link l).sending = some x) (h : Keeps b s) : Keeps b (complete l x s) :=
  pick_keeps l (sentWhole_keeps x (fun k => clearSending_idle (h.kept k).ordered hx)
    (fun k => clearSending_aside_of (h.kept k) hx) (clearSending_keeps l h))

/-! ### Departures (R79, R143) -/

theorem dataLeft_keeps (l : LinkId) (x : Xfer) (off : Nat) (c last : Bool) (hx : (s.link l).sending = some x) (h : Keeps b s) :
    Keeps b (dataLeft l x off c last s) := by
  have hl := setSent_light x off (.refl s)
  have hx1 : ((setSent x off s).link l).sending = some x := (hl.links l).2.trans hx
  have h1 := hl.keeps h
  have hm := modLink_light l (fun k => { k with lastCkpt := some off }) (fun _ => ⟨rfl, rfl⟩) (.refl (setSent x off s))
  unfold dataLeft
  refine ite_keeps (fun _ => complete_keeps l x hx1 h1) fun _ => ite_keeps (fun _ => ite_keeps (fun _ => ?_) fun _ => ?_)
    fun _ => (startWindow_light l x (.refl _)).keeps h1
  · exact switchAway_keeps l x ((hm.links l).2.trans hx1) (hm.keeps h1)
  · exact (startWindow_light l x (.refl _)).keeps (hm.keeps h1)

theorem departed_keeps (l : LinkId) (role : WireRole) (h : Keeps b s) : Keeps b (departed l role s) := by
  unfold departed
  refine ite_keeps (fun _ => (rewind_light l (.refl _)).keeps h) fun _ => ?_
  split
  · exact ite_keeps (fun hx => dataLeft_keeps l _ _ _ _ hx h) fun _ => h
  all_goals exact h

theorem departedPage_keeps (role : WireRole) (h : Keeps b s) : Keeps b (departedPage role s) := by
  unfold departedPage
  split
  · exact pageEndOf_keeps _ h
  all_goals exact h

theorem frameLeft_keeps (l : LinkId) (h : Keeps b s) : Keeps b (frameLeft l s) := by
  unfold frameLeft
  split
  · exact departedPage_keeps _ ((kick_light l (.refl _)).keeps (departed_keeps l _
      (modLink_view_keeps l _ (fun _ => ⟨rfl, rfl⟩) h)))
  · exact h

/-! ### Confirms (R60, R61) -/

theorem changeOver_keeps (n : LineId) (g : U16) (hg : (s.line n).held = g) (h : Keeps b s) : Keeps b (changeOver n g s) := by
  have h1 := replaceOthers_keeps n h
  rw [hg] at h1
  unfold changeOver
  refine reexamine_keeps n (foldl_keeps _ (fun _ i h => releaseCheck_keeps i h) _ (foldl_place_keeps placeRaw _ .targetWait rfl rfl
    (fun k => ?_) (fun _ _ hi => mem_state_filter hi) (fun _ i => placeRaw_keeps i) (fun _ i _ => placeRaw_spares i) h1))
  exact ((h1.kept k).listed_nodup _).sublist List.filter_sublist

theorem goodConfirm_keeps (n : LineId) (g : U16) (hi : b.Kept → s.layout.Idle (.slot n)) (h : Keeps b s) :
    Keeps b (goodConfirm n g s) := by
  have h1 := (writeLineMirror_still n (.refl _)).keeps
    (modLine_keeps n (fun k => { k with held := g, slot := none }) (fun k => ⟨hi k, rfl, rfl, fun c => absurd rfl c⟩) h)
  refine sweepPages_keeps (changeOver_keeps n g ?_ h1)
  rw [(writeLineMirror_still n (.refl _)).line, State.line_modLine_self]

theorem slotFailed_keeps (n : LineId) (g : U16) (hi : b.Kept → s.layout.Idle (.slot n)) (h : Keeps b s) :
    Keeps b (slotFailed n g s) := by
  have hm := modEntry_light n g (fun e => { e with push := false }) (.refl s)
  exact sweepPages_keeps (reexamine_keeps n ((raise_still _ (.refl _)).keeps (idleSlot_keeps n
    (fun k => retractMany_idle (hm.idle (hi k))) (retractMany_keeps _ _ _ (hm.keeps h)))))

theorem slotAttemptFailed_keeps (n : LineId) (sl : Slot) (hi : b.Kept → s.layout.Idle (.slot n)) (h : Keeps b s) :
    Keeps b (slotAttemptFailed n sl s) :=
  ite_keeps (fun _ => slotFailed_keeps n _ hi h) fun _ => requeueSlot_keeps n _ hi h

/-- A slot in CONFIRM_WAIT stands nowhere. -/
theorem State.Laid.idle_confirm (h : s.Laid home loose) {n : LineId} {sl : Slot} (hs : (s.line n).slot = some sl)
    (hc : sl.state = .confirmWait) : s.layout.Idle (.slot n) :=
  h.idle_slot fun q hq => by
    rw [hs] at hq
    cases hq
    rw [hc]
    rfl

theorem targetConfirm_keeps (l : LinkId) (n : LineId) (tag : Nat) (good : Bool) (h : Keeps b s) :
    Keeps b (targetConfirm l n tag good s) := by
  unfold targetConfirm
  split
  · exact (staleTag_still l (.refl _)).keeps h
  · next sl hsl =>
    refine ite_keeps (fun hc => ?_) fun _ => (staleTag_still l (.refl _)).keeps h
    have hi : b.Kept → s.layout.Idle (.slot n) := fun k => (h.kept k).idle_confirm hsl hc.2
    exact ite_keeps (fun _ => goodConfirm_keeps n _ hi h) fun _ => slotAttemptFailed_keeps n sl hi h

theorem confirmTimeout_keeps (n : LineId) (h : Keeps b s) : Keeps b (confirmTimeout n s) := by
  unfold confirmTimeout
  split
  · exact h
  · next sl hsl =>
    exact ite_keeps (fun hc => slotAttemptFailed_keeps n sl (fun k => (h.kept k).idle_confirm hsl hc.1) h) fun _ => h

/-! ### Receipts, acknowledgements and reply timers (R29, R30, R34, R35, R37, R38) -/

theorem answered_some {tag : Nat} {n : LineId} {st : DestState} {r : DestRec} (h : answered s tag n st = some r) :
    s.rec? tag = some r ∧ r.state = st := by
  unfold answered at h
  split at h
  · next q hq =>
    split at h
    · next hc =>
      cases h
      exact ⟨hq, hc.2⟩
    · cases h
  · cases h

theorem State.Laid.aside_state (h : s.Laid home loose) {n : Nat} {r : DestRec} {st : DestState} (hr : s.rec? n = some r)
    (hs : r.state = st) (ha : st.standing = .apart) (hl : st.isFinal = false) : Aside s n :=
  h.aside hr (hs ▸ ha) (hs ▸ hl)

theorem receipt_keeps (l : LinkId) (n : LineId) (tag : Nat) (good : Bool) (h : Keeps b s) : Keeps b (receipt l n tag good s) := by
  unfold receipt
  split
  · exact (staleTag_still l (.refl _)).keeps h
  · next r hr =>
    obtain ⟨hr, hs⟩ := answered_some hr
    have ha : b.Kept → Aside s tag := fun k => (h.kept k).aside_state hr hs rfl rfl
    exact ite_keeps (fun _ => deliver_keeps tag ha h) fun _ => pageEndOf_keeps tag (attemptFailed_keeps tag ha h)

theorem endRec_keeps (i : Nat) (r : DestRec) (st : DestState) (d : Detail) (hst : st.isFinal = true)
    (hi : b.Kept → s.layout.Idle (.dest i)) (h : Keeps b s) : Keeps b (endRec i r st d s) :=
  pageEndOf_keeps i (reexamine_keeps _ (finish_keeps i st d hst hi h))

theorem RetractEnd.state_final (x : RetractEnd) : x.state.isFinal = true := by cases x <;> rfl

theorem releaseAck_keeps (l : LinkId) (n : LineId) (tag : Nat) (h : Keeps b s) : Keeps b (releaseAck l n tag s) := by
  unfold releaseAck
  split
  · exact (staleTag_still l (.refl _)).keeps h
  · next r hr =>
    obtain ⟨hr, hs⟩ := answered_some hr
    exact endRec_keeps tag r _ _ rfl (fun k => ((h.kept k).aside_state hr hs rfl rfl).idle) h

theorem withdrawAck_keeps (l : LinkId) (n : LineId) (tag : Nat) (h : Keeps b s) : Keeps b (withdrawAck l n tag s) := by
  unfold withdrawAck
  split
  · exact (staleTag_still l (.refl _)).keeps h
  · next r hr =>
    obtain ⟨hr, hs⟩ := answered_some hr
    split
    · exact endRec_keeps tag r _ _ (RetractEnd.state_final _) (fun k => ((h.kept k).aside_state hr hs rfl rfl).idle) h
    · exact h

theorem ranOut_state {r : DestRec} {st : DestState} (h : ranOut r st = true) : r.state = st :=
  beq_iff_eq.1 (Bool.and_eq_true_iff.1 h).1

theorem receiptTimeout_keeps (n : Nat) (h : Keeps b s) : Keeps b (receiptTimeout n s) := by
  unfold receiptTimeout
  split
  · exact h
  · next r hr =>
    exact ite_keeps (fun ho => pageEndOf_keeps n (attemptFailed_keeps n
      (fun k => (h.kept k).aside_state hr (ranOut_state ho) rfl rfl) h)) fun _ => h

theorem releaseTimeout_keeps (n : Nat) (h : Keeps b s) : Keeps b (releaseTimeout n s) := by
  unfold releaseTimeout
  split
  · exact h
  · next r hr =>
    exact ite_keeps (fun ho => ite_keeps (fun _ => (sendRelease_light n (.refl _)).keeps h) fun _ =>
      endRec_keeps n r _ _ rfl (fun k => ((h.kept k).aside_state hr (ranOut_state ho) rfl rfl).idle) h) fun _ => h

theorem withdrawTimeout_keeps (n : Nat) (h : Keeps b s) : Keeps b (withdrawTimeout n s) := by
  unfold withdrawTimeout
  split
  · exact h
  · next r hr =>
    refine ite_keeps (fun ho => ite_keeps (fun _ => (sendWithdraw_light n (.refl _)).keeps h) fun _ => ?_) fun _ => h
    split
    · exact endRec_keeps n r _ _ (RetractEnd.state_final _)
        (fun k => ((h.kept k).aside_state hr (ranOut_state ho) rfl rfl).idle) h
    · exact h

/-! ### Arriving frames (R147 to R149) -/

theorem fromLine_keeps (l : LinkId) (kind : Byte) (f : InFrame) (n : LineId) (h : Keeps b s) :
    Keeps b (fromLine l kind f n s) := by
  have hstale : Keeps b (staleTag l s) := (staleTag_still l (.refl _)).keeps h
  refine ite_keeps (fun _ => hstale) fun _ => ite_keeps (fun _ => ?_) fun _ => ite_keeps (fun _ => ?_) fun _ =>
    ite_keeps (fun _ => ite_keeps (fun _ => targetConfirm_keeps _ _ _ _ h) fun _ => receipt_keeps _ _ _ _ h) fun _ =>
    ite_keeps (fun _ => hstale) fun _ => ite_keeps (fun _ => releaseAck_keeps _ _ _ h) fun _ => withdrawAck_keeps _ _ _ h
  · exact ite_keeps (fun _ => statusReply_keeps n _ h) fun _ => hstale
  · exact (ckptAck_light l n _ _ _ (.refl _)).keeps h

theorem fromOther_keeps (l : LinkId) (kind : Byte) (f : InFrame) (h : Keeps b s) : Keeps b (fromOther l kind f s) :=
  ite_keeps (fun _ => (grantCredit_light l (.refl _)).keeps h) fun _ =>
    ite_keeps (fun _ => (echoReceived_still l _ (.refl _)).keeps h) fun _ =>
    ite_keeps (fun _ => (staleTag_still l (.refl _)).keeps h) fun _ => (rollAnswer_still l _ (.refl _)).keeps h

theorem accepted_keeps (l : LinkId) (kind : Byte) (f : InFrame) (src : Source) (h : Keeps b s) :
    Keeps b (accepted l kind f src s) := by
  have h1 := (restartSilence_still l (.refl _)).keeps h
  cases src with
  | line n => exact fromLine_keeps l kind f n (ite_keeps (fun _ => (askQuery_light n (.refl _)).keeps h1) fun _ => h1)
  | site => exact fromOther_keeps l kind f h1
  | anyone => exact fromOther_keeps l kind f h1

theorem checkFrame_keeps (l : LinkId) (kind : Byte) (f : InFrame) (h : Keeps b s) : Keeps b (checkFrame l kind f s) := by
  unfold checkFrame
  refine ite_keeps (fun _ => (bumpLink_still _ _ (.refl _)).keeps h) fun _ =>
    ite_keeps (fun _ => (raise_still _ (bumpLink_still _ _ (.refl _))).keeps h) fun _ => ?_
  split
  · exact (bumpLink_still _ _ (.refl _)).keeps h
  · exact ite_keeps (fun _ => accepted_keeps l kind f _ h) fun _ => ite_keeps (fun _ => linkUp_keeps l h) fun _ => h

theorem receive_keeps (l : LinkId) (kind : Byte) (f : InFrame) (h : Keeps b s) : Keeps b (receive l kind f s) := by
  unfold receive
  have h1 := modLink_view_keeps l (fun k => { k with
    counters := { k.counters with framesReceived := satInc k.counters.framesReceived } }) (fun _ => ⟨rfl, rfl⟩) h
  split
  · exact checkFrame_keeps l kind f h1
  · exact checkFrame_keeps l kind f h1
  · exact h
  · exact h

end Sys2Proof.Machine
end

section
/-! What is kept of the queues and the pool by orders: records taken into use (R5, R103), press lines enabled, moved and disabled (R89,
R126 to R128), generations issued (R51, R65). -/

namespace Sys2Proof.Machine

variable {b s t : State} {home : LinkId → LineId → Prop} {loose : Xfer → Prop}

theorem State.Laid.recs_rising (h : s.Laid home loose) : Table.rising s.recs = true := by
  rw [Table.rising_iff, ← keys_recViews, ← Table.rising_iff]; exact h.pool.recsRise

/-! ### Records taken into use -/

section Tables

variable {α : Type}

theorem Table.get_foldl_put_ne (xs : List (Nat × α)) (t : Table α) {i : Nat} (h : i ∉ xs.map fun x => x.1) :
    Table.get (xs.foldl (fun t x => Table.put t x.1 x.2) t) i = Table.get t i := by
  induction xs generalizing t with
  | nil => rfl
  | cons x xs ih =>
    simp only [List.map_cons, List.mem_cons, not_or] at h
    exact (ih _ h.2).trans (Table.get_put_ne t x.2 h.1)

theorem Table.get_foldl_put_mem (xs : List (Nat × α)) (t : Table α) (hn : (xs.map fun x => x.1).Nodup) {i : Nat} {a : α}
    (h : (i, a) ∈ xs) : Table.get (xs.foldl (fun t x => Table.put t x.1 x.2) t) i = some a := by
  induction xs generalizing t with
  | nil => cases h
  | cons x xs ih =>
    simp only [List.map_cons, List.nodup_cons] at hn
    rcases List.mem_cons.1 h with e | h
    · subst e
      exact (Table.get_foldl_put_ne xs _ hn.1).trans (Table.get_put_self t i a)
    · exact ih _ hn.2 h

theorem Table.rising_foldl_put (xs : List (Nat × α)) {t : Table α} (h : Table.rising t = true) :
    Table.rising (xs.foldl (fun t x => Table.put t x.1 x.2) t) = true := by
  induction xs generalizing t with
  | nil => exact h
  | cons x xs ih => exact ih (Table.rising_put h x.1 x.2)

theorem Table.mem_put {t : Table α} {n : Nat} {a : α} {e : Nat × α} (h : e ∈ Table.put t n a) : e = (n, a) ∨ e ∈ t := by
  induction t with
  | nil => exact .inl (List.mem_singleton.1 h)
  | cons c t ih =>
    obtain ⟨k, c⟩ := c
    unfold Table.put at h
    split at h
    · exact List.mem_cons.1 h
    · split at h
      · exact (List.mem_cons.1 h).imp id (.tail _)
      · rcases List.mem_cons.1 h with e | h
        · exact .inr (e ▸ .head _)
        · exact (ih h).imp id (.tail _)

theorem Table.mem_modify {t : Table α} {n : Nat} {f : α → α} {e : Nat × α} (h : e ∈ Table.modify t n f) :
    e ∈ t ∨ e.1 = n ∧ ∃ a, (n, a) ∈ t ∧ e.2 = f a := by
  induction t with
  | nil => cases h
  | cons c t ih =>
    obtain ⟨k, c⟩ := c
    unfold Table.modify at h
    split at h
    · next hk =>
      rcases List.mem_cons.1 h with e | h
      · subst e
        exact .inr ⟨hk, c, hk ▸ .head _, rfl⟩
      · exact .inl (.tail _ h)
    · rcases List.mem_cons.1 h with e | h
      · exact .inl (e ▸ .head _)
      · exact (ih h).imp (.tail _) fun ⟨h1, a, h2, h3⟩ => ⟨h1, a, .tail _ h2, h3⟩

end Tables

/-- Records `ids` from the head of the free list are taken into use for page `n`, at enabled lines; nothing else moves. -/
structure Takes (n : Nat) (ids : List Nat) (s t : State) : Prop where
  free : s.free = ids ++ t.free
  old : ∀ i, i ∉ ids → (t.rec? i).map DestRec.view = (s.rec? i).map DestRec.view
  new : ∀ i ∈ ids, ∃ r, t.rec? i = some r ∧ r.parent = n ∧ (s.line r.line).enabled = true
  recsRise : Table.rising (recViews t) = true
  pagesRise : Table.rising (pageViews t) = true
  pages : ∀ e ∈ pageViews t, e ∈ pageViews s ∨ e.1 = n ∧ ∃ ds, e.2 = ds ++ ids ∧ (ds = [] ∨ (n, ds) ∈ pageViews s)
  seqNext : t.seqNext = s.seqNext
  lines : ∀ m, (t.line m).view = (s.line m).view
  links : ∀ l, (t.link l).queue = (s.link l).queue ∧ (t.link l).sending = (s.link l).sending

theorem Takes.not_used {n : Nat} {ids : List Nat} (h : Takes n ids s t) (k : s.Pooled) {i : Nat} (hi : i ∈ ids) :
    Table.get (recViews s) i = none :=
  k.free.2 i (h.free ▸ List.mem_append_left _ hi)

theorem Takes.pooled {n : Nat} {ids : List Nat} (h : Takes n ids s t) (k : s.Pooled) : t.Pooled := by
  have hfree := k.free.1
  rw [h.free, List.nodup_append] at hfree
  obtain ⟨hids, hrest, hapart⟩ := hfree
  have hnew : ∀ i ∈ ids, ∃ v, Table.get (recViews t) i = some v ∧ v.parent = n := fun i hi => by
    obtain ⟨r, hr, hp, _⟩ := h.new i hi
    exact ⟨r.view, by rw [get_recViews, hr]; rfl, hp⟩
  have hold : ∀ i, i ∉ ids → Table.get (recViews t) i = Table.get (recViews s) i := fun i hi => by
    rw [get_recViews, get_recViews, h.old i hi]
  have hkept : ∀ e ∈ pageViews s, ∀ i ∈ e.2, ∃ v, Table.get (recViews t) i = some v ∧ v.parent = e.1 := fun e he i hi => by
    obtain ⟨v, hv, hp⟩ := (k.dests e he).2 i hi
    exact ⟨v, (hold i fun c => by rw [h.not_used k c] at hv; cases hv).trans hv, hp⟩
  unfold State.Pooled
  simp only [h.lines]
  refine ⟨h.recsRise, h.pagesRise, ⟨hrest, fun i hi => ?_⟩, fun e he => ?_, fun i v hv hf => ?_, k.slots⟩
  · rw [hold i fun c => hapart i c i hi rfl]
    exact k.free.2 i (h.free ▸ List.mem_append_right _ hi)
  · rcases h.pages e he with hm | ⟨e1, ds, e2, hds⟩
    · exact ⟨(k.dests e hm).1, hkept e hm⟩
    · have hdn : ds.Nodup := hds.elim (fun c => c ▸ List.nodup_nil) fun c => (k.dests _ c).1
      have hused : ∀ i ∈ ds, (n, ds) ∈ pageViews s := fun i hi => hds.resolve_left fun c => by rw [c] at hi; cases hi
      rw [e2]
      refine ⟨List.nodup_append.2 ⟨hdn, hids, fun i hi j hj c => ?_⟩, fun i hi => ?_⟩
      · subst c
        obtain ⟨v, hv, _⟩ := (k.dests _ (hused i hi)).2 i hi
        rw [h.not_used k hj] at hv
        cases hv
      · rw [e1]
        rcases List.mem_append.1 hi with hi | hi
        · exact hkept _ (hused i hi) i hi
        · exact hnew i hi
  · by_cases c : i ∈ ids
    · obtain ⟨r, hr, _, he⟩ := h.new i c
      rw [get_recViews, hr] at hv
      cases hv
      exact he
    · exact k.lives i v ((hold i c).symm.trans hv) hf

/-- A record not yet in use stands nowhere. -/
theorem State.Laid.idle_unused (h : s.Laid home loose) {i : Nat} (hi : s.rec? i = none) : s.layout.Idle (.dest i) :=
  h.idle_dest fun r hr => by rw [hi] at hr; cases hr

theorem Takes.kept {n : Nat} {ids : List Nat} (h : Takes n ids s t) (k : s.Kept) : t.Kept := by
  have hlink : ∀ m, t.linkOf m = s.linkOf m := fun m => congrArg LineView.link (h.lines m)
  have hroutes : t.routes = s.routes := by
    unfold State.routes
    simp only [hlink]
  rw [State.Kept, hroutes]
  refine ⟨k.ordered.restands (fun l => (h.links l).1) (fun l => (h.links l).2) h.seqNext fun l y o => ?_, h.pooled k.pool⟩
  cases y with
  | dest i =>
    have e : ∀ s : State, s.layout.stand (.dest i) = ((s.rec? i).map DestRec.view).map RecView.stand := fun s => by
      rw [Option.map_map]; rfl
    rw [e, e, h.old i]
    intro c
    have hn : s.rec? i = none := by
      have := h.not_used k.pool c
      rw [get_recViews] at this
      exact Option.map_eq_none_iff.1 this
    exact (k.idle_unused hn).not_on l o
  | slot m =>
    have e : ∀ s : State, s.layout.stand (.slot m) = (s.line m).view.slot.map (SlotView.stand m) := fun s => by
      unfold Line.view; rw [Option.map_map]; rfl
    rw [e, e, h.lines]

/-- A new record, taken into use and left standing nowhere. -/
theorem Takes.aside {n : Nat} {ids : List Nat} (h : Takes n ids s t) (k : s.Kept) {i : Nat} {r : DestRec}
    (hr : t.rec? i = some r) (hs : r.state = .verifyWait) : Aside t i :=
  (h.kept k).aside_state hr hs rfl rfl

/-! ### CONSIGN (R5) -/

theorem foldl_takeRec (xs : List (Nat × DestRec)) (s : State) : ∃ d, xs.foldl (fun s x => takeRec x.1 x.2 s) s =
    { s with recs := xs.foldl (fun t x => Table.put t x.1 x.2) s.recs, deadlines := d } := by
  induction xs generalizing s with
  | nil => exact ⟨s.deadlines, rfl⟩
  | cons x xs ih => exact ih _

/-- What the checks of R4 say of the order they let pass. -/
structure ConsignPassed (s : State) (w : ConsignBody) (n : Nat) : Prop where
  fields : consignFieldsOk w = true
  lines : linesEnabled s (w.dests.map fun d => d.line) = true
  entry : freeEntry s = some n
  room : w.destCount.toNat ≤ s.free.length

theorem consignCheck_inr {w : ConsignBody} {n : Nat} (h : consignCheck s w = .inr n) : ConsignPassed s w n := by
  unfold consignCheck at h
  split at h
  · cases h
  · next hf =>
    split at h
    · cases h
    · next hl =>
      rw [ite_eq_iff] at h
      obtain ⟨_, h⟩ := h.resolve_left fun c => by cases c.2
      split at h
      · cases h
      · next m he =>
        split at h
        · cases h
        · next hr =>
          cases h
          exact ⟨by simpa using hf, by simpa using hl, he, by omega⟩

theorem ConsignPassed.page {w : ConsignBody} {n : Nat} (h : ConsignPassed s w n) : s.page? n = none := by
  have := List.find?_some h.entry
  simpa using this

theorem ConsignPassed.count {w : ConsignBody} {n : Nat} (h : ConsignPassed s w n) : w.dests.length = w.destCount.toNat := by
  have := h.fields
  unfold consignFieldsOk at this
  simp only [Bool.and_eq_true, decide_eq_true_eq] at this
  tauto

theorem consignRecs_ids (n : Nat) (a : U64) (w : ConsignBody) (ids : List Nat) (h : ids.length ≤ w.dests.length) :
    ((consignRecs n a w ids).map fun x => x.1) = ids := by
  unfold consignRecs
  rw [List.map_map]
  exact List.map_fst_zip (by simpa using h)

/-- What each record of a CONSIGN holds. -/
theorem mem_consignRecs {n : Nat} {a : U64} {w : ConsignBody} {ids : List Nat} {i : Nat} {r : DestRec}
    (h : (i, r) ∈ consignRecs n a w ids) : ∃ k d, ids[k]? = some i ∧ w.dests[k]? = some d ∧
      r = consignRec n w.deadline d (destEntryAddr a w.extentCount.toNat k) := by
  obtain ⟨⟨j, d, k⟩, hm, he⟩ := List.mem_map.1 h
  cases he
  obtain ⟨q, hq, hget⟩ := List.getElem_of_mem hm
  rw [List.getElem_zip, List.getElem_zipIdx] at hget
  simp only [Nat.zero_add, Prod.mk.injEq] at hget
  obtain ⟨h1, h2, rfl⟩ := hget
  rw [List.length_zip, List.length_zipIdx] at hq
  exact ⟨q, d, by rw [← h1, List.getElem?_eq_getElem], by rw [← h2, List.getElem?_eq_getElem], rfl⟩

/-- The state of an accepted CONSIGN once its records are in use. -/
def consigned (a : U64) (w : ConsignBody) (n : Nat) (s : State) : State :=
  let ids := s.free.take w.dests.length
  (consignRecs n a w ids).foldl (fun s x => takeRec x.1 x.2 s)
    ((s.setFree (s.free.drop w.dests.length)).putPage n (consignPage a w ids))

theorem consigned_takes {a : U64} {w : ConsignBody} {n : Nat} (h : ConsignPassed s w n) (k : s.Kept) :
    Takes n (s.free.take w.dests.length) s (consigned a w n s) := by
  obtain ⟨d, e⟩ := foldl_takeRec (consignRecs n a w (s.free.take w.dests.length))
    ((s.setFree (s.free.drop w.dests.length)).putPage n (consignPage a w (s.free.take w.dests.length)))
  have hids := consignRecs_ids n a w (s.free.take w.dests.length) (by simp)
  have hnd : (s.free.take w.dests.length).Nodup := k.pool.free.1.sublist (List.take_sublist _ _)
  have hc : consigned a w n s = _ := e
  have hrec : ∀ i, (consigned a w n s).rec? i = Table.get ((consignRecs n a w (s.free.take w.dests.length)).foldl
      (fun t x => Table.put t x.1 x.2) s.recs) i := fun i => by rw [hc]; rfl
  refine ⟨?_, fun i hi => ?_, fun i hi => ?_, ?_, ?_, fun p hp => ?_, by rw [hc]; rfl, fun m => by rw [hc]; rfl,
    fun l => by rw [hc]; exact ⟨rfl, rfl⟩⟩
  · rw [hc]
    exact (List.take_append_drop _ _).symm
  · rw [hrec, Table.get_foldl_put_ne _ _ (hids.symm ▸ hi)]
    rfl
  · obtain ⟨⟨j, r⟩, hm, rfl⟩ := List.mem_map.1 (hids.symm ▸ hi)
    refine ⟨r, (hrec j).trans (Table.get_foldl_put_mem _ _ (hids.symm ▸ hnd) hm), ?_⟩
    obtain ⟨q, de, _, hd, rfl⟩ := mem_consignRecs hm
    refine ⟨rfl, ?_⟩
    have := List.all_eq_true.1 h.lines de.line (List.mem_map.2 ⟨de, List.mem_of_getElem? hd, rfl⟩)
    exact this
  · rw [hc]
    rw [Table.rising_iff, keys_recViews, ← Table.rising_iff]
    exact Table.rising_foldl_put _ k.recs_rising
  · rw [hc, Table.rising_iff, keys_pageViews, ← Table.rising_iff]
    refine Table.rising_put ?_ _ _
    show Table.rising s.pages = true
    rw [Table.rising_iff, ← keys_pageViews, ← Table.rising_iff]
    exact k.pool.pagesRise
  · obtain ⟨⟨m, q⟩, hq, rfl⟩ := List.mem_map.1 hp
    have hq : (m, q) ∈ Table.put s.pages n (consignPage a w (s.free.take w.dests.length)) := by rw [hc] at hq; exact hq
    rcases Table.mem_put hq with c | c
    · cases c
      exact .inr ⟨rfl, [], rfl, .inl rfl⟩
    · exact .inl (List.mem_map.2 ⟨_, c, rfl⟩)

theorem retirePage_keeps (n : Nat) (p : Page) (why : RetireCause) (d : Detail) (h : Keeps b s) :
    Keeps b (retirePage n p why d s) :=
  retractPage_keeps _ _ _ ((leaveVerify_light _ (.refl _)).keeps (modPage_keeps n _ (fun _ => rfl) h))

theorem foldl_writeEntry_still (ids : List Nat) (h : Still b s) : Still b (ids.foldl (fun s i => writeEntry i s) s) :=
  foldl_still _ (fun _ i h => writeEntry_still i h) _ h

theorem takeConsign_kept (a : U64) (w : ConsignBody) (k : s.Kept) : (takeConsign a w s).Kept := by
  unfold takeConsign
  split
  · exact (refuse_still _ _ (.refl _)).light.kept k
  · next n hn =>
    have h := consignCheck_inr hn
    have k1 := (consigned_takes (a := a) h k).kept k
    have k2 : (match keyOwner s w.key with
        | some (m, p) => retirePage m p .superseded .superseded (consigned a w n s)
        | none => consigned a w n s).Kept := by
      split
      · exact (retirePage_keeps _ _ _ _ (.refl _)).kept k1
      · exact k1
    exact (writeTaken_still a (foldl_writeEntry_still _ (.refl _))).light.kept ((joinVerify_light _ (.refl _)).kept k2)

theorem takeWithdraw_keeps (a : U64) (w : WithdrawBody) (h : Keeps b s) : Keeps b (takeWithdraw a w s) := by
  have hr : ∀ d, Keeps b (refuse a d s) := fun d => (refuse_still a d (.refl _)).keeps h
  unfold takeWithdraw
  refine ite_keeps (fun _ => hr _) fun _ => ?_
  split
  · exact hr _
  · exact ite_keeps (fun _ => hr _) fun _ => (finalDisposition_still _ _ _ (.refl _)).keeps (retirePage_keeps _ _ _ _ h)

/-! ### ISSUE TARGET (R51, R65) -/

theorem dropGeneration_keeps (n : LineId) (e : CatEntry) (h : Keeps b s) : Keeps b (dropGeneration n e s) := by
  have h1 := ite_keeps (p := (s.line n).slot.map (fun sl => sl.generation) = some e.generation)
    (fun _ => abortSlot_keeps n h) fun _ => h
  have h2 := (dropEntry_light n e (.refl _)).keeps h1
  unfold dropGeneration
  exact (writeLineMirror_still n (.refl _)).keeps (ite_keeps (fun _ => h2) fun _ => retractMany_keeps _ _ _ h2)

theorem issueEntry_keeps (a : U64) (number : Nat) (g : U16) (e : TargetEntry) (i : Nat) (h : Keeps b s) :
    Keeps b (issueEntry a number g e i s) := by
  have h1 : Keeps b (match (s.line (lineOf e.line)).catalog with
      | c :: _ :: _ => dropGeneration (lineOf e.line) c s
      | _ => s) := by
    split
    · exact dropGeneration_keeps _ _ h
    · exact h
  unfold issueEntry
  exact (joinVerify_light _ (.refl _)).keeps ((writeLineMirror_still _ (.refl _)).keeps
    (modLine_view_keeps _ _ (fun _ => rfl) h1))

theorem takeIssueTarget_keeps (a : U64) (w : IssueTargetBody) (h : Keeps b s) : Keeps b (takeIssueTarget a w s) := by
  unfold takeIssueTarget
  split
  · exact (refuse_still _ _ (.refl _)).keeps h
  · refine foldl_keeps _ (fun _ _ h => changeoverCheck_keeps _ h) _ ((writeTaken_still a (foldl_still _ (fun _ _ h =>
      hostWrite_still _ _ h) _ (.refl _))).keeps (foldl_keeps _ (fun _ _ h => issueEntry_keeps _ _ _ _ _ h) _ ?_))
    exact (setTargetOrders_still _ (.refl _)).keeps h

end Sys2Proof.Machine
end

section
/-! What is kept of the queues and the pool by SET PRESS LINE: a line enabled, moved to another link, given another path, disabled
(R89, R106, R126 to R128, R39, R67). -/

namespace Sys2Proof.Machine

variable {b s t : State} {home home' : LinkId → LineId → Prop} {loose : Xfer → Prop} {n : LineId}

theorem Layout.Ordered.rehome {L : Layout} (h : L.Ordered home loose)
    (hh : ∀ l x k, L.On l x → L.stand x = some k → home l k.line → home' l k.line) : L.Ordered home' loose where
  waits l x hx := by
    obtain ⟨k, hk, hq, hl⟩ := h.waits l x hx
    exact ⟨k, hk, hq, hh l x k (.inl hx) hk hl⟩
  sends l x hx := by
    obtain ⟨k, hk, hq, hl⟩ := h.sends l x hx
    exact ⟨k, hk, hq, hh l x k (.inr hx) hk hl⟩
  nodup := h.nodup
  oneQueue := h.oneQueue
  oneSending := h.oneSending
  order := h.order
  sequence := h.sequence
  counter := h.counter

/-! ### Enabling (R126) -/

/-- What stands in a queue or a SENDING slot is at an enabled line. -/
theorem State.Laid.on_enabled (h : s.Laid home loose) {l : LinkId} {x : Xfer} {k : Stand} (o : s.layout.On l x)
    (hk : s.layout.stand x = some k) : (s.line k.line).enabled = true := by
  cases x with
  | dest i =>
    obtain ⟨r, hr, rfl⟩ := Option.map_eq_some_iff.1 (show (s.rec? i).map _ = some k from hk)
    refine h.pool.lives i r.view (by rw [get_recViews, hr]; rfl) ?_
    by_contra c
    have hf : r.state.isFinal = true := Bool.eq_true_of_not_eq_false c
    exact (h.idle_dest fun q hq => by rw [hr] at hq; cases hq; exact DestState.apart_of_final hf).not_on l o
  | slot m =>
    obtain ⟨sl, hsl, rfl⟩ := Option.map_eq_some_iff.1 (show (s.line m).slot.map _ = some k from hk)
    refine h.pool.slots m fun c => ?_
    have : (s.line m).slot.map Slot.view = none := c
    rw [hsl] at this
    cases this

/-- A change of a line's configuration moves no transfer. -/
theorem modLine_stand {f : Line → Line} (hf : (f (s.line n)).slot = (s.line n).slot) (x : Xfer) :
    (s.modLine n f).layout.stand x = s.layout.stand x := by
  by_cases e : x = .slot n
  · subst e
    show ((s.modLine n f).line n).slot.map _ = (s.line n).slot.map _
    rw [State.line_modLine_self, hf]
  · exact stand_modLine_ne e

/-- A line enabled: nothing has stood at it. -/
theorem enableLine_kept (c : LineConfig) (he : (s.line n).enabled = false) (k : s.Kept) : (enableLine n c s).Kept := by
  refine (askQuery_light n (.refl _)).kept ((setLineState_light n _ (.refl _)).kept ⟨?_, ?_⟩)
  · have h1 : (s.modLine n fun k => { k with enabled := true, cfg := c }).layout.Ordered s.routes fun _ => False :=
      k.ordered.restands (fun _ => rfl) (fun _ => rfl) rfl fun _ x _ => modLine_stand rfl x
    refine h1.rehome fun l x st o hst hl => ?_
    rw [modLine_stand rfl] at hst
    have hne : st.line ≠ n := fun e => by
      have := k.on_enabled (l := l) o hst
      rw [e, he] at this
      cases this
    show (s.modLine n _).linkOf st.line = l
    unfold State.linkOf
    rw [State.line_modLine, if_neg hne]
    exact hl
  · have hen : ∀ m, (s.line m).enabled = true →
        ((s.modLine n fun k => { k with enabled := true, cfg := c }).line m).enabled = true := fun m hm => by
      rw [State.line_modLine]
      split
      · rfl
      · exact hm
    refine ⟨k.pool.recsRise, k.pool.pagesRise, k.pool.free, k.pool.dests, fun i v hv hf => hen _ (k.pool.lives i v hv hf),
      fun m hm => hen m (k.pool.slots m fun c => hm ?_)⟩
    rw [State.line_modLine]
    split
    · next e => exact e ▸ c
    · exact c

/-! ### A change of link: the queues (R89) -/

/-- A record changed but for its line. -/
theorem modRec_stand_line {i : Nat} {f : DestRec → DestRec} (hf : ∀ r, (f r).line = r.line) (y : Xfer) :
    ((s.modRec i f).layout.stand y).map Stand.line = (s.layout.stand y).map Stand.line := by
  by_cases e : y = .dest i
  · subst e
    show (((s.modRec i f).rec? i).map _).map _ = ((s.rec? i).map _).map _
    rw [rec_modRec, if_pos rfl]
    cases s.rec? i with
    | none => rfl
    | some r => exact congrArg some (hf r)
  · rw [stand_modRec_ne e]

theorem modSlot_stand_line {f : Slot → Slot} (y : Xfer) :
    ((s.modSlot n f).layout.stand y).map Stand.line = (s.layout.stand y).map Stand.line := by
  by_cases e : y = .slot n
  · subst e
    show (((s.modLine n _).line n).slot.map _).map _ = ((s.line n).slot.map _).map _
    rw [State.line_modLine_self]
    cases (s.line n).slot <;> rfl
  · exact congrArg _ (stand_modLine_ne e)

theorem setSeq_stand_line (x y : Xfer) (q : Nat) (s : State) :
    ((setSeq x q s).layout.stand y).map Stand.line = (s.layout.stand y).map Stand.line := by
  cases x with
  | dest i => exact modRec_stand_line (f := fun r => { r with seq := q }) (fun _ => rfl) y
  | slot n => exact modSlot_stand_line y

/-- Making room for a sequence changes the line of no transfer. -/
theorem roomForSeq_frame (s : State) : (∀ m, (roomForSeq s).link m = s.link m) ∧ (roomForSeq s).routes = s.routes ∧
    ∀ y, ((roomForSeq s).layout.stand y).map Stand.line = (s.layout.stand y).map Stand.line := by
  have hf : ∀ (xs : List Xfer) (q : Nat) (s : State) (y : Xfer),
      ((renumberFrom q xs s).layout.stand y).map Stand.line = (s.layout.stand y).map Stand.line := by
    intro xs
    induction xs with
    | nil => exact fun _ _ _ => rfl
    | cons x xs ih => exact fun q s y => (ih (q + 1) (setSeq x q s) y).trans (setSeq_stand_line x y q s)
  unfold roomForSeq
  split
  · exact ⟨fun m => (renumberFrom_frame (sequenced s) 0 s).1 m, (renumberFrom_frame (sequenced s) 0 s).2.1,
      fun y => hf (sequenced s) 0 s y⟩
  · exact ⟨fun _ => rfl, rfl, fun _ => rfl⟩

/-- Joining a queue changes the line of no transfer, no route, no other queue and no SENDING slot. -/
theorem joinQueue_frame (l : LinkId) (x : Xfer) (s : State) :
    (∀ m, ((joinQueue l x s).link m).sending = (s.link m).sending) ∧
      (∀ m, m ≠ l → ((joinQueue l x s).link m).queue = (s.link m).queue) ∧
      (joinQueue l x s).routes = s.routes ∧
      ∀ y, ((joinQueue l x s).layout.stand y).map Stand.line = (s.layout.stand y).map Stand.line := by
  obtain ⟨rlink, rroutes, rline⟩ := roomForSeq_frame s
  obtain ⟨slink, _, sroutes, _⟩ := setSeq_frame x (roomForSeq s).seqNext (roomForSeq s)
  have hsend : ∀ m, ((setSeq x (roomForSeq s).seqNext (roomForSeq s)).link m).sending = (s.link m).sending := fun m =>
    congrArg Link.sending ((slink m).trans (rlink m))
  have hlight := joinQueue_light l x s
  refine ⟨fun m => (hlight.links m).2.trans ?_, fun m hm => (hlight.links m).1.trans ?_,
    hlight.routes.trans (sroutes.trans rroutes), fun y => ?_⟩
  · rw [State.link_modLink]
    split
    · next e =>
      subst e
      exact hsend m
    · exact hsend m
  · rw [State.link_modLink, if_neg hm]
    exact congrArg Link.queue ((slink m).trans (rlink m))
  · rw [hlight.layout]
    refine (congrArg _ (modLink_stand l _ y)).trans ?_
    exact (setSeq_stand_line x y _ _).trans (rline y)

theorem leaveQueue_links (l : LinkId) (x : Xfer) (s : State) (m : LinkId) :
    ((leaveQueue l x s).link m).queue = (if m = l then (s.link l).queue.filter (fun y => y != x) else (s.link m).queue) ∧
      ((leaveQueue l x s).link m).sending = (s.link m).sending := by
  have h := leaveQueue_layout l x s
  exact ⟨congrFun (congrArg Layout.queue h) m, congrFun (congrArg Layout.sending h) m⟩

theorem leaveQueue_stand (l : LinkId) (x y : Xfer) (s : State) : (leaveQueue l x s).layout.stand y = s.layout.stand y := by
  rw [leaveQueue_layout]

/-- A transfer's record or slot is at a line. -/
def State.AtLine (s : State) (n : LineId) (x : Xfer) : Prop := (s.layout.stand x).map Stand.line = some n

/-- A line's transfers on their way from one link's queue to another's, those in `rest` yet to go (R89). -/
structure Moving (n : LineId) (old new : LinkId) (routes : LinkId → LineId → Prop) (rest : List Xfer) (s : State) : Prop where
  laid : s.Laid (fun l m => m ≠ n ∧ routes l m ∨ m = n ∧ (l = old ∨ l = new)) (· ∈ rest)
  here : ∀ x ∈ rest, x ∈ (s.link old).queue ∧ s.AtLine n x
  only : ∀ x ∈ (s.link old).queue, s.AtLine n x → x ∈ rest
  unsent : ∀ l x, (s.link l).sending = some x → ¬ s.AtLine n x
  apart : rest.Nodup

theorem moveXfer_moving {old new : LinkId} {routes : LinkId → LineId → Prop} {x : Xfer} {rest : List Xfer} (hne : new ≠ old)
    (h : Moving n old new routes (x :: rest) s) : Moving n old new routes rest (moveXfer old new s x) := by
  obtain ⟨hx, hline⟩ := h.here x (.head _)
  obtain ⟨hnot, hnd⟩ := List.nodup_cons.1 h.apart
  have hq : ∀ m, x ∈ (s.link m).queue → m = old := fun m c => h.laid.ordered.oneQueue m old x c hx
  have hidle : (leaveQueue old x s).layout.Idle x := fun m => by
    refine ⟨fun c => ?_, fun c => h.laid.ordered.not_sending (m := m) hx ((leaveQueue_links old x s m).2.symm.trans c)⟩
    have c : x ∈ ((leaveQueue old x s).link m).queue := c
    rw [(leaveQueue_links old x s m).1] at c
    split at c
    · simp at c
    · next e => exact e (hq m c)
  have hleft : (leaveQueue old x s).Laid (fun l m => m ≠ n ∧ routes l m ∨ m = n ∧ (l = old ∨ l = new)) (· ∈ rest) := by
    have := leaveQueue_laid old x h.laid
    refine ⟨this.ordered.mono (fun _ _ p => p) fun l y hy c => ?_, this.pool⟩
    refine (List.mem_cons.1 c).resolve_left fun e => ?_
    exact (hidle l).1 (e ▸ hy)
  have hstand : ∃ k, (leaveQueue old x s).layout.stand x = some k ∧ k.standing = .queued ∧ k.line = n := by
    obtain ⟨k, hk, hs, _⟩ := h.laid.ordered.waits old x hx
    refine ⟨k, (leaveQueue_stand _ _ _ _).trans hk, hs, ?_⟩
    unfold State.AtLine at hline
    rw [hk] at hline
    exact Option.some.inj hline
  obtain ⟨k, hk, hs, hn⟩ := hstand
  have hlaid := (joinQueue_laid (l := new) hidle (fun y hy c => ?_) ⟨k, hk, hs, .inr ⟨hn, .inr rfl⟩⟩ hleft).1
  · obtain ⟨jsend, jqueue, _, jline⟩ := joinQueue_frame new x (leaveQueue old x s)
    have hat : ∀ y, (moveXfer old new s x).AtLine n y ↔ s.AtLine n y := fun y => by
      unfold State.AtLine moveXfer
      rw [jline, leaveQueue_stand]
    have hold : ((moveXfer old new s x).link old).queue = (s.link old).queue.filter fun y => y != x := by
      refine (jqueue old hne.symm).trans ?_
      rw [(leaveQueue_links old x s old).1, if_pos rfl]
    refine ⟨hlaid, fun y hy => ⟨?_, (hat y).2 (h.here y (.tail _ hy)).2⟩, fun y hy ha => ?_, fun l y hy ha => ?_, hnd⟩
    · rw [hold]
      refine List.mem_filter.2 ⟨(h.here y (.tail _ hy)).1, bne_iff_ne.2 fun e => hnot (e ▸ hy)⟩
    · rw [hold] at hy
      obtain ⟨hm, hyx⟩ := List.mem_filter.1 hy
      exact (List.mem_cons.1 (h.only y hm ((hat y).1 ha))).resolve_left (bne_iff_ne.1 hyx)
    · exact h.unsent l y (((leaveQueue_links old x s l).2.symm.trans (jsend l).symm).trans hy) ((hat y).1 ha)
  · -- a transfer still to go stands in the old queue, not in the new one
    have hy' : y ∈ (s.link new).queue := by
      have := (leaveQueue_links old x s new).1
      rw [if_neg hne] at this
      exact this ▸ hy
    exact hne (h.laid.ordered.oneQueue new old y hy' (h.here y (.tail _ c)).1)

theorem moveXfer_routes (old new : LinkId) (x : Xfer) (s : State) : (moveXfer old new s x).routes = s.routes :=
  (joinQueue_frame new x _).2.2.1.trans (leaveQueue_routes old x s)

theorem foldl_moveXfer_routes (old new : LinkId) (xs : List Xfer) (s : State) :
    (xs.foldl (moveXfer old new) s).routes = s.routes := by
  induction xs generalizing s with
  | nil => rfl
  | cons x xs ih => exact (ih _).trans (moveXfer_routes old new x s)

theorem foldl_moveXfer_moving {old new : LinkId} {routes : LinkId → LineId → Prop} (rest : List Xfer) (hne : new ≠ old)
    (h : Moving n old new routes rest s) : Moving n old new routes [] (rest.foldl (moveXfer old new) s) := by
  induction rest generalizing s with
  | nil => exact h
  | cons x rest ih => exact ih (moveXfer_moving hne h)

/-! ### The keys of a line's transfers anew -/

/-- What computing L and urgency anew leaves: the queues, the SENDING slots, the routes, the lines of transfers, and the order of all but
the transfers `P`. -/
structure Aged (home : LinkId → LineId → Prop) (P : Xfer → Prop) (s t : State) : Prop where
  routes : t.routes = s.routes
  links : ∀ l, t.link l = s.link l
  stand : ∀ y, (t.layout.stand y).map Stand.line = (s.layout.stand y).map Stand.line
  laid : t.Laid home P

theorem updateL_aged {P : Xfer → Prop} {i : Nat} (hi : P (.dest i)) (h : Aged home P s t) : Aged home P s (updateL i t) := by
  have hl := updateL_laid i h.laid
  refine ⟨(updateL_routes i t).trans h.routes, fun l => (updateL_link i l t).trans (h.links l), fun y => ?_,
    hl.ordered.mono (fun _ _ p => p) fun _ _ _ c => c.elim (fun e => e ▸ hi) id, hl.pool⟩
  refine Eq.trans ?_ (h.stand y)
  unfold updateL
  split
  · rfl
  · refine modRec_stand_line ?_ y
    exact fun _ => rfl

theorem foldl_updateL_aged {P : Xfer → Prop} (ids : List Nat) (hids : ∀ i ∈ ids, P (.dest i)) (h : Aged home P s t) :
    Aged home P s (ids.foldl (fun s i => updateL i s) t) := by
  induction ids generalizing t with
  | nil => exact h
  | cons i ids ih => exact ih (fun j hj => hids j (.tail _ hj)) (updateL_aged (hids i (.head _)) h)

theorem recomputeSlot_aged {P : Xfer → Prop} (hn : P (.slot n)) (h : Aged home P s t) : Aged home P s (recomputeSlot n t) := by
  have hm : ∀ f : Slot → Slot, (∀ sl, (f sl).state = sl.state ∧ (f sl).seq = sl.seq) → Aged home P s (t.modSlot n f) := by
    intro f hf
    have hl := modSlot_rekey (n := n) hf h.laid
    exact ⟨(modSlot_routes n f).trans h.routes, h.links, fun y => (modSlot_stand_line y).trans (h.stand y),
      hl.ordered.mono (fun _ _ p => p) fun _ _ _ c => c.elim (fun e => e ▸ hn) id, hl.pool⟩
  unfold recomputeSlot
  split
  · exact h
  · exact hm _ fun _ => ⟨rfl, rfl⟩

/-! ### A change of link as a whole (R89) -/

/-- A line routed anew whose transfers still stand where they stood, none of them SENDING (R125 check 4, R127). -/
structure Rerouted (n : LineId) (old new : LinkId) (s : State) : Prop where
  laid : s.Laid (fun l m => m ≠ n ∧ s.routes l m ∨ m = n ∧ l = old) fun _ => False
  now : s.linkOf n = new
  unsent : ∀ l x, (s.link l).sending = some x → ¬ s.AtLine n x

theorem xferLine_iff {x : Xfer} {k : Stand} (hk : s.layout.stand x = some k) : xferLine s x = some n ↔ s.AtLine n x := by
  cases x with
  | dest i =>
    obtain ⟨r, hr, rfl⟩ := Option.map_eq_some_iff.1 (show (s.rec? i).map _ = some k from hk)
    unfold State.AtLine xferLine
    dsimp only
    rw [hk, hr]
    exact Iff.rfl
  | slot m =>
    obtain ⟨sl, hsl, rfl⟩ := Option.map_eq_some_iff.1 (show (s.line m).slot.map _ = some k from hk)
    unfold State.AtLine xferLine
    rw [hk]
    exact Iff.rfl

theorem atLine_iff {x : Xfer} {k : Stand} (hk : s.layout.stand x = some k) : s.AtLine n x ↔ k.line = n := by
  unfold State.AtLine
  rw [hk]
  exact Option.some_inj

/-- The movers of R89 are the line's transfers in the old queue, each once. -/
theorem movers_spec {old : LinkId} (h : s.Laid home loose) :
    (movers s old n).Nodup ∧ ∀ x, x ∈ movers s old n ↔ x ∈ (s.link old).queue ∧ s.AtLine n x := by
  have hn : ((s.link old).queue.filter fun x => xferLine s x == some n).Nodup := (h.ordered.nodup old).sublist List.filter_sublist
  obtain ⟨hp, -⟩ := foldl_insertBySeq_spec (s := s) hn fun x hx y hy hxy => by
    rw [xferKey_eq, xferKey_eq]
    exact h.ordered.sequence old old x y (.inl (List.mem_filter.1 hx).1) (.inl (List.mem_filter.1 hy).1) hxy
  refine ⟨hp.nodup_iff.2 hn, fun x => hp.mem_iff.trans (List.mem_filter.trans (and_congr_right fun hx => ?_))⟩
  obtain ⟨k, hk, _⟩ := h.ordered.waits old x hx
  rw [beq_iff_eq]
  exact xferLine_iff hk

theorem moveQueues_kept {old new : LinkId} (hne : new ≠ old) (h : Rerouted n old new s) : (moveQueues n old new s).Kept := by
  have h0 : Aged (fun l m => m ≠ n ∧ s.routes l m ∨ m = n ∧ l = old) (fun y => ∀ k, s.layout.stand y = some k → k.line = n) s s :=
    ⟨rfl, fun _ => rfl, fun _ => rfl, h.laid.ordered.mono (fun _ _ p => p) fun _ _ _ c => c.elim, h.laid.pool⟩
  have hwait : ∀ i ∈ waitingRecs s n, ∀ k, s.layout.stand (.dest i) = some k → k.line = n := by
    intro i hi k hk
    obtain ⟨⟨j, q⟩, he, rfl⟩ := List.mem_map.1 (List.mem_filter.1 hi).1
    obtain ⟨hm, hl⟩ := List.mem_filter.1 he
    rw [stand_dest (Table.get_of_mem h.laid.recs_rising hm)] at hk
    cases hk
    exact beq_iff_eq.1 hl
  have h1 := foldl_updateL_aged (waitingRecs s n) hwait h0
  have h2 := recomputeSlot_aged (n := n) (fun k hk => by
    obtain ⟨_, _, rfl⟩ := Option.map_eq_some_iff.1 (show (s.line n).slot.map _ = some k from hk)
    rfl) h1
  generalize hv : recomputeSlot n ((waitingRecs s n).foldl (fun s i => updateL i s) s) = v at h2
  have hat : ∀ y, v.AtLine n y ↔ s.AtLine n y := fun y => by unfold State.AtLine; rw [h2.stand]
  obtain ⟨hnd, hmem⟩ := movers_spec (n := n) (old := old) h2.laid
  have hmoving : Moving n old new s.routes (movers v old n) v := by
    refine ⟨⟨h2.laid.ordered.mono (fun l m p => ?_) fun l x hx c => ?_, h2.laid.pool⟩, fun x hx => (hmem x).1 hx,
      fun x hx ha => (hmem x).2 ⟨hx, ha⟩, fun l x hx ha => ?_, hnd⟩
    · exact p.imp id fun ⟨e, e'⟩ => ⟨e, .inl e'⟩
    · obtain ⟨k, hk, _, hh⟩ := h2.laid.ordered.waits l x hx
      have hx' : ∃ k', s.layout.stand x = some k' ∧ k'.line = k.line := by
        have := h2.stand x
        rw [hk] at this
        exact Option.map_eq_some_iff.1 this.symm
      obtain ⟨k', hk', e⟩ := hx'
      have hkn : k.line = n := e.symm.trans (c k' hk')
      have : l = old := (hh.resolve_left fun c => c.1 hkn).2
      exact (hmem x).2 ⟨this ▸ hx, (atLine_iff hk).2 hkn⟩
    · exact h.unsent l x ((congrArg Link.sending (h2.links l)).symm.trans hx) ((hat x).1 ha)
  have hend := foldl_moveXfer_moving _ hne hmoving
  have hroutes : ((movers v old n).foldl (moveXfer old new) v).routes = s.routes :=
    (foldl_moveXfer_routes old new _ v).trans h2.routes
  have hkept : ((movers v old n).foldl (moveXfer old new) v).Kept := by
    refine ⟨(hend.laid.ordered.mono (fun _ _ p => p) fun _ _ _ c => by cases c).rehome fun l x k o hk hh => ?_, hend.laid.pool⟩
    rw [hroutes]
    rcases hh with ⟨_, hh⟩ | ⟨hkn, e | e⟩
    · exact hh
    · subst e
      rcases o with o | o
      · exact absurd (hend.only x o ((atLine_iff hk).2 hkn)) List.not_mem_nil
      · exact absurd ((atLine_iff hk).2 hkn) (hend.unsent l x o)
    · subst e
      rw [hkn]
      exact h.now
  unfold moveQueues
  dsimp only
  rw [hv]
  exact (pick_keeps new (reexamine_keeps n (.refl _))).kept hkept

theorem moveRec_keeps (up : Bool) (i : Nat) (h : Keeps b s) : Keeps b (moveRec up s i) := by
  unfold moveRec
  exact ite_keeps (fun _ => recLinkUp_keeps i h) fun _ => (pauseTimer_light i (.refl _)).keeps h

theorem moveLink_kept {old new : LinkId} (hne : new ≠ old) (h : Rerouted n old new s) : (moveLink n old new s).Kept := by
  have k := moveQueues_kept hne h
  unfold moveLink
  exact ((moveFrames_light n old new _ (.refl _)).keeps ((sendOwedTarget_light n (.refl _)).keeps
    (foldl_keeps _ (fun _ i h => moveRec_keeps _ i h) _ (.refl _)))).kept k

end Sys2Proof.Machine
end

section
/-! What is kept of the queues and the pool by SET PRESS LINE as a whole: a line reconfigured or disabled (R127, R128, R39, R67). -/

namespace Sys2Proof.Machine

variable {b s t : State} {home home' : LinkId → LineId → Prop} {loose : Xfer → Prop} {n : LineId}

/-! ### Reconfiguring (R127) -/

theorem modLine_light_at (f : Line → Line) (hf : (f (s.line n)).view = (s.line n).view) (h : Light b s) :
    Light b (s.modLine n f) := by
  refine h.trans (.of_views rfl rfl rfl rfl rfl rfl (fun m => ?_) fun _ => ⟨rfl, rfl⟩)
  rw [State.line_modLine]
  split
  · next e => rw [hf, e]
  · rfl

theorem lineBusy_of_rec {i : Nat} {r : DestRec} (hr : s.rec? i = some r) (hs : r.state = .sending) :
    lineBusy s r.line = true := by
  unfold lineBusy
  refine Bool.or_eq_true_iff.2 (.inl (List.any_eq_true.2 ⟨_, Table.mem_of_get hr, ?_⟩))
  simp [hs]

theorem lineBusy_of_slot {sl : Slot} (hs : (s.line n).slot = some sl) (hq : sl.state = .sending) : lineBusy s n = true := by
  unfold lineBusy
  refine Bool.or_eq_true_iff.2 (.inr ?_)
  rw [hs]
  simp [hq]

/-- No transfer of a line that is not busy is in a SENDING slot (R125 check 4). -/
theorem State.Laid.unsent (h : s.Laid home loose) (hb : lineBusy s n = false) (l : LinkId) (x : Xfer)
    (hx : (s.link l).sending = some x) : ¬ s.AtLine n x := by
  obtain ⟨k, hk, hs, _⟩ := h.ordered.sends l x hx
  rw [atLine_iff hk]
  rintro rfl
  refine Bool.eq_false_iff.1 hb ?_
  cases x with
  | dest i =>
    obtain ⟨r, hr, rfl⟩ := Option.map_eq_some_iff.1 (show (s.rec? i).map _ = some k from hk)
    exact lineBusy_of_rec hr (DestState.eq_sending hs)
  | slot m =>
    obtain ⟨sl, hsl, rfl⟩ := Option.map_eq_some_iff.1 (show (s.line m).slot.map _ = some k from hk)
    exact lineBusy_of_slot hsl (SlotState.eq_sending hs)

theorem reroute_rerouted (c : LineConfig) (hb : lineBusy s n = false) (k : s.Kept) :
    Rerouted n (s.linkOf n) c.link (reroute n c.link (s.modLine n fun k => { k with cfg := c })) := by
  have hl := reroute_light n c.link (.refl (s.modLine n fun k => { k with cfg := c }))
  have hstand : ∀ x, (s.modLine n fun k => { k with cfg := c }).layout.stand x = s.layout.stand x := fun x => modLine_stand rfl x
  have hord : (s.modLine n fun k => { k with cfg := c }).layout.Ordered s.routes fun _ => False :=
    k.ordered.restands (fun _ => rfl) (fun _ => rfl) rfl fun _ x _ => hstand x
  refine ⟨?_, ?_, fun l x hx ha => k.unsent hb l x ((hl.links l).2.symm.trans hx) ?_⟩
  · rw [hl.routes]
    refine hl.laid ⟨hord.mono (fun l m p => ?_) fun _ _ _ => id, PoolOk.reline k.pool (fun m => ?_) fun m hm => .inl ?_⟩
    · by_cases e : m = n
      · subst e
        exact .inr ⟨rfl, Eq.symm p⟩
      · refine .inl ⟨e, ?_⟩
        show (s.modLine n _).linkOf m = l
        unfold State.linkOf
        rw [State.line_modLine, if_neg e]
        exact p
    · rw [State.line_modLine]
      split
      · next e => exact e ▸ rfl
      · rfl
    · rw [State.line_modLine] at hm
      split at hm
      · next e => exact e ▸ hm
      · exact hm
  · rw [hl.linkOf]
    unfold State.linkOf
    rw [State.line_modLine_self]
  · unfold State.AtLine at ha ⊢
    rw [hl.layout, hstand] at ha
    exact ha

theorem repathRec_keeps (i : Nat) (h : Keeps b s) : Keeps b (repathRec s i) := by
  unfold repathRec
  split
  · exact h
  · next r hr =>
    refine ite_keeps (fun _ => h) fun _ => h.trans ?_
    refine rekeyed_move (updateL_dues i (.refl s)) (updateL_routes i s) (fun k hk => ?_) fun ks => updateL_laid i ks
    rw [stand_dest (updateL_rec hr)] at hk
    cases hk
    show (updateL i s).linkOf r.line = s.linkOf r.line
    unfold State.linkOf State.line
    rw [updateL_lines]

theorem repath_keeps (n : LineId) (h : Keeps b s) : Keeps b (repath n s) :=
  reexamine_keeps n (foldl_keeps _ (fun _ i h => repathRec_keeps i h) _ h)

theorem setDeadlines_kept (d : List DeadlineEntry) (k : s.Kept) : (s.setDeadlines d).Kept :=
  ⟨k.ordered.restands (fun _ => rfl) (fun _ => rfl) rfl fun _ x _ => by cases x <;> rfl, k.pool⟩

/-- Re-timing moves no transfer. -/
theorem retime_kept (n : LineId) (lead : Nat) (k : s.Kept) : (retime n lead s).Kept := by
  unfold retime
  generalize warnEntries s n = ds
  induction ds generalizing s with
  | nil => exact k
  | cons d ds ih =>
    refine ih ?_
    unfold retimeEntry addDeadline removeDeadline
    split
    · exact k
    · exact setDeadlines_kept _ (setDeadlines_kept _ k)

theorem ite_kept {p : Prop} [Decidable p] (ht : p → t.Kept) (hs : ¬ p → s.Kept) : (if p then t else s).Kept := by
  split
  · next h => exact ht h
  · next h => exact hs h

theorem routeChanged_of_link {c d : LineConfig} (h : c.link ≠ d.link) : routeChanged c d = true := by
  simp [routeChanged, h]

theorem reconfigureLine_kept (c : LineConfig) (hb : routeChanged (s.line n).cfg c = true → lineBusy s n = false) (k : s.Kept) :
    (reconfigureLine n c s).Kept := by
  unfold reconfigureLine
  dsimp only
  have hmoved : (if (s.line n).cfg.link ≠ c.link then moveLink n (s.line n).cfg.link c.link
      (if routeChanged (s.line n).cfg c = true then reroute n c.link (s.modLine n fun k => { k with cfg := c })
        else s.modLine n fun k => { k with cfg := c })
      else if routeChanged (s.line n).cfg c = true then reroute n c.link (s.modLine n fun k => { k with cfg := c })
        else s.modLine n fun k => { k with cfg := c }).Kept := by
    refine ite_kept (fun hl => ?_) fun hl => ?_
    · have hr := routeChanged_of_link hl
      rw [if_pos hr]
      exact moveLink_kept (Ne.symm hl) (reroute_rerouted c (hb hr) k)
    · have hv : Light s (s.modLine n fun k => { k with cfg := c }) :=
        modLine_light_at _ (by simp [Line.view, not_not.1 hl]) (.refl s)
      exact (ite_light (reroute_light n c.link hv) hv).kept k
  have hpath := ite_kept (p := (s.line n).cfg.path ≠ c.path) (fun _ => (repath_keeps n (.refl _)).kept hmoved) fun _ => hmoved
  exact ite_kept (fun _ => retime_kept n _ hpath) fun _ => hpath

/-! ### Disabling (R128, R39, R67) -/

/-- Every record of a line has ended. -/
def NoLive (n : LineId) (s : State) : Prop := ∀ i r, s.rec? i = some r → r.line = n → r.state.isFinal = true

theorem Light.noLive (h : Light s t) (hn : NoLive n s) : NoLive n t := fun i r hr hl => by
  obtain ⟨q, hq, e⟩ := h.rec_view hr
  have hs : q.state = r.state := congrArg RecView.state e
  have hline : q.line = r.line := congrArg RecView.line e
  exact hs ▸ hn i q hq (hline.trans hl)

theorem monitor_recs (i : Nat) (s : State) : (monitor i s).recs = s.recs := by
  unfold monitor addDeadline removeDeadline
  split
  · rfl
  · split
    case h_7 =>
      dsimp only
      split
      · split <;> rfl
      · rfl
    all_goals rfl

theorem applyChange_rec (n i : Nat) (f : DestRec → DestRec) (s : State) :
    (applyChange n f s).rec? i = if i = n then (s.rec? n).map f else s.rec? i := by
  rw [← rec_modRec, ← (writeEntry_still n (Still.refl (s.modRec n f))).rec? i]
  unfold applyChange State.rec?
  rw [monitor_recs]

theorem finish_rec (n i : Nat) (st : DestState) (d : Detail) (s : State) : (finish n st d s).rec? i =
    if i = n then (s.rec? n).map fun r => { r with state := st, detail := d, timer := .stopped } else s.rec? i := by
  rw [finish, (dropControl_still _ (.refl _)).rec?, applyChange_rec]

theorem loseRec_keeps (i : Nat) (h : Keeps b s) : Keeps b (loseRec s i) := by
  unfold loseRec
  split
  · exact h
  · exact ite_keeps (fun _ => h) fun _ => finish_keeps i _ _ rfl (fun k => detachRec_idle i (h.kept k)) (detachRec_keeps i h)

/-- A record lost has ended; the others are as they were. -/
theorem loseRec_rec {i j : Nat} {r : DestRec} (hr : (loseRec s i).rec? j = some r) :
    r.state.isFinal = true ∨ j ≠ i ∧ s.rec? j = some r := by
  unfold loseRec at hr
  split at hr
  · next hn =>
    refine .inr ⟨fun e => ?_, hr⟩
    rw [e, hn] at hr
    cases hr
  · next q hq =>
    split at hr
    · next hf =>
      by_cases e : j = i
      · rw [e, hq] at hr
        cases hr
        exact .inl hf
      · exact .inr ⟨e, hr⟩
    · rw [finish_rec, detachRec_rec, detachRec_rec] at hr
      split at hr
      · obtain ⟨_, _, rfl⟩ := Option.map_eq_some_iff.1 hr
        exact .inl rfl
      · next e => exact .inr ⟨e, hr⟩

theorem foldl_loseRec_noLive (ids : List Nat)
    (h : ∀ i r, s.rec? i = some r → r.line = n → r.state.isFinal = true ∨ i ∈ ids) : NoLive n (ids.foldl loseRec s) := by
  induction ids generalizing s with
  | nil => exact fun i r hr hl => (h i r hr hl).resolve_right List.not_mem_nil
  | cons i ids ih =>
    refine ih fun j r hr hl => ?_
    rcases loseRec_rec hr with hf | ⟨hne, hr⟩
    · exact .inl hf
    · exact (h j r hr hl).imp id fun c => (List.mem_cons.1 c).resolve_left hne

/-- Records are only freed at the end of a page. -/
theorem pageEndCheck_rec {m i : Nat} {r : DestRec} (hr : (pageEndCheck m s).rec? i = some r) : s.rec? i = some r := by
  unfold pageEndCheck at hr
  split at hr
  · exact hr
  · next p _ =>
    split at hr
    · have hr : (dropPage m p.dests (finalDisposition p.orderAddr (pageOutcome (leaveVerify (.page m) s) p).1
        (pageOutcome (leaveVerify (.page m) s) p).2 (leaveVerify (.page m) s))).rec? i = some r := hr
      rw [dropPage_rec] at hr
      split at hr
      · cases hr
      · rw [(finalDisposition_still _ _ _ (.refl _)).rec?] at hr
        exact hr
    · exact hr

theorem sweepPages_rec {i : Nat} {r : DestRec} (hr : (sweepPages s).rec? i = some r) : s.rec? i = some r := by
  unfold sweepPages at hr
  generalize Table.keys s.pages = ms at hr
  induction ms generalizing s with
  | nil => exact hr
  | cons m ms ih => exact pageEndCheck_rec (ih hr)

theorem detachSlot_rec (n : LineId) (i : Nat) (s : State) : (detachSlot n s).rec? i = s.rec? i := by
  have h2 : ∀ l x s, (stopSending l x s).rec? i = s.rec? i := fun l x s => by
    unfold stopSending
    split
    · exact clearSending_rec l i _
    · rfl
  exact (h2 _ _ _).trans (leaveQueue_rec _ _ i s)

theorem foldl_dropEntry_light (n : LineId) (es : List CatEntry) (h : Light b s) :
    Light b (es.foldl (fun s e => dropEntry n e s) s) :=
  foldl_light _ (fun _ e h => dropEntry_light n e h) _ h

theorem clearCatalog_keeps (n : LineId) (h : Keeps b s) : Keeps b (clearCatalog n s) := by
  have h1 := (foldl_dropEntry_light n (s.line n).catalog (.refl s)).keeps h
  have hd := (dropControl_still (isTargetWithdraw n) (Still.refl (detachSlot n ((s.line n).catalog.foldl
    (fun s e => dropEntry n e s) s))))
  unfold clearCatalog
  exact (writeLineMirror_still n (.refl _)).keeps (modLine_keeps n _
    (fun k => ⟨hd.light.idle (detachSlot_idle n (h1.kept k)), rfl, rfl, fun c => absurd rfl c⟩)
    (hd.keeps (detachSlot_keeps n h1)))

theorem clearCatalog_rec (n : LineId) (i : Nat) (s : State) : (clearCatalog n s).rec? i =
    ((s.line n).catalog.foldl (fun s e => dropEntry n e s) s).rec? i := by
  unfold clearCatalog
  dsimp only
  generalize (s.line n).catalog.foldl (fun s e => dropEntry n e s) s = u
  have hd : (dropControl (isTargetWithdraw n) (detachSlot n u)).rec? i = u.rec? i :=
    ((dropControl_still _ (.refl _)).rec? i).trans (detachSlot_rec n i u)
  rw [← hd]
  exact (writeLineMirror_still n (.refl _)).rec? i

theorem clearCatalog_noLive (h : NoLive n s) : NoLive n (clearCatalog n s) := fun i r hr =>
  (foldl_dropEntry_light n (s.line n).catalog (.refl s)).noLive h i r ((clearCatalog_rec n i s).symm.trans hr)

theorem clearCatalog_slot (n : LineId) (s : State) : ((clearCatalog n s).line n).slot = none := by
  unfold clearCatalog
  rw [(writeLineMirror_still n (.refl _)).line, State.line_modLine_self]

/-- A line without live records and without a slot is disabled. -/
theorem disable_kept {f : Line → Line} (hf : (f (s.line n)).cfg.link = (s.line n).cfg.link) (hs : (f (s.line n)).slot = none)
    (hl : NoLive n s) (hsl : (s.line n).slot = none) (k : s.Kept) : (s.modLine n f).Kept := by
  have hstand : ∀ x, (s.modLine n f).layout.stand x = s.layout.stand x := modLine_stand (hs.trans hsl.symm)
  rw [State.Kept, modLine_routes hf]
  refine ⟨k.ordered.restands (fun _ => rfl) (fun _ => rfl) rfl fun _ x _ => hstand x, k.pool.recsRise, k.pool.pagesRise,
    k.pool.free, k.pool.dests, fun i v hv hfin => ?_, fun m hm => ?_⟩
  · obtain ⟨r, hr, rfl⟩ := Option.map_eq_some_iff.1 ((get_recViews s i).symm.trans hv)
    have hne : r.line ≠ n := fun e => by
      have := hl i r hr e
      rw [show r.state.isFinal = false from hfin] at this
      cases this
    show ((s.modLine n f).line r.line).enabled = true
    rw [State.line_modLine, if_neg hne]
    exact k.pool.lives i r.view hv hfin
  · rw [State.line_modLine] at hm ⊢
    split
    · rw [if_pos ‹_›] at hm
      exact absurd (by unfold Line.view; rw [hs]; rfl) hm
    · rw [if_neg ‹_›] at hm
      exact k.pool.slots m hm

/-- Steps 1 and 2 of R128 leave a line without live records. -/
theorem loseRecs_noLive (n : LineId) (s : State) : NoLive n (sweepPages ((s.recsOf n).foldl loseRec s)) := fun i r hr =>
  foldl_loseRec_noLive (s.recsOf n) (fun j q hq hl => .inr
    (List.mem_map.2 ⟨(j, q), List.mem_filter.2 ⟨Table.mem_of_get hq, beq_iff_eq.2 hl⟩, rfl⟩)) i r (sweepPages_rec hr)

/-- Step 4 of R128 with the pick. -/
theorem unconfigure_kept (hl : NoLive n s) (hs : (s.line n).slot = none) (k : s.Kept) :
    (pick ((changeLine n (fun k => { k with enabled := false, state := .unconfigured, statusByte := 0, timeouts := 0 }) s).linkOf n)
      (raiseIfChanged (s.line n) n
        (changeLine n (fun k => { k with enabled := false, state := .unconfigured, statusByte := 0, timeouts := 0 }) s))).Kept := by
  have k1 : (s.modLine n fun k => { k with enabled := false, state := .unconfigured, statusByte := 0, timeouts := 0 }).Kept :=
    disable_kept rfl hs hl hs k
  have k2 : (changeLine n (fun k => { k with enabled := false, state := .unconfigured, statusByte := 0, timeouts := 0 }) s).Kept :=
    (settleLine_light (s.line n) n (.refl _)).kept k1
  exact (pick_keeps _ ((raiseIfChanged_still (s.line n) n (.refl _)).keeps (.refl _))).kept k2

theorem disableLine_kept (n : LineId) (k : s.Kept) : (disableLine n s).Kept := by
  have k1 := (sweepPages_keeps (foldl_keeps loseRec (fun _ i h => loseRec_keeps i h) (s.recsOf n) (.refl s))).kept k
  have hl := loseRecs_noLive n s
  unfold disableLine
  dsimp only
  generalize sweepPages ((s.recsOf n).foldl loseRec s) = u at k1 hl
  have k2 := (clearCatalog_keeps n (.refl u)).kept k1
  have hl2 := clearCatalog_noLive hl
  have hs2 := clearCatalog_slot n u
  generalize clearCatalog n u = v at k2 hl2 hs2
  have hend := endQuery_light n (.refl v)
  refine unconfigure_kept (hend.noLive hl2) ?_ (hend.kept k2)
  have := congrArg LineView.slot (hend.lines n)
  unfold Line.view at this
  rw [hs2] at this
  exact Option.map_eq_none_iff.1 this

theorem setLineCheck_none {w : SetLineBody} (h : setLineCheck s w = none) (he : w.enable = true)
    (hen : (s.line (lineOf w.line)).enabled = true) (hr : routeChanged (s.line (lineOf w.line)).cfg (cfgOf w) = true) :
    lineBusy s (lineOf w.line) = false := by
  by_contra hb
  have hb : lineBusy s (lineOf w.line) = true := Bool.eq_true_of_not_eq_false hb
  simp only [setLineCheck, he, hen, hr, hb, Bool.and_self, reduceCtorEq, if_false, if_true] at h
  repeat' split at h
  all_goals cases h

theorem takeSetLine_kept (a : U64) (w : SetLineBody) (k : s.Kept) : (takeSetLine a w s).Kept := by
  unfold takeSetLine
  split
  · exact (refuse_still _ _ (.refl _)).light.kept k
  · next hc =>
    refine (finalDisposition_still _ _ _ (.refl _)).light.kept ?_
    unfold applySetLine
    dsimp only
    split
    · next he hen => exact enableLine_kept _ hen k
    · next he hen => exact reconfigureLine_kept _ (setLineCheck_none hc he hen) k
    · exact disableLine_kept _ k
    · exact k

end Sys2Proof.Machine
end

section
/-! What is kept of the queues, the pool and the deadline list by firings and the run of due entries (R95 to R104). -/

namespace Sys2Proof.Machine

variable {b s t u : State} {home : LinkId → LineId → Prop} {loose : Xfer → Prop}

/-! ### LATE (R96, R97) -/

/-- A change of the keys of a record that waits in no queue. -/
theorem rekey_keeps (n : Nat) (f : DestRec → DestRec) (hf : Rekeys f) {r : DestRec} (hr : s.rec? n = some r) (hq : r.state ≠ .queued)
    (h : Keeps b s) : Keeps b (s.modRec n f) := by
  refine h.trans ⟨modRec_dues n f hf.isFallback (.refl s), fun k => ?_⟩
  have hl := modRec_rekey (n := n) hf k
  refine ⟨hl.ordered.mono (fun _ _ p => p) fun l x hx c => ?_, hl.pool⟩
  obtain rfl := c.resolve_right id
  obtain ⟨st, hst, hs, _⟩ := k.ordered.waits l (.dest n) hx
  rw [stand_dest hr] at hst
  cases hst
  exact hq (DestState.eq_queued hs)

theorem late_rekeys : Rekeys fun q => { q with late := true } := ⟨⟨fun _ => rfl, fun _ => rfl, fun _ => rfl⟩, fun _ => rfl, fun _ => rfl⟩

/-- A record made LATE takes its place anew where it waits. -/
theorem setLate_keeps (n : Nat) {r : DestRec} (hr : s.rec? n = some r) (h : Keeps b s) :
    Keeps b (lateEffects n (writeEntry n (s.modRec n fun q => { q with late := true }))) := by
  have hw := (writeEntry_still n (Still.refl (s.modRec n fun q => { q with late := true }))).light
  have hr' : (writeEntry n (s.modRec n fun q => { q with late := true })).rec? n = some { r with late := true } :=
    ((writeEntry_still n (.refl _)).rec? n).trans (rec_modRec_self (fun q => { q with late := true }) hr)
  have hother : r.state ≠ .queued → Keeps b (writeEntry n (s.modRec n fun q => { q with late := true })) := fun hq =>
    hw.keeps (rekey_keeps n (fun q => { q with late := true }) late_rekeys hr hq h)
  unfold lateEffects
  rw [hr']
  dsimp only
  split
  case h_1 hq =>
    have hd := (modRec_dues n (fun q => { q with late := true }) (fun _ => rfl) (.refl s)).trans hw.toDues
    refine reexamine_keeps _ (h.trans (rekeyed_move hd ?_ (fun k hk => ?_) fun k => ?_))
    · exact hw.routes
    · rw [stand_dest hr'] at hk
      cases hk
      rfl
    · exact hw.laid (modRec_rekey late_rekeys k)
  all_goals
    next hq => first
      | exact reexamine_keeps _ (hother (by rw [hq]; nofun))
      | exact hother (by rw [hq]; nofun)

theorem fireWarn_kept (n : Nat) (k : s.Kept) : (fireWarn n s).Kept := by
  unfold fireWarn
  split
  · exact k
  · next r hr =>
    refine ite_kept (fun _ => ?_) fun _ => ite_kept (fun hw => ?_) fun _ => k
    · exact setDeadlines_kept _ (((raise_still _ (.refl _)).keeps (setLate_keeps n hr (.refl s))).kept k)
    · exact setDeadlines_kept _ (((writeEntry_still n (.refl _)).keeps (rekey_keeps n (fun q => { q with late := true }) late_rekeys hr
        (by rw [hw]; nofun) (.refl s))).kept k)

/-! ### Fallback (R101 to R103) -/

/-- A fallback's record in use, before its WARN and its first place. -/
def fallbackTaken (o n : Nat) (r f : DestRec) (rest : List Nat) (s : State) : State :=
  (((s.setFree rest).putRec n f).modPage r.parent fun e => { e with dests := e.dests ++ [n] }).modRec o fun q =>
    { q with fallback := .made n }

theorem fallbackTaken_rec (o n i : Nat) (r f : DestRec) (rest : List Nat) (s : State) :
    ((fallbackTaken o n r f rest s).rec? i).map DestRec.view =
      if i = n then some f.view else (s.rec? i).map DestRec.view := by
  have hv : ((fallbackTaken o n r f rest s).rec? i).map DestRec.view =
      (Table.get (Table.put s.recs n f) i).map DestRec.view := by
    unfold fallbackTaken
    rw [rec_modRec]
    split
    · next e =>
      subst e
      rw [Option.map_map]
      rfl
    · rfl
  rw [hv]
  split
  · next e => rw [e, Table.get_put_self]; rfl
  · next e => rw [Table.get_put_ne _ _ e]; rfl

theorem fallbackTaken_takes {o n : Nat} {r f : DestRec} {rest : List Nat} (hfree : s.free = n :: rest) (hp : f.parent = r.parent)
    (he : (s.line f.line).enabled = true) (k : s.Kept) : Takes r.parent [n] s (fallbackTaken o n r f rest s) := by
  refine ⟨hfree, fun i hi => ?_, fun i hi => ?_, ?_, ?_, fun e hm => ?_, rfl, fun _ => rfl, fun _ => ⟨rfl, rfl⟩⟩
  · rw [fallbackTaken_rec, if_neg (by simpa using hi)]
  · have := fallbackTaken_rec o n i r f rest s
    rw [if_pos (by simpa using hi)] at this
    obtain ⟨q, hq, e⟩ := Option.map_eq_some_iff.1 this
    have hpar : q.parent = f.parent := congrArg RecView.parent e
    have hline : q.line = f.line := congrArg RecView.line e
    exact ⟨q, hq, hpar.trans hp, hline ▸ he⟩
  · rw [Table.rising_iff, keys_recViews, ← Table.rising_iff]
    exact Table.rising_modify (Table.rising_put k.recs_rising n f) _ _
  · rw [Table.rising_iff, keys_pageViews, ← Table.rising_iff]
    refine Table.rising_modify (t := s.pages) ?_ _ _
    rw [Table.rising_iff, ← keys_pageViews, ← Table.rising_iff]
    exact k.pool.pagesRise
  · obtain ⟨⟨m, q⟩, hq, rfl⟩ := List.mem_map.1 hm
    have hq : (m, q) ∈ Table.modify s.pages r.parent fun e => { e with dests := e.dests ++ [n] } := hq
    rcases Table.mem_modify hq with c | ⟨e, a, ha, rfl⟩
    · exact .inl (List.mem_map.2 ⟨_, c, rfl⟩)
    · exact .inr ⟨e, a.dests, rfl, .inr (List.mem_map.2 ⟨_, ha, rfl⟩)⟩

theorem placeFallback_keeps (n : Nat) (ha : b.Kept → Aside s n) (h : Keeps b s) : Keeps b (placeFallback n s) := by
  unfold placeFallback
  split
  · exact h
  · next r hr =>
    split
    · exact joinRec_keeps (rec_modRec_self (fun q => { q with state := .queued }) hr) rfl rfl (fun k => (ha k).idle)
        (modRec_keeps n (fun q => { q with state := .queued }) ⟨fun _ => rfl, fun _ => rfl, fun _ => rfl⟩
          (fun k => ⟨(ha k).idle, fun r hr _ => (ha k).live r hr⟩) h)
    · exact updateL_keeps n (fun k => (ha k).idle)
        (modRec_keeps n (fun q => { q with state := .targetWait }) ⟨fun _ => rfl, fun _ => rfl, fun _ => rfl⟩
          (fun k => ⟨(ha k).idle, fun r hr _ => (ha k).live r hr⟩) h)
    · exact modRec_keeps n _ ⟨fun _ => rfl, fun _ => rfl, fun _ => rfl⟩
        (fun k => ⟨(ha k).idle, fun r hr _ => (ha k).live r hr⟩) h

theorem pickIfQueued_keeps (n : Nat) (h : Keeps b s) : Keeps b (pickIfQueued n s) := by
  unfold pickIfQueued
  split
  · exact h
  · exact ite_keeps (fun _ => pick_keeps _ h) fun _ => h

/-- What a fallback's creation does once its record is in use and its WARN in the list. -/
theorem fallbackRest_keeps (o n : Nat) (p : Page) (a : LineId) (r : DestRec) (x : Nat) (rest : List Nat) (e : DeadlineEntry)
    (hs : s = addDeadline e (fallbackTaken o n r (fallbackRec o r a x) rest t)) :
    Keeps s (reexamine a (pickIfQueued n (bumpCounter .fallbacksMade (monitor n (writeCreation o n
      (if p.state = .active then placeFallback n s else s)))))) := by
  have ha : s.Kept → Aside s n := fun k => by
    have hv := fallbackTaken_rec o n n r (fallbackRec o r a x) rest t
    rw [if_pos rfl] at hv
    obtain ⟨q, hq, e⟩ := Option.map_eq_some_iff.1 hv
    exact k.aside_state (hs ▸ hq) (congrArg RecView.state e : q.state = .verifyWait) rfl rfl
  have h1 := ite_keeps (p := p.state = .active) (fun _ => placeFallback_keeps n ha (.refl s)) fun _ => .refl s
  exact reexamine_keeps a (pickIfQueued_keeps n ((bumpCounter_still _ (.refl _)).keeps ((monitor_light n (.refl _)).keeps
    ((writeCreation_still o n (.refl _)).keeps h1))))

theorem makeFallback_kept {o : Nat} {r : DestRec} {p : Page} {a : LineId} (he : (s.line a).enabled = true) (k : s.Kept) :
    (makeFallback o r p a s).Kept := by
  unfold makeFallback
  split
  · exact k
  · next n rest hfree =>
    have ht := fallbackTaken_takes (o := o) (r := r) (f := fallbackRec o r a (s.line r.line).cfg.extension) hfree rfl he k
    exact (fallbackRest_keeps o n p a r _ rest _ rfl).kept (setDeadlines_kept _ (ht.kept k))

theorem fallbackTarget_enabled {r : DestRec} {p : Page} {a : LineId} (h : fallbackTarget s r p = .inr a) :
    (s.line a).enabled = true := by
  unfold fallbackTarget at h
  split at h
  · cases h
  · next c _ =>
    split at h
    · cases h
    · next he =>
      split at h
      · cases h
      · split at h
        · cases h
        · cases h
          exact Bool.eq_true_of_not_eq_false he

/-- A fallback that could not be made (R102). -/
theorem noFallback_light (o : Nat) (why : Detail) (s : State) :
    Light s (bumpCounter .fallbacksFailed (writeEntry o (s.modRec o fun q => { q with fallback := .failed why }))) :=
  (bumpCounter_still _ (writeEntry_still o (.refl _))).after
    (modRec_light o (fun q => { q with fallback := .failed why }) (fun _ => rfl) (.refl s))

theorem askFallback_kept (o : Nat) (k : s.Kept) : (askFallback o s).Kept := by
  unfold askFallback
  split
  · exact k
  · split
    · exact k
    · split
      · next h => exact makeFallback_kept (fallbackTarget_enabled h) k
      · exact (noFallback_light o _ s).kept k

/-- A record marked MISSED, with its attention cause (R98). -/
theorem setMissed_light (n : Nat) (s : State) :
    Light s (raise .missed (writeEntry n (s.modRec n fun q => { q with missed := true }))) :=
  (raise_still _ (writeEntry_still n (.refl _))).after
    (modRec_light n (fun q => { q with missed := true }) (fun _ => rfl) (.refl s))

theorem fireMiss_kept (n : Nat) (k : s.Kept) : (fireMiss n s).Kept := by
  unfold fireMiss
  split
  · exact k
  · refine ite_kept (fun _ => ?_) fun _ => ite_kept (fun _ => ?_) fun _ => k
    · have hm := setMissed_light n s
      dsimp only
      split
      · exact hm.kept k
      · exact (retractAlone_keeps n _ _ (.refl _)).kept (hm.kept k)
      · exact askFallback_kept n ((retractAlone_keeps n _ _ (.refl _)).kept (hm.kept k))
    · exact (writeEntry_still n (.refl _)).light.kept
        ((modRec_light n (fun q => { q with missed := true }) (fun _ => rfl) (.refl _)).kept k)

theorem fireHead_kept (k : s.Kept) : (fireHead s).Kept := by
  unfold fireHead
  split
  · exact k
  · next d ds _ =>
    refine ite_kept (fun _ => ?_) fun _ => k
    have k1 := setDeadlines_kept ds k
    unfold fireEntry
    split
    · exact fireWarn_kept _ k1
    · exact (pageEndOf_keeps _ (.refl _)).kept (fireMiss_kept _ k1)
    · exact (releaseCheck_keeps _ (.refl _)).kept k1

theorem fireRun_kept {next : State → State} (hn : ∀ s, s.Kept → (next s).Kept) (j : Nat) (k : s.Kept) : (fireRun next j s).Kept := by
  induction j generalizing s with
  | zero => exact k
  | succ j ih => exact ite_kept (fun _ => ih (hn _ (fireHead_kept k))) fun _ => k

/-! ### The run of due entries ends (R95) -/

/-- Whether a record is in use and no fallback. -/
def State.isPlain (s : State) (i : Nat) : Bool :=
  match s.rec? i with
  | some r => !r.isFallback
  | none => false

theorem isPlain_iff {i : Nat} : s.isPlain i = true ↔ plain s i := by
  unfold State.isPlain plain
  cases s.rec? i <;> simp

/-- How many firings an entry can lead to: a WARN its MISS, the MISS of a record that is no fallback the WARN and MISS of one. -/
def State.firings (s : State) (d : DeadlineEntry) : Nat :=
  match d.kind with
  | .release => 1
  | .miss => if s.isPlain d.dest then 3 else 1
  | .warn => if s.isPlain d.dest then 4 else 2

/-- How many firings the due entries can lead to. -/
def State.toFire (s : State) : Nat := ((dueList s).map s.firings).sum

theorem Dues.isPlain (h : Dues s t) {i : Nat} (hp : t.isPlain i = true) : s.isPlain i = true :=
  isPlain_iff.2 (h.plain i (isPlain_iff.1 hp))

theorem firings_pos (s : State) (d : DeadlineEntry) : 0 < s.firings d := by
  unfold State.firings
  cases d.kind
  case release => exact Nat.one_pos
  all_goals
    dsimp only
    split <;> omega

theorem firings_le (s : State) (d : DeadlineEntry) : s.firings d ≤ 4 := by
  unfold State.firings
  cases d.kind
  case release => exact Nat.le_add_left 1 3
  all_goals
    dsimp only
    split <;> omega

theorem Dues.firings (h : Dues s t) (d : DeadlineEntry) : t.firings d ≤ s.firings d := by
  unfold State.firings
  by_cases ht : t.isPlain d.dest = true
  · rw [ht, h.isPlain ht]
  · rw [if_neg ht, if_neg ht]
    cases d.kind
    case release => exact Nat.le_refl 1
    all_goals
      dsimp only
      split <;> omega

theorem Dues.toFire (h : Dues s t) : t.toFire ≤ s.toFire := by
  unfold State.toFire
  calc ((dueList t).map t.firings).sum ≤ ((dueList t).map s.firings).sum := List.sum_le_sum fun d _ => h.firings d
    _ ≤ ((dueList s).map s.firings).sum := (h.due.map _).sum_le_sum fun _ _ => Nat.zero_le _

theorem insertDue_perm (e : DeadlineEntry) (ds : List DeadlineEntry) : (insertDue e ds).Perm (e :: ds) := by
  induction ds with
  | nil => exact List.Perm.refl _
  | cons d ds ih =>
    unfold insertDue
    split
    · exact List.Perm.refl _
    · exact (ih.cons d).trans (List.Perm.swap e d ds)

/-- An entry that joins the list adds at most what it can lead to. -/
theorem addDeadline_toFire (e : DeadlineEntry) (s : State) : (addDeadline e s).toFire ≤ s.toFire + s.firings e := by
  have hp : (dueList (addDeadline e s)).Perm ((e :: s.deadlines).filter fun d => s.reached d.due) :=
    (insertDue_perm e s.deadlines).filter _
  have hf : (addDeadline e s).firings = s.firings := rfl
  unfold State.toFire
  rw [hf, (hp.map s.firings).sum_eq]
  simp only [List.filter_cons]
  split
  · simp only [List.map_cons, List.sum_cons]
    unfold dueList
    omega
  · exact Nat.le_add_right _ _

theorem toFire_le (s : State) : s.toFire ≤ 4 * s.deadlines.length := by
  have hw : ∀ d ∈ dueList s, s.firings d ≤ 4 := fun d _ => firings_le s d
  have := List.sum_le_card_nsmul ((dueList s).map s.firings) 4 (by simpa using hw)
  have hl : (dueList s).length ≤ s.deadlines.length := List.length_filter_le _ _
  unfold State.toFire
  simp only [List.length_map, smul_eq_mul] at this
  omega

/-- A change at one press time after which the due entries can lead to at most `k` firings more. -/
structure Adds (k : Nat) (s t : State) : Prop where
  clock : t.clock.value = s.clock.value
  toFire : t.toFire ≤ s.toFire + k

theorem Dues.adds (h : Dues s t) (k : Nat) : Adds k s t := ⟨h.clock, h.toFire.trans (Nat.le_add_right _ _)⟩

theorem Adds.then {k : Nat} (h : Adds k s t) (g : Dues t u) : Adds k s u := ⟨g.clock.trans h.clock, g.toFire.trans h.toFire⟩

theorem Dues.then {k : Nat} (h : Dues s t) (g : Adds k t u) : Adds k s u :=
  ⟨g.clock.trans h.clock, g.toFire.trans (Nat.add_le_add_right h.toFire k)⟩

/-- After what makes nothing due an entry joins the list. -/
theorem Dues.add {e : DeadlineEntry} {k : Nat} (h : Dues s t) (he : t.firings e ≤ k) : Adds k s (addDeadline e t) :=
  ⟨h.clock, (addDeadline_toFire e t).trans (Nat.add_le_add h.toFire he)⟩

/-- A WARN leads to its MISS. -/
theorem fireWarn_adds (n due : Nat) (s : State) : Adds (s.firings ⟨due, n, .warn⟩ - 1) s (fireWarn n s) := by
  have hle : ∀ t, Dues s t → ∀ q, t.firings ⟨q, n, .miss⟩ ≤ s.firings ⟨due, n, .warn⟩ - 1 := fun t h q => by
    refine (h.firings ⟨q, n, .miss⟩).trans ?_
    unfold State.firings
    dsimp only
    split <;> omega
  unfold fireWarn
  split
  · exact (Dues.refl s).adds _
  · next r hr =>
    split
    · have h := ((raise_still .late (.refl _)).keeps (setLate_keeps n hr (.refl s))).toDues
      exact h.add (hle _ h _)
    · split
      · next hw =>
        have h := ((writeEntry_still n (.refl _)).keeps (rekey_keeps n (fun q => { q with late := true }) late_rekeys hr
          (by rw [hw]; nofun) (.refl s))).toDues
        exact h.add (hle _ h _)
      · exact (Dues.refl s).adds _

theorem fallbackTaken_dues (o n : Nat) (r f : DestRec) (rest : List Nat) (hf : f.isFallback = true) (s : State) :
    Dues s (fallbackTaken o n r f rest s) ∧ (fallbackTaken o n r f rest s).isPlain n = false := by
  have hv := fallbackTaken_rec o n
  have hn : ¬ plain (fallbackTaken o n r f rest s) n := fun ⟨q, hq, hp⟩ => by
    have e := hv n r f rest s
    rw [hq, if_pos rfl] at e
    have : q.isFallback = f.isFallback := congrArg RecView.isFallback (Option.some.inj e)
    rw [hp, hf] at this
    cases this
  refine ⟨⟨rfl, List.Sublist.refl _, fun i hp => ?_⟩, Bool.eq_false_iff.2 fun c => hn (isPlain_iff.1 c)⟩
  by_cases e : i = n
  · subst e
    exact absurd hp hn
  · obtain ⟨q, hq, hqf⟩ := hp
    have e' := hv i r f rest s
    rw [hq, if_neg e] at e'
    obtain ⟨q', hq', e''⟩ := Option.map_eq_some_iff.1 e'.symm
    exact ⟨q', hq', (congrArg RecView.isFallback e'').trans hqf⟩

/-- A fallback's WARN leads to its WARN and its MISS alone. -/
theorem makeFallback_adds (o : Nat) (r : DestRec) (p : Page) (a : LineId) (s : State) : Adds 2 s (makeFallback o r p a s) := by
  unfold makeFallback
  split
  · exact (Dues.refl s).adds 2
  · next n rest _ =>
    obtain ⟨h1, hp⟩ := fallbackTaken_dues o n r (fallbackRec o r a (s.line r.line).cfg.extension) rest rfl s
    refine (h1.add ?_).then (fallbackRest_keeps o n p a r _ rest _ rfl).toDues
    unfold State.firings
    dsimp only
    rw [hp]
    exact Nat.le_refl 2

theorem askFallback_adds (o : Nat) (s : State) : Adds 2 s (askFallback o s) := by
  unfold askFallback
  split
  · exact (Dues.refl s).adds 2
  · split
    · exact (Dues.refl s).adds 2
    · split
      · exact makeFallback_adds _ _ _ _ s
      · exact (noFallback_light o _ s).toDues.adds 2

theorem recPolicy_plain {n : Nat} {r : DestRec} (hr : s.rec? n = some r) (h : recPolicy t r = .fallback) : s.isPlain n = true := by
  unfold recPolicy at h
  split at h
  · cases h
  · next hf =>
    unfold State.isPlain
    rw [hr]
    simpa using hf

/-- The MISS of a record that is no fallback leads to the WARN and MISS of one, any other to nothing. -/
theorem fireMiss_adds (n due : Nat) (s : State) : Adds (s.firings ⟨due, n, .miss⟩ - 1) s (fireMiss n s) := by
  have hm := (setMissed_light n s).toDues
  unfold fireMiss
  split
  · exact (Dues.refl s).adds _
  · next r hr =>
    split
    · dsimp only
      split
      · exact hm.adds _
      · exact (hm.trans (retractAlone_keeps n _ _ (.refl _)).toDues).adds _
      · next hp =>
        have hf : s.firings ⟨due, n, .miss⟩ = 3 := by
          unfold State.firings
          rw [recPolicy_plain hr hp]
          rfl
        rw [hf]
        exact (hm.trans (retractAlone_keeps n _ _ (.refl _)).toDues).then (askFallback_adds n _)
    · split
      · exact ((writeEntry_still n (.refl _)).keeps ((modRec_light n (fun q => { q with missed := true }) (fun _ => rfl)
          (.refl s)).keeps (.refl s))).toDues.adds _
      · exact (Dues.refl s).adds _

theorem fireEntry_adds (d : DeadlineEntry) (s : State) : Adds (s.firings d - 1) s (fireEntry d s) := by
  obtain ⟨due, n, kind⟩ := d
  cases kind with
  | warn => exact fireWarn_adds n due s
  | miss => exact (fireMiss_adds n due s).then (pageEndOf_keeps n (.refl _)).toDues
  | release => exact (releaseCheck_keeps n (.refl s)).toDues.adds _

/-- What follows each firing in a run makes nothing due. -/
def Idles (next : State → State) : Prop := ∀ s, Light s (next s)

theorem idles_id : Idles id := fun s => .refl s

theorem idles_startVerify : Idles startVerify := fun s => startVerify_light (.refl s)

/-- Each firing of a due head leaves fewer to come. -/
theorem fireHead_toFire (h : headDue s = true) : (fireHead s).clock.value = s.clock.value ∧ (fireHead s).toFire < s.toFire := by
  unfold headDue at h
  unfold fireHead
  cases hd : s.deadlines with
  | nil => rw [hd] at h; cases h
  | cons d ds =>
    rw [hd] at h
    dsimp only at h ⊢
    rw [if_pos h]
    have ha := fireEntry_adds d (s.setDeadlines ds)
    have hs : s.toFire = (s.setDeadlines ds).toFire + s.firings d := by
      unfold State.toFire dueList
      rw [hd, List.filter_cons, if_pos h, List.map_cons, List.sum_cons, Nat.add_comm]
      rfl
    have hf : (s.setDeadlines ds).firings d = s.firings d := rfl
    have hpos := firings_pos s d
    have := ha.toFire
    exact ⟨ha.clock, by omega⟩

theorem toFire_pos (h : headDue s = true) : 0 < s.toFire := Nat.lt_of_le_of_lt (Nat.zero_le _) (fireHead_toFire h).2

/-- A run with as much fuel as its due entries can lead to firings ends with no head due, at the same press time. -/
theorem fireRun_done {next : State → State} (hn : Idles next) (k : Nat) (hk : s.toFire ≤ k) :
    headDue (fireRun next k s) = false ∧ (fireRun next k s).clock.value = s.clock.value := by
  induction k generalizing s with
  | zero =>
    refine ⟨Bool.eq_false_iff.2 fun c => ?_, rfl⟩
    have := toFire_pos (s := s) c
    omega
  | succ k ih =>
    unfold fireRun
    split
    · next h =>
      obtain ⟨hc, hlt⟩ := fireHead_toFire h
      have hd := (hn (fireHead s)).toDues
      obtain ⟨h1, h2⟩ := ih (s := next (fireHead s)) (by have := hd.toFire; omega)
      exact ⟨h1, h2.trans (hd.clock.trans hc)⟩
    · next h => exact ⟨by simpa using h, rfl⟩

theorem fireDue_done {next : State → State} (hn : Idles next) (s : State) :
    headDue (fireDue next s) = false ∧ (fireDue next s).clock.value = s.clock.value :=
  fireRun_done hn _ (toFire_le s)

theorem fireDue_kept {next : State → State} (hn : Idles next) (k : s.Kept) : (fireDue next s).Kept :=
  fireRun_kept (fun s k => (hn s).kept k) _ k

/-- A sorted list with a head that is not due holds no due entry. -/
theorem noneDue_of_head (hs : sortedDue s.deadlines) (h : headDue s = false) : s.NoneDue := by
  unfold headDue at h
  intro d hd
  cases he : s.deadlines with
  | nil => rw [he] at hd; cases hd
  | cons c cs =>
    rw [he] at h hd hs
    have hc : s.clock.value < c.due := by simpa [State.reached] using h
    rcases List.mem_cons.1 hd with e | hm
    · exact e ▸ hc
    · exact Nat.lt_of_lt_of_le hc (List.rel_of_pairwise_cons hs hm)

theorem noneDue_iff : s.NoneDue ↔ dueList s = [] := by
  unfold State.NoneDue dueList State.reached
  rw [List.filter_eq_nil_iff]
  simp

/-- What makes nothing due leaves nothing due. -/
theorem Dues.noneDue (h : Dues s t) (hs : s.NoneDue) : t.NoneDue := by
  rw [noneDue_iff] at *
  exact List.sublist_nil.1 (hs ▸ h.due)

end Sys2Proof.Machine
end

section
/-! Every command keeps the deadline list without a due entry, and the queues and the pool in order (O10): from the lemmas about the
operations, command by command. -/

namespace Sys2Proof.Machine

variable {b s t u : State}

/-! ### The clauses of QueuesSound -/

theorem waitsOn_iff {l : LinkId} {x : Xfer} :
    WaitsOn s l x ↔ ∃ k, s.layout.stand x = some k ∧ k.standing = .queued ∧ s.routes l k.line := by
  cases x with
  | dest i =>
    constructor
    · rintro ⟨r, hr, hq, hl⟩
      exact ⟨_, stand_dest hr, congrArg DestState.standing hq, hl⟩
    · rintro ⟨k, hk, hq, hl⟩
      obtain ⟨r, hr, rfl⟩ := Option.map_eq_some_iff.1 (show (s.rec? i).map _ = some k from hk)
      exact ⟨r, hr, DestState.eq_queued hq, hl⟩
  | slot n =>
    constructor
    · rintro ⟨sl, hs, hq, hl⟩
      exact ⟨_, stand_slot hs, congrArg SlotState.standing hq, hl⟩
    · rintro ⟨k, hk, hq, hl⟩
      obtain ⟨sl, hs, rfl⟩ := Option.map_eq_some_iff.1 (show (s.line n).slot.map _ = some k from hk)
      exact ⟨sl, hs, SlotState.eq_queued hq, hl⟩

theorem sendsOn_iff {l : LinkId} {x : Xfer} :
    SendsOn s l x ↔ ∃ k, s.layout.stand x = some k ∧ k.standing = .sending ∧ s.routes l k.line := by
  cases x with
  | dest i =>
    constructor
    · rintro ⟨r, hr, hq, hl⟩
      exact ⟨_, stand_dest hr, congrArg DestState.standing hq, hl⟩
    · rintro ⟨k, hk, hq, hl⟩
      obtain ⟨r, hr, rfl⟩ := Option.map_eq_some_iff.1 (show (s.rec? i).map _ = some k from hk)
      exact ⟨r, hr, DestState.eq_sending hq, hl⟩
  | slot n =>
    constructor
    · rintro ⟨sl, hs, hq, hl⟩
      exact ⟨_, stand_slot hs, congrArg SlotState.standing hq, hl⟩
    · rintro ⟨k, hk, hq, hl⟩
      obtain ⟨sl, hs, rfl⟩ := Option.map_eq_some_iff.1 (show (s.line n).slot.map _ = some k from hk)
      exact ⟨sl, hs, SlotState.eq_sending hq, hl⟩

theorem QueueKey.not_before_self (k : QueueKey) : k.before k = false := by
  rw [Bool.eq_false_iff]
  intro c
  rw [QueueKey.before_iff] at c
  obtain ⟨h1, h2⟩ | ⟨_, h⟩ := c
  · rw [h1] at h2; cases h2
  · omega

/-- A queue in the order of R74 holds no transfer twice. -/
theorem nodup_of_order {q : List Xfer} (h : q.Pairwise fun x y => (xferKey s x).before (xferKey s y) = true) : q.Nodup :=
  h.imp fun {x y} hb e => by
    subst e
    rw [QueueKey.not_before_self] at hb
    cases hb

theorem State.QueuesSound.ordered (h : s.QueuesSound) : s.layout.Ordered s.routes fun _ => False where
  waits l x hx := waitsOn_iff.1 (h.waits l x hx)
  sends l x hx := sendsOn_iff.1 (h.sends l x hx)
  nodup l := nodup_of_order (h.order l)
  oneQueue l m x hx hy := by
    obtain ⟨k, hk, _, hl⟩ := waitsOn_iff.1 (h.waits l x hx)
    obtain ⟨k', hk', _, hm⟩ := waitsOn_iff.1 (h.waits m x hy)
    rw [hk] at hk'
    cases hk'
    exact (show s.linkOf k.line = l from hl).symm.trans hm
  oneSending l m x hx hy := by
    obtain ⟨k, hk, _, hl⟩ := sendsOn_iff.1 (h.sends l x hx)
    obtain ⟨k', hk', _, hm⟩ := sendsOn_iff.1 (h.sends m x hy)
    rw [hk] at hk'
    cases hk'
    exact (show s.linkOf k.line = l from hl).symm.trans hm
  order l := (h.order l).imp fun {x y} hb _ _ => by
    unfold Layout.Before
    rw [← xferKey_eq, ← xferKey_eq]
    exact hb
  sequence l m x y hx hy hxy := by
    rw [← xferKey_eq, ← xferKey_eq]
    exact h.sequence l m x y hx hy hxy
  counter l x hx := by
    rw [← xferKey_eq]
    exact h.counter l x hx

theorem State.QueuesSound.kept (h : s.QueuesSound) (hp : Table.rising s.pages = true) (hr : Table.rising s.recs = true) :
    s.Kept := by
  refine ⟨h.ordered, ?_, ?_, ⟨h.free.1, fun n hn => ?_⟩, fun e he => ?_, fun i v hv hf => ?_, fun n hn => ?_⟩
  · rw [Table.rising_iff, keys_recViews, ← Table.rising_iff]; exact hr
  · rw [Table.rising_iff, keys_pageViews, ← Table.rising_iff]; exact hp
  · rw [get_recViews, h.free.2 n hn]; rfl
  · obtain ⟨⟨n, p⟩, hm, rfl⟩ := List.mem_map.1 he
    obtain ⟨hnd, hrec⟩ := h.dests _ hm
    refine ⟨hnd, fun i hi => ?_⟩
    obtain ⟨r, hr, hpar⟩ := hrec i hi
    exact ⟨r.view, by rw [get_recViews, hr]; rfl, hpar⟩
  · rw [get_recViews] at hv
    obtain ⟨r, hr, rfl⟩ := Option.map_eq_some_iff.1 hv
    exact h.enabled.1 _ (Table.mem_of_get hr) hf
  · exact h.enabled.2 n fun c => hn (by unfold Line.view; rw [c]; rfl)

theorem State.Laid.sound (k : s.Kept) : s.QueuesSound where
  waits l x hx := waitsOn_iff.2 (k.ordered.waits l x hx)
  sends l x hx := sendsOn_iff.2 (k.ordered.sends l x hx)
  order l := (k.ordered.order l).imp fun {x y} hb => by
    rw [xferKey_eq, xferKey_eq]
    exact hb id id
  sequence l m x y hx hy hxy := by
    rw [xferKey_eq, xferKey_eq]
    exact k.ordered.sequence l m x y hx hy hxy
  counter l x hx := by
    rw [xferKey_eq]
    exact k.ordered.counter l x hx
  free := ⟨k.pool.free.1, fun n hn => by
    have := k.pool.free.2 n hn
    rw [get_recViews] at this
    exact Option.map_eq_none_iff.1 this⟩
  dests e he := by
    obtain ⟨hnd, hrec⟩ := k.pool.dests (e.1, e.2.dests) (List.mem_map.2 ⟨e, he, rfl⟩)
    refine ⟨hnd, fun i hi => ?_⟩
    obtain ⟨v, hv, hp⟩ := hrec i hi
    rw [get_recViews] at hv
    obtain ⟨r, hr, rfl⟩ := Option.map_eq_some_iff.1 hv
    exact ⟨r, hr, hp⟩
  enabled := by
    refine ⟨fun e he hf => ?_, fun n hn => k.pool.slots n fun c => hn (Option.map_eq_none_iff.1 c)⟩
    exact k.pool.lives e.1 e.2.view (by rw [get_recViews, show s.rec? e.1 = some e.2 from Table.get_of_mem k.recs_rising he]; rfl) hf

/-! ### What every command keeps -/

/-- What a command keeps of the deadline list and the queues. -/
structure Orderly (s t : State) : Prop where
  due : sortedDue s.deadlines → s.NoneDue → t.NoneDue
  kept : s.Kept → t.Kept

theorem Keeps.orderly (h : Keeps s t) : Orderly s t := ⟨fun _ => h.toDues.noneDue, h.kept⟩

theorem Light.orderly (h : Light s t) : Orderly s t := (h.keeps (.refl s)).orderly

theorem Still.orderly (h : Still s t) : Orderly s t := h.light.orderly

/-- A still change before a command. -/
theorem Still.before (h : Still s t) (k : Orderly t u) : Orderly s u :=
  ⟨fun hs hn => k.due (h.deadlines ▸ hs) (h.light.toDues.noneDue hn), k.kept ∘ h.light.kept⟩

theorem Orderly.after (h : Orderly s t) (k : Light t u) : Orderly s u :=
  ⟨fun hs hn => k.toDues.noneDue (h.due hs hn), k.kept ∘ h.kept⟩

/-- The run of due entries on a sorted list. -/
theorem fireDue_noneDue {next : State → State} (hn : Idles next) (hc : ∀ s, Calm false s (next s)) (hs : sortedDue s.deadlines) :
    (fireDue next s).NoneDue :=
  noneDue_of_head ((fireDue_calm next (fun s h => h.trans (hc s)) (.refl s)).tables.deadlines hs) (fireDue_done hn s).1

theorem fireDue_id_noneDue (hs : sortedDue s.deadlines) : (fireDue id s).NoneDue :=
  fireDue_noneDue idles_id (fun s => .refl s) hs

theorem fireDue_start_noneDue (hs : sortedDue s.deadlines) : (fireDue startVerify s).NoneDue :=
  fireDue_noneDue idles_startVerify (fun s => startVerify_calm (.refl s)) hs

/-! ### Orders -/

/-- An order whose effect keeps the list sorted and the queues, with what follows every take. -/
theorem afterTake_orderly (hs : sortedDue s.deadlines → sortedDue t.deadlines) (hk : s.Kept → t.Kept) : Orderly s (afterTake t) := by
  refine ⟨fun h _ => (startVerify_light (.refl _)).toDues.noneDue (fireDue_id_noneDue ?_), fun k => ?_⟩
  · exact (sweepPages_calm (q := false) (.refl t)).tables.deadlines (hs h)
  · exact (startVerify_light (.refl _)).kept (fireDue_kept idles_id ((sweepPages_keeps (.refl t)).kept (hk k)))

theorem takeConsign_sorted (a : U64) (w : ConsignBody) (h : sortedDue s.deadlines) : sortedDue (takeConsign a w s).deadlines := by
  unfold takeConsign
  split
  · exact (refuse_calm (q := false) a _ (.refl s)).tables.deadlines h
  · exact (acceptConsign_calm (q := false) a w _ _ s).tables.deadlines h

theorem modClock_kept (f : Clock → Clock) (k : s.Kept) : (s.modClock f).Kept :=
  ⟨k.ordered.restands (fun _ => rfl) (fun _ => rfl) rfl fun _ x _ => by cases x <;> rfl, k.pool⟩

theorem markTrigger_deadlines (old : Nat) (s : State) : (markTrigger old s).deadlines = s.deadlines := by
  unfold markTrigger
  split
  · have h : Still s (allLinks.foldl (markLink s.clock.value) s) := foldl_still _ (fun _ l h => markLink_still _ l h) _ (.refl s)
    generalize allLinks.foldl (markLink s.clock.value) s = t at h ⊢
    exact (writeSummary_still (.refl (t.modClock _))).deadlines.trans h.deadlines
  · rfl

theorem takeSetClock_orderly (a : U64) (w : SetClockBody) : Orderly s (takeSetClock a w s) := by
  unfold takeSetClock
  split
  · exact (refuse_still a _ (.refl s)).orderly
  · next src _ =>
    have h1 : Light (setClockFields (clampClock w.value) src s) (finalDisposition a
        (if w.value.toNat = Config.maxU32 then .adjusted else .done) 0
        (markTrigger s.clock.value (writeSummary (setClockFields (clampClock w.value) src s)))) :=
      (finalDisposition_still _ _ _ (.refl _)).after (markTrigger_light _ ((writeSummary_still (.refl _)).light))
    have hd : (finalDisposition a (if w.value.toNat = Config.maxU32 then .adjusted else .done) 0
        (markTrigger s.clock.value (writeSummary (setClockFields (clampClock w.value) src s)))).deadlines = s.deadlines :=
      ((finalDisposition_still _ _ _ (.refl _)).deadlines.trans (markTrigger_deadlines _ _)).trans (writeSummary_still (.refl _)).deadlines
    dsimp only
    split
    · refine ⟨fun hs _ => fireDue_id_noneDue (hd ▸ hs), fun k => fireDue_kept idles_id (h1.kept (modClock_kept _ k))⟩
    · next hv =>
      refine ⟨fun _ hn => h1.toDues.noneDue fun d hm => ?_, fun k => h1.kept (modClock_kept _ k)⟩
      exact Nat.lt_of_le_of_lt (Nat.le_of_not_lt hv) (hn d hm)

theorem takeOrder_orderly (a : U64) (o : Order) (s : State) : Orderly s (takeOrder a o s) := by
  have hm : Still s (markTaken a s) := markTaken_still a (.refl s)
  cases o with
  | setLink w =>
    exact hm.before (afterTake_orderly (takeSetLink_mild (c := ⟨true, true, true, true⟩) a w rfl rfl (.refl _)).tables.deadlines
      (takeSetLink_keeps a w (.refl _)).kept)
  | setLine w =>
    exact hm.before (afterTake_orderly (takeSetLine_mild (c := ⟨true, true, true, true⟩) a w rfl (.refl _)).tables.deadlines
      (takeSetLine_kept a w))
  | setClock w => exact hm.before ((takeSetClock_orderly a w).after (startVerify_light (.refl _)))
  | consign w => exact hm.before (afterTake_orderly (takeConsign_sorted a w) (takeConsign_kept a w))
  | withdraw w =>
    exact hm.before (afterTake_orderly (takeWithdraw_calm (q := false) a w (.refl _)).tables.deadlines
      (takeWithdraw_keeps a w (.refl _)).kept)
  | issueTarget w =>
    exact hm.before (afterTake_orderly (takeIssueTarget_calm a w (.refl _)).tables.deadlines
      (takeIssueTarget_keeps a w (.refl _)).kept)
  | rollCall l => exact (takeRollCall_light a l (.refl s)).orderly
  | queryLine n => exact (takeQueryLine_light a n (.refl s)).orderly
  | badKind k => exact hm.before (takeBadKind_light a (.refl _)).orderly

/-! ### The press clock -/

theorem stepValue_kept (k : s.Kept) : (stepValue s).Kept := by
  unfold stepValue
  dsimp only
  split
  · exact (raise_still _ (writeSummary_still (.refl _))).light.kept (modClock_kept _ (modClock_kept _ k))
  · exact modClock_kept _ k

theorem stepValue_deadlines (s : State) : (stepValue s).deadlines = s.deadlines := by
  unfold stepValue
  dsimp only
  split
  · exact (raise_still _ (writeSummary_still (.refl _))).deadlines
  · rfl

/-- An advance of the clock, from a state with the deadline list of before. -/
theorem afterAdvance_orderly (old : Nat) (hd : t.deadlines = s.deadlines) (hk : s.Kept → t.Kept) : Orderly s (afterAdvance old t) :=
  have h : Orderly s (fireDue startVerify t) :=
    ⟨fun hs _ => fireDue_start_noneDue (hd ▸ hs), fun k => fireDue_kept idles_startVerify (hk k)⟩
  h.after (markTrigger_light old (.refl _))

theorem advanceClock_orderly (s : State) : Orderly s (advanceClock s) := by
  unfold advanceClock
  split
  · exact (Light.refl s).orderly
  · split
    · next n _ => exact (modClock_light (fun c => { c with hold := some n }) (fun _ => rfl) (.refl s)).orderly
    · exact afterAdvance_orderly _ (stepValue_deadlines s) stepValue_kept
    · exact afterAdvance_orderly _ (stepValue_deadlines s) stepValue_kept

theorem clockAdvance_orderly (s : State) : Orderly s (advanceClock (tickTimers (advanceElapsed s))) := by
  have h : Light s (tickTimers (advanceElapsed s)) := tickTimers_light (advanceElapsed_light (.refl s))
  have hd : (tickTimers (advanceElapsed s)).deadlines = s.deadlines := by
    show (advanceElapsed s).deadlines = s.deadlines
    unfold advanceElapsed
    split <;> rfl
  have k := advanceClock_orderly (tickTimers (advanceElapsed s))
  exact ⟨fun hs hn => k.due (hd ▸ hs) (h.toDues.noneDue hn), k.kept ∘ h.kept⟩

theorem acceptPulse_deadlines (s : State) : (acceptPulse s).deadlines = s.deadlines := by
  unfold acceptPulse
  dsimp only
  split
  · rfl
  · exact (writeSummary_still (.refl _)).deadlines

theorem evaluatePulse_orderly (s : State) : Orderly s (evaluatePulse s) := by
  unfold evaluatePulse
  split
  · exact (acceptPulse_light (.refl s)).orderly
  · exact (acceptPulse_light (modClock_light (fun c => { c with hold := some _ }) (fun _ => rfl) (.refl s))).orderly
  · exact afterAdvance_orderly _ (acceptPulse_deadlines _) fun k => (acceptPulse_light (.refl _)).kept (modClock_kept _ k)
  · exact (bumpCounter_still _ (.refl s)).orderly

theorem syncPulse_orderly (h : execSyncPulse s = .next t) : Orderly s t := by
  unfold execSyncPulse at h
  split at h <;> cases h
  · have k := evaluatePulse_orderly (s.modClock fun c => { c with hold := none })
    have l : Light s (s.modClock fun c => { c with hold := none }) := modClock_light _ (fun _ => rfl) (.refl s)
    exact ⟨fun hs hn => k.due hs (l.toDues.noneDue hn), k.kept ∘ l.kept⟩
  · exact (Light.refl s).orderly

theorem holdEnd_orderly (h : execHoldEnd s = .next t) : Orderly s t := by
  unfold execHoldEnd at h
  split at h <;> cases h
  · exact (modClock_light (fun c => { c with hold := none }) (fun _ => rfl) (.refl s)).orderly
  · exact (Light.refl s).orderly

theorem lossTimer_orderly (h : execLossTimerExpiry s = .next t) : Orderly s t := by
  unfold execLossTimerExpiry at h
  split at h <;> cases h
  · exact ((raise_still _ (writeSummary_still (.refl _))).after
      (modClock_light (fun c => { c with sync := .holdover, loss := none }) (fun _ => rfl) (.refl s))).orderly
  · exact (Light.refl s).orderly

theorem fireKind_orderly (k : DeadlineKind) (s : State) : Orderly s (fireKind k s) := by
  unfold fireKind
  split
  · exact ⟨fun hs _ => fireDue_start_noneDue hs, fireDue_kept idles_startVerify⟩
  · exact (Light.refl s).orderly

/-! ### Every command -/

theorem resetPart_free (s : State) : (resetPart s).free = List.range 1024 := by
  simp only [resetPart, reset_free]

theorem resetPart_queues (s : State) : (resetPart s).QueuesSound := by
  have hline : ∀ n, (resetPart s).line n = Line.reset := reset_line
  have hlink : ∀ l, (resetPart s).link l = Link.reset := reset_link
  have hrec : ∀ n, (resetPart s).rec? n = none := fun _ => rfl
  have hnone : ∀ l x, ¬ StandsOn (resetPart s) l x := by
    intro l x h
    rw [StandsOn, hlink] at h
    obtain h | h := h <;> cases h
  exact {
    waits := fun l x hx => absurd (.inl hx) (hnone l x)
    sends := fun l x hx => absurd (.inr hx) (hnone l x)
    order := fun l => by rw [hlink]; exact .nil
    sequence := fun l _ x _ hx => absurd hx (hnone l x)
    counter := fun l x hx => absurd hx (hnone l x)
    free := ⟨by rw [resetPart_free]; exact List.nodup_range, fun n _ => hrec n⟩
    dests := fun e he => absurd he (List.not_mem_nil (a := e))
    enabled := ⟨fun e he => absurd he (List.not_mem_nil (a := e)), fun n hn => absurd (by rw [hline]; rfl) hn⟩ }

theorem resetPart_orderly (s : State) : Orderly s (resetPart s) :=
  ⟨fun _ _ => nofun, fun _ => (resetPart_queues s).kept rfl rfl⟩

/-- The commands that are no register access, no reset and no step of the walk. -/
theorem event_orderly (c : Instr) (hg : (group c).mild = true) (h : exec c s = .next t) : Orderly s t := by
  cases c
  case controlReset w => simp only [group] at hg; split at hg <;> cases hg
  case registerWrite o w v => simp only [group] at hg; split at hg <;> cases hg
  case outboundKindReceived l k f => exact next_inj h ▸ (receive_keeps l k f (.refl s)).orderly
  case setClock a w => exact next_inj h ▸ takeOrder_orderly a (.setClock w) s
  case setLink a w => exact next_inj h ▸ takeOrder_orderly a (.setLink w) s
  case setPressLine a w => exact next_inj h ▸ takeOrder_orderly a (.setLine w) s
  case withdraw a w => exact next_inj h ▸ takeOrder_orderly a (.withdraw w) s
  case issueTarget a w => exact next_inj h ▸ takeOrder_orderly a (.issueTarget w) s
  case rollCall a w => exact next_inj h ▸ takeOrder_orderly a (.rollCall w) s
  case queryLine a w => exact next_inj h ▸ takeOrder_orderly a (.queryLine w) s
  case badKind a w => exact next_inj h ▸ takeOrder_orderly a (.badKind w) s
  case clockAdvance => exact next_inj h ▸ clockAdvance_orderly s
  case syncPulse => exact syncPulse_orderly h
  case holdEnd => exact holdEnd_orderly h
  case lossTimerExpiry => exact lossTimer_orderly h
  case verifyPassEnd p => exact next_inj h ▸ (passEnd_keeps p (.refl s)).orderly.after (startVerify_light (.refl _))
  case verifyReadError => exact next_inj h ▸ (passReadError_keeps (.refl s)).orderly.after (startVerify_light (.refl _))
  case sendReadError n => exact next_inj h ▸ (pageReadError_keeps _ (.refl s)).orderly
  case targetReadError n => exact next_inj h ▸ (slotReadError_keeps n (.refl s)).orderly
  case warnFiring => exact next_inj h ▸ fireKind_orderly _ s
  case missFiring => exact next_inj h ▸ fireKind_orderly _ s
  case releaseFiring => exact next_inj h ▸ fireKind_orderly _ s
  case receiptTimeout n => exact next_inj h ▸ (receiptTimeout_keeps _ (.refl s)).orderly
  case releaseTimeout n => exact next_inj h ▸ (releaseTimeout_keeps _ (.refl s)).orderly
  case withdrawTimeout n => exact next_inj h ▸ (withdrawTimeout_keeps _ (.refl s)).orderly
  case confirmTimeout n => exact next_inj h ▸ (confirmTimeout_keeps n (.refl s)).orderly
  case windowTimeout l => exact next_inj h ▸ (windowTimeout_light l (.refl s)).orderly
  case silenceTimeout l => exact next_inj h ▸ (silenceTimeout_keeps l (.refl s)).orderly
  case lossOfSignal l => exact next_inj h ▸ (lossOfSignal_keeps l (.refl s)).orderly
  case retryTimeout l => exact next_inj h ▸ (retryTimeout_keeps l (.refl s)).orderly
  case queryTimeout n => exact next_inj h ▸ (queryTimeout_light n (.refl s)).orderly
  case rollWindowClose l => exact next_inj h ▸ (rollWindowClose_keeps l (.refl s)).orderly
  case requeryTimeout n => exact next_inj h ▸ (requeryTimeout_light n (.refl s)).orderly
  case credit l f => exact next_inj h ▸ (receive_keeps l _ f (.refl s)).orderly
  case ckptAck l f => exact next_inj h ▸ (receive_keeps l _ f (.refl s)).orderly
  case receipt l f => exact next_inj h ▸ (receive_keeps l _ f (.refl s)).orderly
  case targetConfirm l f => exact next_inj h ▸ (receive_keeps l _ f (.refl s)).orderly
  case releaseAck l f => exact next_inj h ▸ (receive_keeps l _ f (.refl s)).orderly
  case withdrawAck l f => exact next_inj h ▸ (receive_keeps l _ f (.refl s)).orderly
  case status l f => exact next_inj h ▸ (receive_keeps l _ f (.refl s)).orderly
  case rollAnswer l f => exact next_inj h ▸ (receive_keeps l _ f (.refl s)).orderly
  case echo l f => exact next_inj h ▸ (receive_keeps l _ f (.refl s)).orderly
  case frameLeft l => exact next_inj h ▸ (frameLeft_keeps l (.refl s)).orderly
  all_goals cases hg

theorem walk_orderly (c : Instr) (hg : group c = .walk) (h : exec c s = .next t) : Orderly s t := by
  have order : ∀ (a : U64) (o : Order) {u v : State}, exec (orderCommand a o) u = .next v → Orderly u v := by
    intro a o u v h
    rw [exec_orderCommand] at h
    exact next_inj h ▸ takeOrder_orderly a o u
  cases c
  case walkStep =>
    refine next_inj h ▸ ?_
    unfold walkStep
    split
    · exact (modOrder_still _ (.refl s)).orderly
    · exact (Light.refl s).orderly
  case heldTakeResume =>
    obtain rfl | ⟨u, rfl, a, o, ho⟩ := exec_resume h
    · exact (Light.refl _).orderly
    · exact (modOrder_still _ (.refl s)).before ((order a o ho).after (endStop_registers (.refl u)).still.light)
  case walkReadReturn x =>
    obtain rfl | rfl | ⟨_, _, ⟨k, _, rfl⟩ | ⟨a, rfl⟩ | ⟨a, o, ho⟩⟩ := exec_readReturn x h
    · exact (Light.refl _).orderly
    · exact (endStop_registers (endRead_registers s)).still.orderly
    · exact (chainFault_registers k (endRead_registers s)).still.orderly
    · exact (modOrder_still _ (.refl s)).orderly
    · exact (endRead_registers s).still.before (order a o ho)
  case controlReset w => simp only [group] at hg; split at hg <;> cases hg
  case registerWrite o w v => simp only [group] at hg; split at hg <;> cases hg
  case outboundKindReceived l k f => simp only [group] at hg; split at hg <;> cases hg
  all_goals cases hg

/-- Every command leaves no entry due in a list it finds so, and keeps the queues. -/
theorem exec_orderly (c : Instr) (h : exec c s = .next t) : Orderly s t := by
  cases hg : group c with
  | reset =>
    rw [exec_reset c hg] at h
    exact next_inj h ▸ resetPart_orderly s
  | register => exact (exec_register c hg h).still.orderly
  | walk => exact walk_orderly c hg h
  | consign =>
    cases c
    case consign a w => exact next_inj h ▸ takeOrder_orderly a (.consign w) s
    case controlReset w => simp only [group] at hg; split at hg <;> cases hg
    case registerWrite o w v => simp only [group] at hg; split at hg <;> cases hg
    case outboundKindReceived l k f => simp only [group] at hg; split at hg <;> cases hg
    all_goals cases hg
  | setLink => exact event_orderly c (by rw [hg]; rfl) h
  | setLine => exact event_orderly c (by rw [hg]; rfl) h
  | setClock => exact event_orderly c (by rw [hg]; rfl) h
  | order => exact event_orderly c (by rw [hg]; rfl) h
  | clock => exact event_orderly c (by rw [hg]; rfl) h
  | linkEvent => exact event_orderly c (by rw [hg]; rfl) h
  | credit => exact event_orderly c (by rw [hg]; rfl) h
  | event => exact event_orderly c (by rw [hg]; rfl) h

/-! ### The tables -/

/-- What a command keeps of the tables in order (R1, R92, R95). -/
structure TablesOrder (s t : State) : Prop where
  pages : Table.rising s.pages = true → Table.rising t.pages = true
  entries : (∀ p ∈ Table.keys s.pages, p < Config.pageEntries) → ∀ p ∈ Table.keys t.pages, p < Config.pageEntries
  recs : Table.rising s.recs = true → Table.rising t.recs = true
  deadlines : sortedDue s.deadlines → sortedDue t.deadlines

theorem TablesOrder.trans (h : TablesOrder s t) (k : TablesOrder t u) : TablesOrder s u :=
  ⟨k.pages ∘ h.pages, k.entries ∘ h.entries, k.recs ∘ h.recs, k.deadlines ∘ h.deadlines⟩

theorem TablesKeep.order (h : TablesKeep s t) : TablesOrder s t :=
  ⟨h.pages, fun he p hp => he p (h.entries p hp), h.recs, h.deadlines⟩

theorem RegisterKeeps.tablesOrder (h : RegisterKeeps s t) : TablesOrder s t :=
  ⟨fun k => h.pages ▸ k, fun k => h.pages ▸ k, fun k => h.recs ▸ k, fun k => h.deadlines ▸ k⟩

theorem putPage_tablesOrder {n : Nat} (hn : n < Config.pageEntries) (p : Page) : TablesOrder s (s.putPage n p) where
  pages h := Table.rising_put h n p
  entries h k hk := by
    obtain rfl | hk := (Table.mem_keys_put s.pages n p k).1 hk
    · exact hn
    · exact h k hk
  recs := id
  deadlines := id

theorem exec_tablesOrder : ∀ (c : Instr) (s t : State), exec c s = .next t → TablesOrder s t := by
  refine exec_induct (fun _ _ _ h => h.tables.order) (fun _ _ h => h.tablesOrder)
    (fun s => ⟨fun _ => rfl, fun _ => nofun, fun _ => rfl, fun _ => ?_⟩)
    (fun _ _ _ _ n p hu _ _ hn ht => (hu.tables.order.trans (putPage_tablesOrder hn p)).trans ht.tables.order)
    (fun _ _ _ h k => h.tablesOrder.trans k) (fun _ _ _ h k => h.trans k.tablesOrder)
  exact .nil

end Sys2Proof.Machine

namespace Sys2Proof.Pages

open Sys2Proof Sys2Proof.Machine

/-- Settles O10: a step is a command or leaves the state; a command keeps each table in order, and what it does to the deadline
list and the queues it does by the model's operations, each of which keeps them. -/
theorem tablesStaySound : Obligations.TablesStaySound := by
  unfold Obligations.TablesStaySound
  intro s t hs hstep
  unfold step at hstep
  split at hstep
  · exact next_inj hstep ▸ ⟨hs, id⟩
  · next c cs _ =>
    have ht := exec_tablesOrder c _ _ hstep
    have ho := exec_orderly c hstep
    have hb : Still s { s with pending := cs } := ⟨rfl, rfl, rfl, rfl, rfl, rfl, rfl, rfl, fun _ => .refl _⟩
    refine ⟨⟨ht.pages hs.pages, ht.entries hs.entries, ht.recs hs.recs, ht.deadlines hs.deadlines, ho.due hs.deadlines hs.due⟩,
      fun hq => (ho.kept (hb.light.kept (hq.kept hs.pages hs.recs))).sound⟩

end Sys2Proof.Pages
end

section
/-! A refused page order writes its disposition and nothing else (O35): what a disposition changes, that nothing follows it in a settled
state, and the checks of CONSIGN, WITHDRAW and ISSUE TARGET as the statements spell them. -/

namespace Sys2Proof.Machine

variable {b s t u : State}

/-! ### What a disposition changes -/

/-- A change of the order unit and of the writes alone. -/
def Outward (s t : State) : Prop := ∃ o w, t = { s with order := o, bus := w }

theorem Outward.refl (s : State) : Outward s s := ⟨s.order, s.bus, rfl⟩

theorem Outward.trans (h : Outward s t) (k : Outward t u) : Outward s u := by
  obtain ⟨o, w, rfl⟩ := h
  obtain ⟨o', w', rfl⟩ := k
  exact ⟨o', w', rfl⟩

theorem Outward.eq (h : Outward s t) : t = { s with order := t.order, bus := t.bus } := by
  obtain ⟨o, w, rfl⟩ := h
  rfl

theorem modOrder_outward (f : OrderUnit → OrderUnit) (s : State) : Outward s (s.modOrder f) := ⟨_, s.bus, rfl⟩

theorem hostWrite_outward (a : U64) (bytes : List Byte) (s : State) : Outward s (hostWrite a bytes s) := ⟨s.order, _, rfl⟩

theorem deskWrite_outward (off : Nat) (bytes : List Byte) (s : State) : Outward s (deskWrite off bytes s) := by
  unfold deskWrite
  split
  · exact .refl s
  · exact hostWrite_outward _ _ s

theorem deskWrite_order (off : Nat) (bytes : List Byte) (s : State) : (deskWrite off bytes s).order = s.order := by
  unfold deskWrite
  split <;> rfl

theorem raise_outward (c : Cause) (s : State) : Outward s (raise c s) := by
  obtain ⟨w, e⟩ := raise_eq c s
  exact ⟨_, _, e⟩

theorem raise_completions (c : Cause) (s : State) : (raise c s).order.completions = s.order.completions := by
  obtain ⟨w, e⟩ := raise_eq c s
  rw [e]

theorem finalDisposition_outward (a : U64) (d : Disposition) (n : Nat) (s : State) : Outward s (finalDisposition a d n s) :=
  (hostWrite_outward _ _ s).trans ((modOrder_outward _ _).trans ((deskWrite_outward _ _ _).trans (raise_outward _ _)))

/-- A final disposition is what finishes an order. -/
theorem finalDisposition_finished (a : U64) (d : Disposition) (n : Nat) (s : State) : Finished s (finalDisposition a d n s) a d n := by
  refine ⟨(Issued.hostWrite (a + 9) (leBytes 1 d.code ++ leBytes 2 n) s).calm (q := false) ?_, Raised.raise _ _, ?_⟩
  · refine raise_calm _ (writeSummary_calm (modOrder_calm _ (fun o => ⟨rfl, BitVec.and_self, satInc_ge _⟩) (fun _ => rfl) (.refl _)))
  · refine Nat.le_of_eq (congrArg BitVec.toNat ?_)
    unfold finalDisposition writeSummary
    rw [raise_completions, deskWrite_order]
    rfl

/-- What is finished stays so. -/
theorem Finished.calm {q : Bool} {a : U64} {d : Disposition} {n : Nat} (h : Finished s t a d n) (k : Calm q t u) : Finished s u a d n := by
  obtain ⟨hd, hr, hc⟩ := h
  exact ⟨hd.calm k, hr.calm k, hc.trans k.orderKeeps.completions⟩

/-- What is finished after a change that leaves the count of completions and only adds writes is finished over both. -/
theorem Finished.before {a : U64} {d : Disposition} {n : Nat} (hb : ∃ w, t.bus = w ++ s.bus)
    (hc : s.order.completions.toNat ≤ t.order.completions.toNat) (h : Finished t u a d n) : Finished s u a d n := by
  obtain ⟨⟨w, w', hw⟩, hr, hn⟩ := h
  obtain ⟨v, hv⟩ := hb
  refine ⟨⟨w, w' ++ v, by rw [hw, hv, List.append_assoc]⟩, hr, Nat.le_trans ?_ hn⟩
  simp only [satInc, satAdd, BitVec.toNat_ofNat]
  have h1 := s.order.completions.isLt
  have h2 := t.order.completions.isLt
  omega

/-! ### Nothing follows in a settled state -/

theorem pageEndCheck_outward (h : Outward s t) (hs : s.Settled) (n : Nat) : pageEndCheck n t = t := by
  obtain ⟨o, w, rfl⟩ := h
  unfold pageEndCheck
  split
  · rfl
  · next p hp =>
    have hk : n ∈ Table.keys s.pages := List.mem_map.2 ⟨_, Table.mem_of_get hp, rfl⟩
    have he : ¬ pageEnded s p = true := by rw [hs.pages n hk p hp]; decide
    exact if_neg he

theorem foldl_fixed {α β : Type} (f : β → α → β) (x : β) (as : List α) (h : ∀ a ∈ as, f x a = x) : as.foldl f x = x := by
  induction as with
  | nil => rfl
  | cons a as ih =>
    rw [List.foldl_cons, h a (List.mem_cons_self ..)]
    exact ih fun c hc => h c (List.mem_cons_of_mem _ hc)

theorem afterTake_outward (h : Outward s t) (hs : s.Settled) : afterTake t = t := by
  have hsweep : sweepPages t = t := foldl_fixed _ _ _ fun n _ => pageEndCheck_outward h hs n
  obtain ⟨o, w, rfl⟩ := h
  unfold afterTake
  rw [hsweep]
  have hfire : fireDue id { s with order := o, bus := w } = { s with order := o, bus := w } := by
    unfold fireDue
    cases 4 * s.deadlines.length with
    | zero => rfl
    | succ k =>
      have hd : ¬ headDue s = true := by rw [hs.deadlines]; decide
      exact if_neg hd
  rw [hfire]
  unfold startVerify
  split
  · next i is hb hq =>
    obtain c | c := hs.verify
    · exact absurd hb c
    · rw [show s.verify.queue = i :: is from hq] at c
      cases c
  · rfl

/-- An order whose effect is a refusal. -/
theorem refused_of_refuse {c : Instr} {a : U64} {why : RefusalDetail} (hs : s.Settled)
    (h : exec c s = .next (afterTake (refuse a why (markTaken a s)))) : Refused c s a why := by
  have ho : Outward s (refuse a why (markTaken a s)) := (modOrder_outward _ s).trans (finalDisposition_outward _ _ _ _)
  rw [afterTake_outward ho hs] at h
  have hf : Finished (markTaken a s) (refuse a why (markTaken a s)) a .refused why.code := finalDisposition_finished _ _ _ _
  have hk := (refuse_calm (q := false) a why (.refl (markTaken a s))).orderKeeps.core
  generalize refuse a why (markTaken a s) = t at h ho hf hk
  obtain ⟨_, _, _, _, _, _, _, hcur, _, hw, _⟩ := OrderUnit.core_fields hk
  exact ⟨t, h, hf.before ⟨[], rfl⟩ le_rfl, hcur, hw, ho.eq⟩

/-! ### The field checks -/

theorem keyOk_iff {k : PageKey} : keyOk k = true ↔ KeyInRange k := by
  simp only [keyOk, Bool.and_eq_true, decide_eq_true_eq]
  exact ⟨fun ⟨⟨⟨hz, hs⟩, hl⟩, hh⟩ => ⟨hz, hs, hl, hh⟩, fun ⟨hz, hs, hl, hh⟩ => ⟨⟨⟨hz, hs⟩, hl⟩, hh⟩⟩

theorem extentOk_iff {e : Extent} : extentOk e = true ↔ ExtentInRange e := by
  have hlen : e.len ≠ 0 ↔ 1 ≤ e.len.toNat := by
    rw [← BitVec.toNat_ne_iff_ne, Nat.one_le_iff_ne_zero]; rfl
  simp only [extentOk, Bool.and_eq_true, bne_iff_ne, decide_eq_true_eq, hlen]
  exact ⟨fun ⟨⟨ha, hl⟩, ht⟩ => ⟨ha, hl, ht⟩, fun ⟨ha, hl, ht⟩ => ⟨⟨ha, hl⟩, ht⟩⟩

theorem linesOk_iff {ls : List Byte} : linesOk ls = true ↔ (∀ b ∈ ls, b.toNat ≤ 63) ∧ ls.Nodup := by
  simp only [linesOk, Bool.and_eq_true, List.all_eq_true, decide_eq_true_eq, Nat.lt_succ_iff]

theorem consignFieldsOk_iff {w : ConsignBody} : consignFieldsOk w = true ↔ ConsignInRange w := by
  simp only [consignFieldsOk, Bool.and_eq_true, decide_eq_true_eq, List.all_eq_true, linesOk_iff, keyOk_iff, extentOk_iff,
    extentsLength, List.forall_mem_map]
  constructor
  · rintro ⟨⟨⟨⟨⟨⟨⟨⟨⟨⟨⟨⟨⟨hk, hv⟩, hp⟩, hs⟩, hs'⟩, he⟩, he'⟩, hd⟩, hd'⟩, hel⟩, hdl⟩, hx⟩, hsum⟩, hl, hn⟩
    exact ⟨hk, hv, hp, ⟨hs, hs'⟩, ⟨hel ▸ he, hel ▸ he', hel⟩, ⟨hdl ▸ hd, hdl ▸ hd', hdl⟩, hx, of_decide_eq_true hsum, hl, hn⟩
  · rintro ⟨hk, hv, hp, ⟨hs, hs'⟩, ⟨he, he', hel⟩, ⟨hd, hd', hdl⟩, hx, hsum, hl, hn⟩
    exact ⟨⟨⟨⟨⟨⟨⟨⟨⟨⟨⟨⟨⟨hk, hv⟩, hp⟩, hs⟩, hs'⟩, hel ▸ he⟩, hel ▸ he'⟩, hdl ▸ hd⟩, hdl ▸ hd'⟩, hel⟩, hdl⟩, hx⟩,
      decide_eq_true hsum⟩, hl, hn⟩

theorem targetFieldsOk_iff {e : TargetEntry} : (e.line.toNat ≤ 63 ∧ targetFieldsOk e = true) ↔ TargetInRange e := by
  simp only [targetFieldsOk, Bool.and_eq_true, decide_eq_true_eq, List.all_eq_true, extentOk_iff, extentsLength]
  constructor
  · rintro ⟨hl, ⟨⟨⟨⟨⟨hs, hs'⟩, he⟩, he'⟩, hel⟩, hx⟩, hsum⟩
    exact ⟨hl, ⟨hs, hs'⟩, ⟨hel ▸ he, hel ▸ he', hel⟩, hx, of_decide_eq_true hsum⟩
  · rintro ⟨hl, ⟨hs, hs'⟩, ⟨he, he', hel⟩, hx, hsum⟩
    exact ⟨hl, ⟨⟨⟨⟨⟨hs, hs'⟩, hel ▸ he⟩, hel ▸ he'⟩, hel⟩, hx⟩, decide_eq_true hsum⟩

theorem issueFieldsOk_iff {w : IssueTargetBody} : issueFieldsOk w = true ↔ IssueInRange w := by
  simp only [issueFieldsOk, Bool.and_eq_true, decide_eq_true_eq, List.all_eq_true, linesOk_iff, List.forall_mem_map]
  constructor
  · rintro ⟨⟨⟨⟨⟨hg, hc⟩, hc'⟩, hel⟩, hl, hn⟩, hx⟩
    exact ⟨hg, ⟨hel ▸ hc, hel ▸ hc', hel⟩, fun e he => targetFieldsOk_iff.1 ⟨hl e he, hx e he⟩, hn⟩
  · rintro ⟨hg, ⟨hc, hc', hel⟩, hx, hn⟩
    exact ⟨⟨⟨⟨⟨hg, hel ▸ hc⟩, hel ▸ hc'⟩, hel⟩, fun e he => (targetFieldsOk_iff.2 (hx e he)).1, hn⟩,
      fun e he => (targetFieldsOk_iff.2 (hx e he)).2⟩

/-! ### The other checks -/

theorem lineOf_val {x : Byte} (h : x.toNat ≤ 63) : x.toNat = (lineOf x).val := by
  simp only [lineOf, Fin.val_ofNat]
  omega

/-- The check that every named line is enabled, as the statements spell it. -/
theorem linesEnabled_iff {α : Type} (f : α → Byte) {xs : List α} (h : ∀ x ∈ xs, (f x).toNat ≤ 63) :
    linesEnabled s (xs.map f) = true ↔ ∀ x ∈ xs, ∀ n : LineId, (f x).toNat = n.val → (s.line n).enabled = true := by
  simp only [linesEnabled, List.all_eq_true, List.forall_mem_map]
  refine forall₂_congr fun x hx => ⟨fun he n hn => ?_, fun he => he _ (lineOf_val (h x hx))⟩
  rw [← Fin.ext ((lineOf_val (h x hx)).symm.trans hn)]
  exact he

theorem freeEntry_none (h : ∀ n < 128, s.page? n ≠ none) : freeEntry s = none := by
  unfold freeEntry
  rw [List.find?_eq_none]
  intro n hn
  simpa [Option.isNone_iff_eq_none] using h n (List.mem_range.1 hn)

theorem exists_freeEntry {n : Nat} (hn : n < 128) (hp : s.page? n = none) : ∃ m, freeEntry s = some m := by
  cases h : freeEntry s with
  | some m => exact ⟨m, rfl⟩
  | none =>
    have := List.find?_eq_none.1 h n (List.mem_range.2 hn)
    rw [hp] at this
    exact absurd rfl this

section Consign

variable {w : ConsignBody} {a : U64}

/-- The order names a version not above that of the key's owner (R4). -/
def OldVersion (s : State) (w : ConsignBody) : Prop :=
  ∃ e, keyOwner s w.key = some e ∧ w.version.toNat ≤ e.2.version.toNat

theorem consign_refused {why : RefusalDetail} (hs : s.Settled) (hc : consignCheck s w = .inl why) : Refused (.consign a w) s a why := by
  refine refused_of_refuse hs ?_
  have e : takeConsign a w (markTaken a s) = refuse a why (markTaken a s) := by
    unfold takeConsign
    rw [show consignCheck (markTaken a s) w = .inl why from hc]
  show Host.Outcome.next (afterTake (takeConsign a w (markTaken a s))) = _
  rw [e]

theorem consignCheck_badField (h : ¬ ConsignInRange w) : consignCheck s w = .inl .badField := by
  rw [← consignFieldsOk_iff, Bool.not_eq_true] at h
  rw [consignCheck, if_pos h]

theorem consignCheck_lines (hr : ConsignInRange w) (h : linesEnabled s (w.dests.map fun d => d.line) = false) :
    consignCheck s w = .inl .lineUnconfigured := by
  rw [consignCheck, consignFieldsOk_iff.2 hr, if_neg (by decide), if_pos h]

theorem consignCheck_old (hr : ConsignInRange w) (hl : linesEnabled s (w.dests.map fun d => d.line) = true) (ho : OldVersion s w) :
    consignCheck s w = .inl .oldVersion := by
  obtain ⟨e, he, hv⟩ := ho
  rw [consignCheck, consignFieldsOk_iff.2 hr, if_neg (by decide), hl, if_neg (by decide), he]
  exact if_pos (decide_eq_true hv)

theorem consignCheck_full (hr : ConsignInRange w) (hl : linesEnabled s (w.dests.map fun d => d.line) = true) (ho : ¬ OldVersion s w)
    (hf : freeEntry s = none) : consignCheck s w = .inl .tableFull := by
  rw [consignCheck, consignFieldsOk_iff.2 hr, if_neg (by decide), hl, if_neg (by decide), hf]
  refine if_neg fun c => ?_
  split at c
  · next e => exact ho ⟨_, e, of_decide_eq_true c⟩
  · cases c

theorem consignCheck_entry {n : Nat} (hr : ConsignInRange w) (hl : linesEnabled s (w.dests.map fun d => d.line) = true)
    (ho : ¬ OldVersion s w) (hf : freeEntry s = some n) :
    consignCheck s w = if s.free.length < w.dests.length then .inl .poolFull else .inr n := by
  rw [consignCheck, consignFieldsOk_iff.2 hr, if_neg (by decide), hl, if_neg (by decide), hf, hr.dests.2.2]
  refine if_neg fun c => ?_
  split at c
  · next e => exact ho ⟨_, e, of_decide_eq_true c⟩
  · cases c

end Consign

theorem withdraw_refused {w : WithdrawBody} {a : U64} {why : RefusalDetail} (hs : s.Settled)
    (h : takeWithdraw a w (markTaken a s) = refuse a why (markTaken a s)) : Refused (.withdraw a w) s a why :=
  refused_of_refuse hs (congrArg (fun t => Host.Outcome.next (afterTake t)) h)

section Issue

variable {w : IssueTargetBody} {a : U64}

/-- The order names a line whose newest generation is not below its own (R50). -/
def OldGeneration (s : State) (w : IssueTargetBody) : Prop :=
  ∃ e ∈ w.entries, ∃ n : LineId, e.line.toNat = n.val ∧
    ∃ c, (s.line n).catalog.getLast? = some c ∧ w.generation.toNat ≤ c.generation.toNat

theorem OldGeneration.any (h : OldGeneration s w) : ((w.entries.map fun t => t.line).any fun l =>
    match (s.line (lineOf l)).catalog.getLast? with
    | some e => decide (w.generation.toNat ≤ e.generation.toNat)
    | none => false) = true := by
  obtain ⟨e, he, n, hn, c, hc, hg⟩ := h
  refine List.any_eq_true.2 ⟨e.line, List.mem_map.2 ⟨e, he, rfl⟩, ?_⟩
  have hline : lineOf e.line = n := Fin.ext ((lineOf_val (by have := n.isLt; omega)).symm.trans hn)
  rw [hline, hc]
  exact decide_eq_true hg

theorem issue_refused {why : RefusalDetail} (hs : s.Settled) (hc : issueCheck s w = some why) : Refused (.issueTarget a w) s a why := by
  refine refused_of_refuse hs ?_
  have e : takeIssueTarget a w (markTaken a s) = refuse a why (markTaken a s) := by
    unfold takeIssueTarget
    rw [show issueCheck (markTaken a s) w = some why from hc]
  show Host.Outcome.next (afterTake (takeIssueTarget a w (markTaken a s))) = _
  rw [e]

theorem issueCheck_badField (h : ¬ IssueInRange w) : issueCheck s w = some .badField := by
  rw [← issueFieldsOk_iff, Bool.not_eq_true] at h
  rw [issueCheck, if_pos h]

theorem issueCheck_lines (hr : IssueInRange w) (h : linesEnabled s (w.entries.map fun t => t.line) = false) :
    issueCheck s w = some .lineUnconfigured := by
  rw [issueCheck, issueFieldsOk_iff.2 hr, if_neg (by decide), if_pos h]

theorem issueCheck_old (hr : IssueInRange w) (hl : linesEnabled s (w.entries.map fun t => t.line) = true) (ho : OldGeneration s w) :
    issueCheck s w = some .oldGeneration := by
  rw [issueCheck, issueFieldsOk_iff.2 hr, if_neg (by decide), hl, if_neg (by decide)]
  exact if_pos ho.any

end Issue

end Sys2Proof.Machine

namespace Sys2Proof.Pages

open Sys2Proof Sys2Proof.Machine

/-- Settles O35: the first check that fails decides the refusal, and nothing follows a refusal in a settled state. -/
theorem pageOrdersRefused : Obligations.PageOrdersRefused := by
  unfold Obligations.PageOrdersRefused
  intro s a hs
  refine ⟨fun w => ?_, fun w => ?_, fun w => ?_⟩
  · have enabled : ConsignInRange w → _ := fun hr => linesEnabled_iff (s := s) (fun d : DestEntry => d.line) hr.lines
    refine ⟨fun h => consign_refused hs (consignCheck_badField h), fun hr hk => ?_, fun hr hk ho => ?_, fun hr hk ho hp => ?_,
      fun hr hk ho ⟨n, hn, hp⟩ hf => ?_⟩
    · exact consign_refused hs (consignCheck_lines hr (Bool.not_eq_true _ ▸ fun c => hk ((enabled hr).1 c)))
    · exact consign_refused hs (consignCheck_old hr ((enabled hr).2 hk) ho)
    · exact consign_refused hs (consignCheck_full hr ((enabled hr).2 hk) ho (freeEntry_none hp))
    · obtain ⟨m, hm⟩ := exists_freeEntry hn hp
      exact consign_refused hs ((consignCheck_entry hr ((enabled hr).2 hk) ho hm).trans (if_pos hf))
  · refine ⟨fun h => ?_, fun hr hk => ?_, fun hr e hk hz hv => ?_⟩
    · rw [← keyOk_iff, Bool.not_eq_true] at h
      exact withdraw_refused hs (by rw [takeWithdraw, if_pos h])
    · have hk : keyOwner (markTaken a s) w.key = none := hk
      exact withdraw_refused hs (by rw [takeWithdraw, keyOk_iff.2 hr, if_neg (by decide), hk])
    · have hk : keyOwner (markTaken a s) w.key = some e := hk
      exact withdraw_refused hs (by rw [takeWithdraw, keyOk_iff.2 hr, if_neg (by decide), hk]; exact if_pos ⟨hz, hv⟩)
  · have enabled : IssueInRange w → _ := fun hr =>
      linesEnabled_iff (s := s) (fun e : TargetEntry => e.line) fun e he => (hr.entries e he).line
    refine ⟨fun h => issue_refused hs (issueCheck_badField h), fun hr hk => ?_, fun hr hk ho => ?_⟩
    · exact issue_refused hs (issueCheck_lines hr (Bool.not_eq_true _ ▸ fun c => hk ((enabled hr).1 c)))
    · exact issue_refused hs (issueCheck_old hr ((enabled hr).2 hk) ho)

end Sys2Proof.Pages
end

section
/-! An accepted CONSIGN (O31): its page entry, its records with their WARN entries, the destination entries it writes. -/

namespace Sys2Proof.Machine

variable {s t u : State} {a : U64} {w : ConsignBody} {n : Nat}

/-! ### Writes alone -/

/-- A change that only adds writes. -/
def Writes (s t : State) : Prop := ∃ w, t = { s with bus := w ++ s.bus }

theorem Writes.refl (s : State) : Writes s s := ⟨[], rfl⟩

theorem Writes.trans (h : Writes s t) (k : Writes t u) : Writes s u := by
  obtain ⟨w, rfl⟩ := h
  obtain ⟨v, rfl⟩ := k
  exact ⟨v ++ w, by simp only [List.append_assoc]⟩

theorem Writes.issued_before {x : BusWrite} (h : Writes s t) (k : Issued t u x) : Issued s u x := by
  obtain ⟨w, rfl⟩ := h
  obtain ⟨later, earlier, k⟩ := k
  exact ⟨later, earlier ++ w, by rw [k, List.append_assoc]⟩

theorem Writes.issued_after {x : BusWrite} (h : Issued s t x) (k : Writes t u) : Issued s u x := by
  obtain ⟨w, rfl⟩ := k
  obtain ⟨later, earlier, h⟩ := h
  exact ⟨w ++ later, earlier, by simp only [h, List.append_assoc]⟩

theorem hostWrite_writes (a : U64) (bytes : List Byte) (s : State) : Writes s (hostWrite a bytes s) := ⟨[.write a bytes], rfl⟩

theorem writeEntry_writes (i : Nat) (s : State) : Writes s (writeEntry i s) := by
  unfold writeEntry
  split
  · exact .refl s
  · split
    · exact hostWrite_writes _ _ s
    · split
      · exact .refl s
      · exact hostWrite_writes _ _ s

theorem writeEntry_issued {i : Nat} {r : DestRec} (hr : s.rec? i = some r) (ho : r.origin = none) :
    Issued s (writeEntry i s) (.write (r.entryAddr + 8) (entryBytes s r)) := by
  rw [show writeEntry i s = hostWrite (r.entryAddr + 8) (entryBytes s r) s by rw [writeEntry, hr]; dsimp only; rw [ho]]
  exact Issued.hostWrite _ _ s

theorem foldl_writeEntry_writes (ids : List Nat) (s : State) : Writes s (ids.foldl (fun s i => writeEntry i s) s) := by
  induction ids generalizing s with
  | nil => exact .refl s
  | cons i ids ih => exact (writeEntry_writes i s).trans (ih _)

/-- Every entry of a run of entry writes goes out. -/
theorem foldl_writeEntry_issued {ids : List Nat} {i : Nat} {r : DestRec} {bytes : List Byte} (hi : i ∈ ids) (hr : s.rec? i = some r)
    (ho : r.origin = none) (hb : ∀ t, entryBytes t r = bytes) :
    Issued s (ids.foldl (fun s i => writeEntry i s) s) (.write (r.entryAddr + 8) bytes) := by
  obtain ⟨before, after, rfl⟩ := List.append_of_mem hi
  rw [List.foldl_append, List.foldl_cons]
  have h := foldl_writeEntry_writes before s
  generalize before.foldl (fun s i => writeEntry i s) s = t at h ⊢
  have hw : Issued t (writeEntry i t) (.write (r.entryAddr + 8) bytes) := by
    obtain ⟨v, rfl⟩ := h
    have := writeEntry_issued (s := { s with bus := v ++ s.bus }) hr ho
    rwa [hb] at this
  exact (foldl_writeEntry_writes after _).issued_after (h.issued_before hw)

/-! ### The records of a CONSIGN -/

theorem Table.get_foldl_put_some {α : Type} (xs : List (Nat × α)) (t : Table α) {i : Nat} (h : i ∈ xs.map fun x => x.1) :
    ∃ a, (i, a) ∈ xs ∧ Table.get (xs.foldl (fun t x => Table.put t x.1 x.2) t) i = some a := by
  induction xs generalizing t with
  | nil => cases h
  | cons x xs ih =>
    by_cases hm : i ∈ xs.map fun x => x.1
    · obtain ⟨a, ha, hg⟩ := ih (Table.put t x.1 x.2) hm
      exact ⟨a, .tail _ ha, hg⟩
    · obtain rfl | hx := List.mem_cons.1 h
      · exact ⟨x.2, .head _, (Table.get_foldl_put_ne xs _ hm).trans (Table.get_put_self t x.1 x.2)⟩
      · exact absurd hx hm

/-- Each record taken into use has its WARN entry (R93). -/
theorem foldl_takeRec_warn (xs : List (Nat × DestRec)) (s : State) :
    (∀ d ∈ s.deadlines, d ∈ (xs.foldl (fun s x => takeRec x.1 x.2 s) s).deadlines) ∧
    ∀ x ∈ xs, ⟨warnDue x.2.deadline (s.line x.2.line).cfg.warnLead, x.1, .warn⟩ ∈
      (xs.foldl (fun s x => takeRec x.1 x.2 s) s).deadlines := by
  induction xs generalizing s with
  | nil => exact ⟨fun _ h => h, fun _ h => absurd h List.not_mem_nil⟩
  | cons x xs ih =>
    obtain ⟨hold, hnew⟩ := ih (takeRec x.1 x.2 s)
    rw [List.foldl_cons]
    generalize xs.foldl (fun s x => takeRec x.1 x.2 s) (takeRec x.1 x.2 s) = t at hold hnew ⊢
    have hmem : ∀ d, d ∈ (takeRec x.1 x.2 s).deadlines ↔
        d = ⟨warnDue x.2.deadline (s.line x.2.line).cfg.warnLead, x.1, .warn⟩ ∨ d ∈ s.deadlines := fun d =>
      mem_insertDue _ _ d
    refine ⟨fun d hd => hold d ((hmem d).2 (.inr hd)), fun y hy => ?_⟩
    obtain rfl | hy := List.mem_cons.1 hy
    · exact hold _ ((hmem _).2 (.inl rfl))
    · exact hnew y hy

/-- The state of a CONSIGN once its records are in use: tables alone have changed. -/
theorem consigned_eq (a : U64) (w : ConsignBody) (n : Nat) (s : State) : ∃ d, consigned a w n s =
    { s with
      free := s.free.drop w.dests.length
      pages := Table.put s.pages n (consignPage a w (s.free.take w.dests.length))
      recs := (consignRecs n a w (s.free.take w.dests.length)).foldl (fun t x => Table.put t x.1 x.2) s.recs
      deadlines := d } := by
  obtain ⟨d, h⟩ := foldl_takeRec (consignRecs n a w (s.free.take w.dests.length))
    ((s.setFree (s.free.drop w.dests.length)).putPage n (consignPage a w (s.free.take w.dests.length)))
  exact ⟨d, h⟩

/-- What stands of each record of a CONSIGN: it is the record of one of its destinations, with that one's WARN entry. -/
theorem consigned_rec {i : Nat} (hi : i ∈ s.free.take w.dests.length) : ∃ k d, s.free[k]? = some i ∧ w.dests[k]? = some d ∧
    let r := consignRec n w.deadline d (destEntryAddr a w.extentCount.toNat k)
    (consigned a w n s).rec? i = some r ∧
      ⟨warnDue r.deadline (s.line r.line).cfg.warnLead, i, .warn⟩ ∈ (consigned a w n s).deadlines := by
  have hids := consignRecs_ids n a w (s.free.take w.dests.length) (by simp)
  obtain ⟨r, hm, hg⟩ := Table.get_foldl_put_some (consignRecs n a w (s.free.take w.dests.length)) s.recs (hids.symm ▸ hi)
  have hwarn := (foldl_takeRec_warn (consignRecs n a w (s.free.take w.dests.length))
    ((s.setFree (s.free.drop w.dests.length)).putPage n (consignPage a w (s.free.take w.dests.length)))).2 _ hm
  obtain ⟨k, d, hk, hd, rfl⟩ := mem_consignRecs hm
  refine ⟨k, d, (List.getElem?_take_of_lt ?_).symm.trans hk, hd, ?_, hwarn⟩
  · exact (List.getElem?_eq_some_iff.1 hd).1
  obtain ⟨ds, e⟩ := consigned_eq a w n s
  rw [e]
  exact hg

theorem consignRec_bytes (n : Nat) (x : U32) (d : DestEntry) (e : U64) (t : State) :
    entryBytes t (consignRec n x d e) = [1, 0, 0, 0, 255, 0, 0, 0] := rfl

/-! ### The CONSIGN -/

theorem freeEntry_lowest (hn : n < 128) (hp : s.page? n = none) (hm : ∀ m < n, s.page? m ≠ none) : freeEntry s = some n := by
  unfold freeEntry
  rw [List.find?_range_eq_some]
  exact ⟨by rw [hp]; rfl, List.mem_range.2 hn, fun m h => by simpa [Option.isSome_iff_ne_none] using hm m h⟩

theorem keyOwner_none {k : PageKey} (h : ∀ e ∈ s.pages, e.2.key = k → e.2.state = .retiring) : keyOwner s k = none := by
  unfold keyOwner
  rw [List.find?_eq_none]
  intro e he c
  simp only [Bool.and_eq_true, beq_iff_eq, bne_iff_ne] at c
  exact c.2 (h e he c.1)

/-- What a CONSIGN of a key without owner leaves, as it is written to host memory. -/
theorem acceptConsign_new (a : U64) (w : ConsignBody) (n : Nat) (s : State) :
    acceptConsign a w n none s = writeTaken a ((s.free.take w.dests.length).foldl (fun s i => writeEntry i s)
      (joinVerify (.page n) (consigned a w n s))) := rfl

theorem exec_consign_accepted {old : Option (Nat × Page)} (hc : consignCheck s w = .inr n) (ho : keyOwner s w.key = old) :
    exec (.consign a w) s = .next (afterTake (acceptConsign a w n old (markTaken a s))) := by
  have e : takeConsign a w (markTaken a s) = acceptConsign a w n old (markTaken a s) := by
    unfold takeConsign
    rw [show consignCheck (markTaken a s) w = .inr n from hc, show keyOwner (markTaken a s) w.key = old from ho]
  show Host.Outcome.next (afterTake (takeConsign a w (markTaken a s))) = _
  rw [e]

end Sys2Proof.Machine

namespace Sys2Proof.Pages

open Sys2Proof Sys2Proof.Machine

/-- Settles O31: the checks pass, and the state before the entries are written differs from the one before the order in its tables
alone. -/
theorem consignAccepted : Obligations.ConsignAccepted := by
  unfold Obligations.ConsignAccepted
  intro s a w n hr hl hkey hp hn hm hf
  have hown : keyOwner s w.key = none := keyOwner_none hkey
  have hold : ¬ OldVersion s w := fun ⟨e, he, _⟩ => by rw [hown] at he; cases he
  have hlines := (linesEnabled_iff (s := s) (fun d : DestEntry => d.line) hr.lines).2 hl
  have hc : consignCheck s w = .inr n :=
    (consignCheck_entry hr hlines hold (freeEntry_lowest hn hp hm)).trans (if_neg (Nat.not_lt.2 hf))
  refine ⟨_, exec_consign_accepted hc hown, ?_⟩
  rw [acceptConsign_new, show (markTaken a s).free = s.free from rfl]
  have hrec := fun (i : Nat) => consigned_rec (s := markTaken a s) (a := a) (w := w) (n := n) (i := i)
  obtain ⟨ds, hcon⟩ := consigned_eq a w n (markTaken a s)
  generalize consigned a w n (markTaken a s) = c at hrec hcon ⊢
  have hw := foldl_writeEntry_writes (s.free.take w.dests.length) (joinVerify (.page n) c)
  have hissued := fun (i : Nat) (r : DestRec) (bytes : List Byte) => foldl_writeEntry_issued
    (ids := s.free.take w.dests.length) (i := i) (r := r) (bytes := bytes) (s := joinVerify (.page n) c)
  generalize (s.free.take w.dests.length).foldl (fun s i => writeEntry i s) (joinVerify (.page n) c) = t at hw hissued ⊢
  obtain ⟨v, rfl⟩ := hw
  subst hcon
  refine ⟨⟨_, Table.get_put_self s.pages n _, rfl, rfl, rfl, rfl, rfl, rfl, rfl, rfl, rfl, rfl, rfl, rfl, rfl, rfl⟩, rfl, rfl,
    fun i hi => ?_, rfl, rfl⟩
  obtain ⟨k, d, hk, hd, hr', hwarn⟩ := hrec i hi
  refine ⟨k, d, _, hk, hd, hr', rfl, ?_, rfl, rfl, rfl, rfl, rfl, rfl, hwarn, ?_⟩
  · exact (lineOf_val (hr.lines d (List.mem_of_getElem? hd))).symm
  · obtain ⟨later, earlier, hb⟩ := hissued i _ _ hi hr' rfl (consignRec_bytes _ _ _ _)
    refine ⟨_ :: later, earlier, congrArg (_ :: ·) ?_⟩
    rw [hr.extents.2.2]
    exact hb

end Sys2Proof.Pages
end

section
/-! What retraction makes of a page's records (R36), with what it rests on: a page that retires (O32) and a page that faults (O38). -/

namespace Sys2Proof.Machine

variable {p : Bool} {b s t u : State} {i : Nat} {r r' q : DestRec} {x : RetractEnd} {d : Detail}

/-! ### Records in no queue -/

theorem Unqueued.inPlace (h : Unqueued s i) : InPlace s i r := fun l c => absurd c (h l)

theorem InPlace.unqueued (h : InPlace s i r) (hs : r.state ≠ .queued) : Unqueued s i := fun l c => hs (h l c).1

theorem Light.unqueued (h : Light s t) (hu : Unqueued s i) : Unqueued t i := fun l c => hu l ((h.links l).1 ▸ c)

theorem applyChange_unqueued (n : Nat) (f : DestRec → DestRec) (h : Unqueued s i) : Unqueued (applyChange n f s) i :=
  (monitor_light n (.refl _)).unqueued ((writeEntry_still n (.refl (s.modRec n f))).light.unqueued h)

theorem leaveQueue_unqueued {l : LinkId} (h : ∀ m, m ≠ l → Xfer.dest i ∉ (s.link m).queue) : Unqueued (leaveQueue l (.dest i) s) i := by
  intro m c
  have e : ((leaveQueue l (.dest i) s).link m).queue = if m = l then _ else (s.link m).queue :=
    congrFun (congrArg Layout.queue (leaveQueue_layout l (.dest i) s)) m
  rw [e] at c
  split at c
  · simpa using (List.mem_filter.1 c).2
  · next hm => exact h m hm c

theorem stopSending_unqueued {l : LinkId} (y : Xfer) (h : Unqueued s i) : Unqueued (stopSending l y s) i := fun m c =>
  h m ((congrArg (Xfer.dest i ∈ ·) (congrFun (congrArg Layout.queue (stopSending_layout l y s)) m)).mp c)

/-- A record in its place is detached from its queue. -/
theorem detachRec_unqueued (hr : s.rec? i = some r) (hi : InPlace s i r) : Unqueued (detachRec i s) i := by
  by_cases hq : r.state = .queued
  · have e : detachRec i s = leaveQueue (s.linkOf r.line) (.dest i) s := by
      rw [detachRec, hr]
      dsimp only
      rw [hq]
    rw [e]
    exact leaveQueue_unqueued fun m hm c => hm (hi m c).2
  · have hu := hi.unqueued hq
    unfold detachRec
    rw [hr]
    dsimp only
    split
    case h_1 e => exact absurd e hq
    case h_2 => exact stopSending_unqueued _ hu
    all_goals exact hu

/-! ### Retraction (R36) -/

/-- A record that a retraction leaves as it is. -/
def DestRec.Gone (r : DestRec) : Prop := r.state.isFinal = true ∨ r.state = .withdrawing

theorem DestRec.Gone.not_queued (h : r.Gone) : r.state ≠ .queued := fun c => by
  obtain h | h := h <;> rw [c] at h <;> cases h

theorem RecStays.state_of_ne (h : RecStays p r r') (hq : r.state ≠ .queued) : r'.state = r.state :=
  h.state.resolve_right fun c => hq c.2.1

theorem RecStays.gone (h : RecStays p r r') (hg : r.Gone) : r'.Gone := by
  unfold DestRec.Gone
  rw [h.state_of_ne hg.not_queued]
  exact hg

theorem RecStays.gone_iff (h : RecStays p r r') : r'.Gone ↔ r.Gone := by
  refine ⟨fun hg => ?_, h.gone⟩
  obtain e | ⟨_, _, e⟩ := h.state
  · unfold DestRec.Gone at hg ⊢
    rwa [e] at hg
  · obtain hg | hg := hg <;> rw [e] at hg <;> cases hg

theorem retracted_of_gone (hg : r.Gone) : Retracted r r' x d ↔ r'.state = r.state ∧ r'.detail = r.detail ∧ r'.retract = r.retract :=
  iff_of_eq (if_pos hg)

theorem retracted_of_live (hg : ¬ r.Gone) : Retracted r r' x d ↔
    if r.siteHasData = true then r'.state = .withdrawing ∧ r'.detail = .none ∧ r'.retract = some (x, d)
    else r'.state = x.state ∧ r'.detail = d :=
  iff_of_eq (if_neg hg)

/-- What a retraction has made of a record stands as long as the record is left alone. -/
theorem Retracted.stays (h : Retracted r r' x d) (hg : r'.Gone) (k : RecStays p r' q) : Retracted r q x d := by
  unfold Retracted at h ⊢
  rwa [k.state_of_ne hg.not_queued, k.detail, k.retract]

/-- A record that was left alone before its retraction. -/
theorem Retracted.of_stays (k : RecStays p r q) (h : Retracted q r' x d) : Retracted r r' x d := by
  by_cases hr : r.Gone
  · rw [retracted_of_gone (k.gone hr), k.state_of_ne hr.not_queued, k.detail, k.retract] at h
    exact (retracted_of_gone hr).2 h
  · rw [retracted_of_live fun c => hr (k.gone_iff.1 c), k.siteHasData] at h
    exact (retracted_of_live hr).2 h

theorem sendOwedWithdraw_stays (n : Nat) (hr : s.rec? i = some r) (hu : Unqueued s i) :
    StaysAs false (sendOwedWithdraw n s) i r :=
  (sendOwedWithdraw_spares (A := fun _ => False) n (.refl s)).recs i r id hr hu.inPlace

/-- A record taken back, detached from its queue before. -/
theorem takeBack_rec (hr : s.rec? i = some r) (hu : Unqueued s i) (hg : ¬ r.Gone) :
    ∃ r', (takeBack i r x d s).rec? i = some r' ∧ r'.line = r.line ∧ Retracted r r' x d ∧ r'.Gone ∧
      Unqueued (takeBack i r x d s) i := by
  have hret : ∀ r', (r.siteHasData = true → r'.state = .withdrawing ∧ r'.detail = .none ∧ r'.retract = some (x, d)) →
      (r.siteHasData ≠ true → r'.state = x.state ∧ r'.detail = d) → Retracted r r' x d := by
    intro r' h1 h2
    rw [retracted_of_live hg]
    split
    · next h => exact h1 h
    · next h => exact h2 h
  unfold takeBack
  split
  · next hd =>
    let f : DestRec → DestRec := fun q => { q with
      state := .withdrawing, detail := .none, retract := some (x, d), timer := .stopped, sendCount := 0 }
    have h1 : (dropControl (isRelease i) (applyChange i f s)).rec? i = some (f r) := by
      rw [(dropControl_still _ (.refl _)).rec?, applyChange_rec, if_pos rfl, hr]
      rfl
    have h2 : Unqueued (dropControl (isRelease i) (applyChange i f s)) i :=
      (dropControl_still _ (.refl _)).light.unqueued (applyChange_unqueued i f hu)
    obtain ⟨r', hr', hs, hi⟩ := sendOwedWithdraw_stays i h1 h2
    have hst : r'.state = .withdrawing := hs.state_of_ne fun c => by cases c
    exact ⟨r', hr', hs.line, hret r' (fun _ => ⟨hst, hs.detail, hs.retract⟩) fun c => absurd hd c, .inr hst,
      hi.unqueued fun c => by rw [hst] at c; cases c⟩
  · next hd =>
    have h1 : (finish i x.state d s).rec? i = some { r with state := x.state, detail := d, timer := .stopped } := by
      rw [finish_rec, if_pos rfl, hr]
      rfl
    refine ⟨_, h1, rfl, hret _ (fun c => absurd c hd) fun _ => ⟨rfl, rfl⟩, .inl x.state_final, ?_⟩
    exact (dropControl_still _ (.refl _)).light.unqueued (applyChange_unqueued i _ hu)

theorem retract_rec (hr : s.rec? i = some r) (hi : InPlace s i r) :
    ∃ r', (retract i x d s).rec? i = some r' ∧ r'.line = r.line ∧ Retracted r r' x d ∧ r'.Gone ∧
      InPlace (retract i x d s) i r' := by
  by_cases hg : r.Gone
  · have e : retract i x d s = s := by
      rw [retract, hr]
      exact if_pos hg
    rw [e]
    exact ⟨r, hr, rfl, (retracted_of_gone hg).2 ⟨rfl, rfl, rfl⟩, hg, hi⟩
  · obtain ⟨r1, h1, hl, hret, hg1, hu⟩ := takeBack_rec (x := x) (d := d) ((detachRec_rec i i s).trans hr) (detachRec_unqueued hr hi) hg
    have e : retract i x d s = if r.state = .sending then pick (s.linkOf r.line) (takeBack i r x d (detachRec i s))
        else takeBack i r x d (detachRec i s) := by
      rw [retract, hr]
      exact if_neg hg
    rw [e]
    split
    · obtain ⟨r', hr', hs, hi'⟩ := (pick_spares (A := fun _ => False) (s.linkOf r.line) (.refl _)).recs i r1 id h1 hu.inPlace
      exact ⟨r', hr', hs.line.trans hl, hret.stays hg1 hs, hs.gone hg1, hi'⟩
    · exact ⟨r1, h1, hl, hret, hg1, hu.inPlace⟩

theorem retractAlone_eq (hr : s.rec? i = some r) : retractAlone i x d s = reexamine r.line (retract i x d s) := by
  rw [retractAlone, hr]

theorem retractAlone_rec (hr : s.rec? i = some r) (hi : InPlace s i r) :
    ∃ r', (retractAlone i x d s).rec? i = some r' ∧ Retracted r r' x d ∧ r'.Gone ∧ InPlace (retractAlone i x d s) i r' := by
  obtain ⟨r1, h1, _, hret, hg, hi1⟩ := retract_rec (x := x) (d := d) hr hi
  rw [retractAlone_eq hr]
  obtain ⟨r', hr', hs, hi'⟩ := (reexamine_spares (A := fun _ => False) r.line (.refl _)).recs i r1 id h1 hi1
  exact ⟨r', hr', hret.stays hg hs, hs.gone hg, hi'⟩

/-- A retraction leaves the other records, and one that has ended or is being withdrawn. -/
theorem retractAlone_stays {j : Nat} (hj : j ≠ i ∨ r.Gone) (hr : s.rec? i = some r) (hi : InPlace s i r) :
    StaysAs true (retractAlone j x d s) i r := by
  by_cases e : j = i
  · subst e
    have hret : retract j x d s = s := by
      rw [retract, hr]
      exact if_pos (hj.resolve_left fun c => c rfl)
    rw [retractAlone_eq hr, hret]
    exact (reexamine_spares (A := fun _ => False) r.line (.refl s)).recs j r id hr hi
  · exact (retractAlone_spares (A := fun k => k = j) j x d rfl (.refl s)).recs i r (fun c => e c.symm) hr hi

theorem retractPage_stays {ids : List Nat} (hg : r.Gone) (hr : s.rec? i = some r) (hi : InPlace s i r) :
    StaysAs true (retractPage ids x d s) i r := by
  induction ids generalizing s r with
  | nil => exact ⟨r, hr, .refl r, hi⟩
  | cons j ids ih =>
    obtain ⟨r1, h1, hs, hi1⟩ := retractAlone_stays (j := j) (x := x) (d := d) (.inr hg) hr hi
    obtain ⟨r', hr', hs', hi'⟩ := ih (hs.gone hg) h1 hi1
    exact ⟨r', hr', hs.trans hs', hi'⟩

/-- The retraction of a page's records: each in its place comes out retracted. -/
theorem retractPage_rec {ids : List Nat} (hm : i ∈ ids) (hr : s.rec? i = some r) (hi : InPlace s i r) :
    ∃ r', (retractPage ids x d s).rec? i = some r' ∧ Retracted r r' x d := by
  induction ids generalizing s r with
  | nil => cases hm
  | cons j ids ih =>
    by_cases e : j = i
    · subst e
      obtain ⟨r1, h1, hret, hg, hi1⟩ := retractAlone_rec (x := x) (d := d) hr hi
      obtain ⟨r', hr', hs, _⟩ := retractPage_stays (ids := ids) (x := x) (d := d) hg h1 hi1
      exact ⟨r', hr', hret.stays hg hs⟩
    · obtain ⟨r1, h1, hs, hi1⟩ := retractAlone_stays (x := x) (d := d) (.inl e) hr hi
      obtain ⟨r', hr', hret⟩ := ih ((List.mem_cons.1 hm).resolve_left fun c => e c.symm) h1 hi1
      exact ⟨r', hr', hret.of_stays hs⟩

theorem retractPage_spares (ids : List Nat) (s : State) : Spares true (· ∈ ids) s (retractPage ids x d s) :=
  foldl_spares _ _ (fun _ j hj h => retractAlone_spares j x d hj h) (.refl s)

/-! ### Pages and verification -/

theorem page_modPage_self {n : Nat} {e : Page} (f : Page → Page) (h : s.page? n = some e) : (s.modPage n f).page? n = some (f e) := by
  refine (Table.get_modify s.pages n n f).trans ?_
  rw [if_pos rfl, show Table.get s.pages n = some e from h]
  rfl

theorem leaveVerify_gone (v : VerifyItem) (s : State) :
    (leaveVerify v s).verify.busy ≠ some v ∧ v ∉ (leaveVerify v s).verify.queue := by
  constructor
  · show (if s.verify.busy = some v then none else s.verify.busy) ≠ some v
    split
    · exact fun c => by cases c
    · assumption
  · intro c
    simpa using (List.mem_filter.1 c).2

/-- A page that retires: its entry, its verification, its records. -/
structure Retires (m : Nat) (p : Page) (why : RetireCause) (d : Detail) (s t : State) : Prop where
  page : t.page? m = some { p with state := .retiring, cause := some why }
  busy : t.verify.busy ≠ some (.page m)
  queue : VerifyItem.page m ∉ t.verify.queue
  recs : ∀ i ∈ p.dests, ∀ r, s.rec? i = some r → InPlace s i r → ∃ r', t.rec? i = some r' ∧ Retracted r r' .withdrawn d

theorem retirePage_retires {m : Nat} {p : Page} (hp : s.page? m = some p) (why : RetireCause) (d : Detail) :
    Retires m p why d s (retirePage m p why d s) := by
  have hv := leaveVerify_gone (.page m) (s.modPage m fun e => { e with state := .retiring, cause := some why })
  have hsp := retractPage_spares (x := .withdrawn) (d := d) p.dests
    (leaveVerify (.page m) (s.modPage m fun e => { e with state := .retiring, cause := some why }))
  refine ⟨?_, ?_, ?_, fun i hi r hr hin => retractPage_rec hi hr hin⟩
  · exact (hsp.page? m).trans (page_modPage_self _ hp)
  · exact hsp.verify ▸ hv.1
  · exact hsp.verify ▸ hv.2

/-- What a CONSIGN leaves that supersedes a page, as it is written to host memory. -/
theorem acceptConsign_retiring (a : U64) (w : ConsignBody) (n m : Nat) (p : Page) (s : State) :
    acceptConsign a w n (some (m, p)) s = writeTaken a ((s.free.take w.dests.length).foldl (fun s i => writeEntry i s)
      (joinVerify (.page n) (retirePage m p .superseded .superseded (consigned a w n s)))) := rfl

/-- A record not free is not one of a CONSIGN. -/
theorem consigned_old {a : U64} {w : ConsignBody} {n : Nat} (i : Nat) (hi : i ∉ s.free) : (consigned a w n s).rec? i = s.rec? i := by
  obtain ⟨ds, hcon⟩ := consigned_eq a w n s
  have hids := consignRecs_ids n a w (s.free.take w.dests.length) (by simp)
  rw [hcon]
  exact Table.get_foldl_put_ne _ s.recs (hids.symm ▸ fun c => hi (List.mem_of_mem_take c))

/-! ### Faults of a page -/

/-- A page that faults: its entry, FAULT, its records. -/
structure Faults (n : Nat) (p : Page) (why : SourceFault) (s t : State) : Prop where
  page : t.page? n = some { p with state := .retiring, cause := some (.faulted why) }
  raised : Raised t .fault
  recs : ∀ i ∈ p.dests, ∀ r, s.rec? i = some r → InPlace s i r → ∃ r', t.rec? i = some r' ∧ Retracted r r' .failed why.detail

theorem faultPage_faults {n : Nat} {p : Page} (hp : s.page? n = some p) (why : SourceFault) : Faults n p why s (faultPage n why s) := by
  have e : faultPage n why s = raise .fault (retractPage p.dests .failed why.detail
      (s.modPage n fun e => { e with state := .retiring, cause := some (.faulted why) })) := by
    rw [faultPage, hp]
  have hsp := retractPage_spares (x := .failed) (d := why.detail) p.dests
    (s.modPage n fun e => { e with state := .retiring, cause := some (.faulted why) })
  rw [e]
  have hstill := fun t => raise_still .fault (.refl t)
  refine ⟨?_, Raised.raise _ _, fun i hi r hr hin => ?_⟩
  · rw [show ∀ t : State, (raise .fault t).page? n = t.page? n from fun t => (hstill t).page? n, hsp.page? n]
    exact page_modPage_self _ hp
  · rw [(hstill _).rec?]
    exact retractPage_rec hi hr hin

theorem faultPage_verify (n : Nat) (why : SourceFault) (s : State) : (faultPage n why s).verify = s.verify := by
  unfold faultPage
  split
  · rfl
  · exact (raise_still _ (.refl _)).verify.trans (retractPage_spares _ _).verify

/-- The state in which the outcome of a pass that read its last byte is made. -/
def passCounted (s : State) : State := bumpCounter .verifyPasses (s.modVerify fun v => { v with busy := none })

theorem passEnd_page {n : Nat} (bytes : List Byte) (hb : s.verify.busy = some (.page n)) :
    passEnd bytes s = pageEndCheck n (pagePassEnd n (crc32 bytes) (passCounted s)) := by
  rw [passEnd, hb]
  rfl

theorem passCounted_still (s : State) : Still (s.modVerify fun v => { v with busy := none }) (passCounted s) :=
  bumpCounter_still _ (.refl _)

theorem passCounted_inPlace (h : InPlace s i r) : InPlace (passCounted s) i r := by
  have hs := passCounted_still s
  intro l c
  rw [(hs.links l).queue] at c
  rw [hs.linkOf]
  exact h l c

theorem pagePassEnd_bad {n : Nat} {p : Page} {crc : U32} (hp : s.page? n = some p) (hc : ¬ (p.statedCrc = none ∨ p.statedCrc = some crc)) :
    pagePassEnd n crc s = faultPage n .mismatch (s.modPage n fun e => { e with computedCrc := some crc }) := by
  rw [pagePassEnd, hp]
  exact if_neg hc

end Sys2Proof.Machine

namespace Sys2Proof.Pages

open Sys2Proof Sys2Proof.Machine

/-- Settles O32: retirePage does it, from the state with the new page's records in use or from the state of the WITHDRAW. -/
theorem pageRetires : Obligations.PageRetires := by
  unfold Obligations.PageRetires
  intro s a m p hp hown
  refine ⟨fun w n hc hk => ?_, fun w hk hkey hv => ?_⟩
  · refine ⟨_, exec_consign_accepted hc (hk ▸ hown), ?_⟩
    have hn : s.page? n = none := (consignCheck_inr hc).page
    have hmn : m ≠ n := fun e => by rw [← e, hp] at hn; cases hn
    rw [acceptConsign_retiring]
    obtain ⟨ds, hcon⟩ := consigned_eq a w n (markTaken a s)
    have hrec : ∀ i, i ∉ s.free → (consigned a w n (markTaken a s)).rec? i = s.rec? i :=
      consigned_old (s := markTaken a s)
    generalize consigned a w n (markTaken a s) = c at hcon hrec ⊢
    have hcp : c.page? m = some p := by
      rw [hcon]
      exact (Table.get_put_ne s.pages _ hmn).trans hp
    have hcl : ∀ i r, InPlace s i r → InPlace c i r := by
      rw [hcon]
      exact fun _ _ h => h
    have h := retirePage_retires hcp .superseded .superseded
    generalize retirePage m p .superseded .superseded c = t at h ⊢
    have hq : Writes (joinVerify (.page n) t) _ := foldl_writeEntry_writes (s.free.take w.dests.length) (joinVerify (.page n) t)
    rw [show (markTaken a s).free = s.free from rfl]
    generalize (s.free.take w.dests.length).foldl (fun s i => writeEntry i s) (joinVerify (.page n) t) = v at hq ⊢
    obtain ⟨b, rfl⟩ := hq
    refine ⟨h.page, h.busy, fun c => ?_, fun i hi hfree r hr hin => h.recs i hi r ((hrec i hfree).trans hr) (hcl i r hin), rfl⟩
    obtain c | c := List.mem_append.1 c
    · exact h.queue c
    · exact hmn (VerifyItem.page.inj (List.mem_singleton.1 c))
  · have e : takeWithdraw a w (markTaken a s) = finalDisposition a .done 0 (retirePage m p .withdrawn .byOrder (markTaken a s)) := by
      have hown' : keyOwner (markTaken a s) w.key = some (m, p) := hkey ▸ hown
      rw [takeWithdraw, keyOk_iff.2 hk, if_neg (by decide), hown']
      exact if_neg fun c => hv.elim c.1 c.2
    refine ⟨_, (congrArg (fun t => Host.Outcome.next (afterTake t)) e : exec (.withdraw a w) s = _), ?_⟩
    have h := retirePage_retires (s := markTaken a s) hp .withdrawn .byOrder
    have hcalm := retirePage_calm (q := false) m p .withdrawn .byOrder (.refl (markTaken a s))
    generalize retirePage m p .withdrawn .byOrder (markTaken a s) = t at h hcalm ⊢
    have hf : Still t (finalDisposition a .done 0 t) := finalDisposition_still _ _ _ (.refl t)
    exact ⟨(hf.page? m).trans h.page, hf.verify ▸ h.busy, hf.verify ▸ h.queue, fun i hi r hr hin => by
      rw [hf.rec?]; exact h.recs i hi r hr hin,
      (finalDisposition_finished a .done 0 t).before hcalm.bus hcalm.orderKeeps.completions⟩

/-- Settles O38: faultPage does it, in the pass and while a record is sent. -/
theorem pageFaults : Obligations.PageFaults := by
  unfold Obligations.PageFaults
  intro s n p hp
  refine ⟨fun bytes x hb hx hne => ?_, fun hb => ?_, fun i r hr hpar => ⟨fun hst => ?_, fun hst => ?_⟩⟩
  · have hstill := passCounted_still s
    have hp' : (passCounted s).page? n = some p := (hstill.page? n).trans hp
    have hc : ¬ (p.statedCrc = none ∨ p.statedCrc = some (crc32 bytes)) := by
      rw [hx]
      exact fun c => c.elim nofun fun c => hne (Option.some.inj c)
    have e := (passEnd_page bytes hb).trans (congrArg _ (pagePassEnd_bad hp' hc))
    refine ⟨_, congrArg (fun t => Host.Outcome.next (startVerify t)) e, ?_, ?_⟩
    · rw [faultPage_verify]
      exact congrArg VerifyEngine.busy hstill.verify
    · have h := faultPage_faults (page_modPage_self (fun e => { e with computedCrc := some (crc32 bytes) }) hp') .mismatch
      exact ⟨h.page, h.raised, fun i hi r hr hin => h.recs i hi r ((hstill.rec? i).trans hr) (passCounted_inPlace hin)⟩
  · have e : passReadError s = pageEndCheck n (faultPage n .read (s.modVerify fun v => { v with busy := none })) := by
      rw [passReadError, hb]
    refine ⟨_, congrArg (fun t => Host.Outcome.next (startVerify t)) e, ?_, ?_⟩
    · rw [faultPage_verify]
      rfl
    · have h := faultPage_faults (s := s.modVerify fun v => { v with busy := none }) hp .read
      exact ⟨h.page, h.raised, h.recs⟩
  · have e : pageReadError i.val s = pageEndCheck n (faultPage n .read s) := by
      rw [pageReadError, hr]
      dsimp only
      rw [hpar, hp]
      dsimp only
      rw [hst]
    have h := faultPage_faults hp .read
    exact ⟨_, congrArg Host.Outcome.next e, h.page, h.raised, h.recs⟩
  · have e : pageReadError i.val s = raise .fault s := by
      rw [pageReadError, hr]
      dsimp only
      rw [hpar, hp]
      dsimp only
      rw [hst]
    exact ⟨_, congrArg Host.Outcome.next e, Raised.raise _ _, (raise_outward _ s).eq⟩

end Sys2Proof.Pages
end

section
/-! A good pass of a page (O37): its records in VERIFY_WAIT are placed (R25), and a record placed stays so while the others are. -/

namespace Sys2Proof.Machine

variable {p : Bool} {b s t u : State} {i : Nat} {r r' q : DestRec} {g : U16}

/-! ### Records placed -/

/-- The table of R25 is read from a line's held generation and catalog. -/
theorem PlacedBy.of_line (hl : LineStays (s.line r'.line) (t.line r'.line)) (h : PlacedBy t g r') : PlacedBy s g r' := by
  unfold PlacedBy Line.entry at *
  rwa [hl.held, hl.catalog] at h

/-- What placing does to a record, by the place found for it. -/
def Placed (pl : Placement) (r' : DestRec) : Prop :=
  match pl with
  | .queued => r'.state = .queued ∨ r'.state = .sending
  | .targetWait => r'.state = .targetWait
  | .ended x d => r'.state = x.state ∧ r'.detail = d

theorem Placed.by_table (hl : r'.line = r.line) (h : Placed (placement s r) r') : PlacedBy s (s.recGen r) r' := by
  unfold PlacedBy
  rw [hl]
  unfold placement at h
  dsimp only at h
  split at h
  · next c => rw [if_pos c]; exact h
  · next c =>
    rw [if_neg c]
    split at h
    · next e he =>
      rw [he]
      dsimp only
      split at h
      · next hf => rw [if_pos hf]; exact h
      · next hf => rw [if_neg hf]; exact h
    · next he => rw [he]; exact h

theorem Placed.not_verifying {pl : Placement} (h : Placed pl r') : r'.state ≠ .verifyWait := by
  intro c
  cases pl with
  | queued => obtain h | h := h <;> rw [h] at c <;> cases c
  | targetWait => rw [h] at c; cases c
  | ended x d => rw [h.1] at c; cases x <;> cases c

/-- A record placed and left alone is placed still: where it was QUEUED it may have been picked. -/
theorem Placed.stays {pl : Placement} (h : Placed pl r') (k : RecStays true r' q) : Placed pl q := by
  have same : r'.state ≠ .queued → q.state = r'.state := k.state_of_ne
  cases pl with
  | queued =>
    obtain c | c := k.state
    · exact (congrArg (fun st => st = DestState.queued ∨ st = .sending) c).mpr h
    · exact Or.inr c.2.2
  | targetWait =>
    have h : r'.state = .targetWait := h
    exact (same (by rw [h]; decide)).trans h
  | ended x d => exact ⟨(same (by rw [h.1]; cases x <;> decide)).trans h.1, k.detail.trans h.2⟩

/-! ### Placing (R25) -/

theorem updateL_stays (n : Nat) (hr : s.rec? i = some r) (hi : InPlace s i r) : StaysAs false (updateL n s) i r :=
  (updateL_spares (A := fun _ => False) n (.refl s)).recs i r id hr hi

/-- A record that stays through one change and then through another. -/
theorem StaysAs.spared (h : StaysAs p t i r) (k : Spares p (fun _ => False) t u) : StaysAs p u i r := by
  obtain ⟨r1, h1, hs, hi⟩ := h
  obtain ⟨r2, h2, hs', hi'⟩ := k.recs i r1 id h1 hi
  exact ⟨r2, h2, hs.trans hs', hi'⟩

theorem insertByKey_inPlace (hi : InPlace s i r) (hq : r.state = .queued) :
    InPlace (s.modLink (s.linkOf r.line) fun k => { k with queue := insertByKey s (.dest i) k.queue }) i r := by
  intro m c
  rw [State.link_modLink] at c
  split at c
  · next e => exact ⟨hq, e⟩
  · exact hi m c

/-- A QUEUED record joins the queue of its line's link, its place. -/
theorem joinQueue_stays (hr : s.rec? i = some r) (hi : InPlace s i r) (hq : r.state = .queued) :
    StaysAs false (joinQueue (s.linkOf r.line) (.dest i) s) i r := by
  have hspare : Spares false (fun _ => False) s ((setSeq (.dest i) (roomForSeq s).seqNext (roomForSeq s)).setSeq
      ((roomForSeq s).seqNext + 1)) := setSeqNext_spares _ (setSeq_spares _ _ (roomForSeq_spares (.refl s)))
  unfold joinQueue
  dsimp only
  generalize (setSeq (.dest i) (roomForSeq s).seqNext (roomForSeq s)).setSeq ((roomForSeq s).seqNext + 1) = t at hspare ⊢
  obtain ⟨r1, h1, hs, hi1⟩ := hspare.recs i r id hr hi
  have hq1 : r1.state = .queued := (hs.state.resolve_right fun c => Bool.noConfusion c.1).trans hq
  have hin := insertByKey_inPlace hi1 hq1
  rw [hs.line, hspare.linkOf] at hin
  have hstay : StaysAs false (t.modLink (s.linkOf r.line) fun k => { k with queue := insertByKey t (.dest i) k.queue }) i r :=
    ⟨r1, h1, hs, hin⟩
  exact hstay.spared ((schedMirror_still _ (.refl _)).sparing
    (ite_spares (fun _ => (bumpCounter_still _ (.refl _)).spares) fun _ => .refl _))

/-- A record of no queue is placed by the table, and stands in no queue but its line's link's. -/
theorem placeRaw_rec (hr : s.rec? i = some r) (hu : Unqueued s i) (hg : ¬ r.Gone) (hd : r.siteHasData = false) :
    ∃ r', (placeRaw i s).rec? i = some r' ∧ r'.line = r.line ∧ Placed (placement s r) r' ∧ InPlace (placeRaw i s) i r' := by
  have moved : ∀ st, ∃ r1, (updateL i (s.modRec i fun q => { q with state := st, timer := .stopped })).rec? i = some r1 ∧
      r1.line = r.line ∧ r1.state = st ∧ InPlace (updateL i (s.modRec i fun q => { q with state := st, timer := .stopped })) i r1 := by
    intro st
    obtain ⟨r1, h1, hs, hi⟩ := updateL_stays (s := s.modRec i fun q => { q with state := st, timer := .stopped }) i
      (rec_modRec_self _ hr) (Unqueued.inPlace hu)
    exact ⟨r1, h1, hs.line, hs.state.resolve_right fun c => Bool.noConfusion c.1, hi⟩
  unfold placeRaw
  rw [hr]
  dsimp only
  split
  · next e =>
    obtain ⟨r1, h1, hl, hst, hi1⟩ := moved .queued
    have hlink := (updateL_spares (p := true) (A := fun _ => True) i (modRec_spares i
      (fun q => { q with state := .queued, timer := .stopped }) (.inl trivial) (.refl s))).linkOf r.line
    generalize updateL i (s.modRec i fun q => { q with state := .queued, timer := .stopped }) = t at h1 hi1 hlink ⊢
    have hj := joinQueue_stays h1 hi1 hst
    rw [hl, hlink] at hj
    obtain ⟨r2, h2, hs2, hi2⟩ := hj.spared (applyChange_spares i id (.inr .refl) (.refl _))
    obtain ⟨r', hr', hs, hi⟩ := (pick_spares (A := fun _ => False) (s.linkOf r.line) (.refl _)).recs i r2 id h2 hi2
    have hst2 : r2.state = r1.state := hs2.state.resolve_right fun c => Bool.noConfusion c.1
    have hp2 : Placed .queued r2 := Or.inl (hst2.trans hst)
    exact ⟨r', hr', hs.line.trans (hs2.line.trans hl), e ▸ hp2.stays hs, hi⟩
  · next e =>
    obtain ⟨r1, h1, hl, hst, hi1⟩ := moved .targetWait
    obtain ⟨r', hr', hs, hi⟩ := (applyChange_spares (p := false) (A := fun _ => False) i id (.inr .refl) (.refl _)).recs i r1 id h1 hi1
    refine ⟨r', hr', hs.line.trans hl, ?_, hi⟩
    rw [e]
    exact (hs.state_of_ne (by rw [hst]; decide)).trans hst
  · next x d e =>
    obtain ⟨r', hr', hl, hret, _, hi⟩ := retract_rec (x := x) (d := d) hr hu.inPlace
    rw [retracted_of_live hg, if_neg (by rw [hd]; decide)] at hret
    exact ⟨r', hr', hl, e ▸ hret, hi⟩

/-- Placing a record in VERIFY_WAIT. -/
theorem place_rec (hr : s.rec? i = some r) (hu : Unqueued s i) (hg : ¬ r.Gone) (hd : r.siteHasData = false) :
    ∃ r', (place i s).rec? i = some r' ∧ r'.line = r.line ∧ Placed (placement s r) r' ∧ InPlace (place i s) i r' := by
  obtain ⟨r1, h1, hl, hp, hi⟩ := placeRaw_rec hr hu hg hd
  rw [place, hr]
  dsimp only
  obtain ⟨r', hr', hs, hi'⟩ := (reexamine_spares (A := fun _ => False) r.line (.refl _)).recs i r1 id h1 hi
  exact ⟨r', hr', hs.line.trans hl, hp.stays hs, hi'⟩

/-- What a good pass does with one of the page's records. -/
def placeVerified (s : State) (i : Nat) : State :=
  match s.rec? i with
  | some r => if r.state = .verifyWait then place i s else s
  | none => s

theorem placeVerified_waiting (hr : s.rec? i = some r) (hw : r.state = .verifyWait) : placeVerified s i = place i s := by
  rw [placeVerified, hr]
  exact if_pos hw

theorem placeVerified_other (hr : s.rec? i = some r) (hw : r.state ≠ .verifyWait) : placeVerified s i = s := by
  rw [placeVerified, hr]
  exact if_neg hw

theorem placeVerified_spares {A : Nat → Prop} (j : Nat) (ha : A j) (h : Spares true A b s) : Spares true A b (placeVerified s j) := by
  unfold placeVerified
  split
  · exact ite_spares (fun _ => place_spares j ha h) fun _ => h
  · exact h

/-- Placing another record leaves a record, and so does the second placing of one. -/
theorem placeVerified_stays {j : Nat} (hj : j ≠ i ∨ r.state ≠ .verifyWait) (hr : s.rec? i = some r) (hi : InPlace s i r) :
    StaysAs true (placeVerified s j) i r := by
  by_cases e : j = i
  · subst e
    rw [placeVerified_other hr (hj.resolve_left fun c => c rfl)]
    exact ⟨r, hr, .refl r, hi⟩
  · exact (placeVerified_spares (A := fun k => k = j) j rfl (.refl s)).recs i r (fun c => e c.symm) hr hi

theorem foldl_placeVerified_placed {pl : Placement} (ids : List Nat) (hp : Placed pl r) (hr : s.rec? i = some r) (hi : InPlace s i r) :
    ∃ r', (ids.foldl placeVerified s).rec? i = some r' ∧ r'.line = r.line ∧ Placed pl r' := by
  induction ids generalizing s r with
  | nil => exact ⟨r, hr, rfl, hp⟩
  | cons j ids ih =>
    obtain ⟨r1, h1, hs, hi1⟩ := placeVerified_stays (j := j) (.inr hp.not_verifying) hr hi
    obtain ⟨r', hr', hl, hp'⟩ := ih (hp.stays hs) h1 hi1
    exact ⟨r', hr', hl.trans hs.line, hp'⟩

/-- The records of a page that wait for its pass are placed as the table says of the state before. -/
theorem foldl_placeVerified_rec {s0 : State} {ids : List Nat} (hm : i ∈ ids) (h0 : Spares true (fun _ => True) s0 s)
    (hr : s.rec? i = some r) (hu : Unqueued s i) (hw : r.state = .verifyWait) (hd : r.siteHasData = false) :
    ∃ r', (ids.foldl placeVerified s).rec? i = some r' ∧ r'.line = r.line ∧ Placed (placement s0 r) r' := by
  have hg : ¬ r.Gone := fun c => by
    unfold DestRec.Gone at c
    rw [hw] at c
    exact c.elim nofun nofun
  induction ids generalizing s r with
  | nil => cases hm
  | cons j ids ih =>
    rw [List.foldl_cons]
    by_cases e : j = i
    · subst e
      obtain ⟨r1, h1, hl, hp, hi⟩ := place_rec hr hu hg hd
      rw [placeVerified_waiting hr hw]
      obtain ⟨r', hr', hl', hp'⟩ := foldl_placeVerified_placed ids hp h1 hi
      exact ⟨r', hr', hl'.trans hl, h0.placement rfl rfl ▸ hp'⟩
    · obtain ⟨r1, h1, hs, hi⟩ := placeVerified_stays (.inl e) hr hu.inPlace
      have hw1 : r1.state = .verifyWait := (hs.state_of_ne (by rw [hw]; decide)).trans hw
      obtain ⟨r', hr', hl, hp⟩ := ih ((List.mem_cons.1 hm).resolve_left fun c => e c.symm)
        (placeVerified_spares j trivial h0) h1 (hi.unqueued (by rw [hw1]; decide)) hw1 (hs.siteHasData.trans hd)
        fun c => hg (hs.gone_iff.1 c)
      have hpl : placement s0 r1 = placement s0 r := (Spares.refl (p := true) (A := fun _ => True) s0).placement hs.parent hs.line
      exact ⟨r', hr', hl.trans hs.line, hpl ▸ hp⟩

/-! ### The pass -/

theorem pagePassEnd_good {n : Nat} {p : Page} {crc : U32} (hp : s.page? n = some p) (hc : p.statedCrc = none ∨ p.statedCrc = some crc) :
    pagePassEnd n crc s = p.dests.foldl placeVerified
      ((s.modPage n fun e => { e with computedCrc := some crc }).modPage n fun e => { e with state := .active }) := by
  rw [pagePassEnd, hp]
  exact if_pos hc

theorem satInc_below {c : U32} (h : c.toNat < 4294967295) : satInc c = c + 1 := by
  unfold satInc satAdd
  apply BitVec.eq_of_toNat_eq
  rw [BitVec.toNat_ofNat, BitVec.toNat_add]
  show min (c.toNat + 1) 4294967295 % 2 ^ 32 = (c.toNat + 1) % 2 ^ 32
  rw [Nat.min_eq_left h]

theorem bumpCounter_issued {c : DeskCounter} (hc : s.counters.bump c ≠ s.counters) (hb : s.order.deskBase ≠ 0) :
    Issued s (bumpCounter c s) (.write (s.order.deskBase + 0xA00) (countersBytes (s.counters.bump c))) := by
  have e : bumpCounter c s = hostWrite (s.order.deskBase + 0xA00) (countersBytes (s.counters.bump c))
      (s.setCounters (s.counters.bump c)) := by
    rw [bumpCounter, if_neg hc]
    exact if_neg hb
  rw [e]
  exact ⟨[], [], rfl⟩

theorem bump_verifyPasses {c : DeskCounters} (h : c.verifyPasses.toNat < 4294967295) :
    c.bump .verifyPasses = { c with verifyPasses := c.verifyPasses + 1 } := by
  rw [DeskCounters.bump, satInc_below h]

theorem bump_verifyPasses_ne {c : DeskCounters} (h : c.verifyPasses.toNat < 4294967295) : c.bump .verifyPasses ≠ c := by
  intro e
  have hv : satInc c.verifyPasses = c.verifyPasses := congrArg DeskCounters.verifyPasses e
  rw [satInc_below h] at hv
  bv_omega

/-- The pass is counted, and the counters area goes out with it (R172). -/
theorem passCounted_issued (hb : s.order.deskBase ≠ 0) (hc : s.counters.verifyPasses.toNat < 4294967295) :
    Issued s (passCounted s) (.write (s.order.deskBase + 0xA00)
      (countersBytes { s.counters with verifyPasses := s.counters.verifyPasses + 1 })) := by
  have h := bumpCounter_issued (s := s.modVerify fun v => { v with busy := none }) (bump_verifyPasses_ne hc) hb
  rw [← bump_verifyPasses hc]
  exact h

end Sys2Proof.Machine

namespace Sys2Proof.Pages

open Sys2Proof Sys2Proof.Machine

/-- Settles O37: the pass is counted, the page becomes ACTIVE, and each record that waits is placed. -/
theorem goodPass : Obligations.GoodPass := by
  unfold Obligations.GoodPass
  intro s n p bytes hb hp hc
  have hstill := passCounted_still s
  have hp1 : (passCounted s).page? n = some p := (hstill.page? n).trans hp
  have e := (passEnd_page bytes hb).trans (congrArg (pageEndCheck n) (pagePassEnd_good hp1 hc))
  have hcalm := pagePassEnd_calm (q := false) n (crc32 bytes) (.refl (passCounted s))
  rw [pagePassEnd_good hp1 hc] at hcalm
  let t := ((passCounted s).modPage n fun e => { e with computedCrc := some (crc32 bytes) }).modPage n fun e => { e with state := .active }
  have ht : t.page? n = some { p with state := .active, computedCrc := some (crc32 bytes) } :=
    page_modPage_self _ (page_modPage_self _ hp1)
  have hsp : Spares true (fun _ => True) t (p.dests.foldl placeVerified t) :=
    foldl_spares _ _ (fun _ j _ h => placeVerified_spares j trivial h) (.refl t)
  refine ⟨_, congrArg (fun t => Host.Outcome.next (startVerify t)) e, (hsp.page? n).trans ht, ?_, fun i hi r hr hw hpar hd hu => ?_,
    fun hb hc => (passCounted_issued hb hc).calm hcalm⟩
  · exact hsp.verify.trans hstill.verify
  · have hrt : t.rec? i = some r := (hstill.rec? i).trans hr
    have hut : Unqueued t i := fun l => by
      show Xfer.dest i ∉ ((passCounted s).link l).queue
      rw [(hstill.links l).queue]
      exact hu l
    obtain ⟨r', hr', hl, hpl⟩ := foldl_placeVerified_rec hi (.refl t) hrt hut hw hd
    have hgen : t.recGen r = p.generation := by
      unfold State.recGen
      rw [hpar, ht]
    have hline : t.line r'.line = s.line r'.line := hstill.line _
    have := hpl.by_table hl
    rw [hgen] at this
    exact ⟨r', hr', hl, this.of_line (hline ▸ .refl _)⟩

end Sys2Proof.Pages
end

section
/-! Aimed runs: what the scheduler, the slots and the pool do, as a chain of single acts, each of which says what it may touch. From
the chain one reads what any run leaves exactly as it was: the transfers and press lines it is not aimed at, the control
frames that wait, the deadline entries of other records (R24, R69, R74 to R78, R92, R143). -/

namespace Sys2Proof.Machine

/-! ### Acts -/

/-- What a run is aimed at: the transfers that it may change of itself, the press lines whose own fields it may change, the lines
whose slot's keys it may compute anew, whether it may renumber, whether it may offer control frames or take them out. -/
structure Aim where
  xfer   : Xfer → Prop
  line   : LineId → Prop := fun _ => True
  keys   : LineId → Prop := fun _ => True
  reseq  : Prop := True
  frames : Prop := True

/-- The control frames that a run may replace or take out of a list. -/
def Aim.drops (a : Aim) : CtlFrame → Prop
  | .release i _ _ _ => a.xfer (.dest i)
  | .withdraw i _ _ _ => a.xfer (.dest i)
  | .targetWithdraw n _ => a.line n
  | .query n => a.line n
  | .roll => True
  | .mark _ _ => True

/-- What an act leaves of a link. -/
structure LinkAct (a : Aim) (s : State) (k k' : Link) : Prop where
  state : k'.state = k.state
  counters : k'.counters = k.counters
  queue : ∀ x ∈ k'.queue, x ∈ k.queue ∨ a.xfer x
  sending : k'.sending = k.sending ∨ k'.sending = none
  wire : ∀ w, k.wire = some w → ∃ w', k'.wire = some w' ∧ (w.role = .control → w' = w)
  offered : ∀ c ∈ k.control, a.drops c ∨ c ∈ k'.control ∨ k'.wire = some ⟨ctlFrame s c, .control⟩
  control : k.wire ≠ none → ¬ a.frames → k'.control = k.control

/-- A change of a record aimed at leaves it its line, its page and its deadline. -/
structure DestAct (f : DestRec → DestRec) : Prop where
  line : ∀ r, (f r).line = r.line
  parent : ∀ r, (f r).parent = r.parent
  deadline : ∀ r, (f r).deadline = r.deadline

/-- A change of a line's own fields leaves its configuration and its slot. -/
structure LineAct (k k' : Line) : Prop where
  enabled : k'.enabled = k.enabled
  cfg : k'.cfg = k.cfg
  slot : k'.slot = k.slot

/-- One act. -/
inductive Act (a : Aim) (s : State) : State → Prop
  | emit (w : BusWrite) : Act a s (s.emit w)
  | order (f : OrderUnit → OrderUnit) : Act a s (s.modOrder f)
  | late : Act a s (s.setCounters (s.counters.bump .predictedLates))
  | next (n : Nat) : Act a s (s.setSeq n)
  | due (d : List DeadlineEntry)
      (h : ∀ i, ¬ a.xfer (.dest i) → d.filter (fun e => e.dest == i) = s.deadlines.filter fun e => e.dest == i) :
      Act a s (s.setDeadlines d)
  | link (l : LinkId) (f : Link → Link) (h : LinkAct a s (s.link l) (f (s.link l))) : Act a s (s.modLink l f)
  | seq (x : Xfer) (q : Nat) (h : a.xfer x ∨ a.reseq ∧ ∃ l, StandsOn s l x) : Act a s (setSeq x q s)
  | dest (n : Nat) (f : DestRec → DestRec) (ha : a.xfer (.dest n)) (hf : DestAct f) : Act a s (s.modRec n f)
  | line (n : LineId) (f : Line → Line) (ha : a.line n) (hf : LineAct (s.line n) (f (s.line n))) : Act a s (s.modLine n f)
  | slot (n : LineId) (f : Slot → Slot) (ha : a.xfer (.slot n)) : Act a s (s.modSlot n f)
  | keys (n : LineId) (l : Nat) (u : Bool) (ha : a.keys n) :
      Act a s (s.modSlot n fun sl => { sl with latestStart := l, urgent := u })
  | load (n : LineId) (sl : Slot) (h : (s.line n).slot = none) : Act a s (s.modLine n fun k => { k with slot := some sl })
  | pick (l : LinkId) (x : Xfer) (hu : (s.link l).state = .up) (hq : x ∈ (s.link l).queue) (hr : xferReady s x = true) :
      Act a s (markSending x (takePicked l x s))

/-- Any number of acts with one aim. -/
abbrev Acts (a : Aim) : State → State → Prop := Relation.ReflTransGen fun s t => Act a s t

variable {a : Aim} {b s t u : State}

theorem Acts.refl (s : State) : Acts a s s := Relation.ReflTransGen.refl

theorem Acts.step (h : Acts a b s) (p : Act a s t) : Acts a b t := Relation.ReflTransGen.tail h p

theorem Acts.trans (h : Acts a s t) (k : Acts a t u) : Acts a s u := Relation.ReflTransGen.trans h k

/-! ### What every run leaves -/

/-- What a run leaves whatever it is aimed at, and of the lines it is not aimed at. -/
structure ActFrame (a : Aim) (s t : State) : Prop where
  clock : t.clock = s.clock
  pages : t.pages = s.pages
  verify : t.verify = s.verify
  free : t.free = s.free
  counters : ∃ v, s.counters.predictedLates.toNat ≤ v.toNat ∧ t.counters = { s.counters with predictedLates := v }
  setup : ∀ n, (t.line n).enabled = (s.line n).enabled ∧ (t.line n).cfg = (s.line n).cfg
  line : ∀ n, ¬ a.line n → t.line n = { s.line n with slot := (t.line n).slot }
  slot : ∀ n, (t.line n).slot = none → (s.line n).slot = none
  link : ∀ l, (t.link l).state = (s.link l).state ∧ (t.link l).counters = (s.link l).counters
  queue : ∀ l, ∀ x ∈ (t.link l).queue, x ∈ (s.link l).queue ∨ a.xfer x
  unused : ∀ i, s.rec? i = none → t.rec? i = none
  used : ∀ i r, s.rec? i = some r → ∃ r', t.rec? i = some r' ∧ r'.line = r.line ∧ r'.parent = r.parent ∧ r'.deadline = r.deadline
  due : ∀ i, ¬ a.xfer (.dest i) → t.deadlines.filter (fun e => e.dest == i) = s.deadlines.filter fun e => e.dest == i

theorem ActFrame.refl (s : State) : ActFrame a s s :=
  ⟨rfl, rfl, rfl, rfl, ⟨_, le_rfl, rfl⟩, fun _ => ⟨rfl, rfl⟩, fun _ _ => rfl, fun _ h => h, fun _ => ⟨rfl, rfl⟩,
    fun _ _ h => .inl h, fun _ h => h, fun _ r h => ⟨r, h, rfl, rfl, rfl⟩, fun _ _ => rfl⟩

theorem ActFrame.trans (h : ActFrame a s t) (k : ActFrame a t u) : ActFrame a s u where
  clock := k.clock.trans h.clock
  pages := k.pages.trans h.pages
  verify := k.verify.trans h.verify
  free := k.free.trans h.free
  counters := by
    obtain ⟨v, hv, ht⟩ := h.counters
    obtain ⟨w, hw, hu⟩ := k.counters
    rw [ht] at hw hu
    exact ⟨w, hv.trans hw, hu⟩
  setup n := ⟨(k.setup n).1.trans (h.setup n).1, (k.setup n).2.trans (h.setup n).2⟩
  line n hn := by rw [k.line n hn, h.line n hn]
  slot n e := h.slot n (k.slot n e)
  link l := ⟨(k.link l).1.trans (h.link l).1, (k.link l).2.trans (h.link l).2⟩
  queue l x hx := (k.queue l x hx).elim (h.queue l x) .inr
  unused i e := k.unused i (h.unused i e)
  used i r hr := by
    obtain ⟨r1, h1, hl, hp, hd⟩ := h.used i r hr
    obtain ⟨r2, h2, hl', hp', hd'⟩ := k.used i r1 h1
    exact ⟨r2, h2, hl'.trans hl, hp'.trans hp, hd'.trans hd⟩
  due i hi := (k.due i hi).trans (h.due i hi)

/-- Records aside, the state stands as it did. -/
theorem ActFrame.of_recs (h : t = { s with recs := t.recs }) (hn : ∀ i, s.rec? i = none → t.rec? i = none)
    (hs : ∀ i r, s.rec? i = some r → ∃ r', t.rec? i = some r' ∧ r'.line = r.line ∧ r'.parent = r.parent ∧ r'.deadline = r.deadline) :
    ActFrame a s t := by
  have hline : ∀ n, t.line n = s.line n := fun n => by rw [h]; rfl
  have hlink : ∀ l, t.link l = s.link l := fun n => by rw [h]; rfl
  refine ⟨by rw [h], by rw [h], by rw [h], by rw [h], ⟨_, le_rfl, by rw [h]⟩, fun n => by rw [hline]; exact ⟨rfl, rfl⟩,
    fun n _ => by rw [hline], fun n e => hline n ▸ e, fun l => by rw [hlink]; exact ⟨rfl, rfl⟩,
    fun l x hx => .inl (hlink l ▸ hx), hn, hs, fun _ _ => by rw [h]⟩

theorem modRec_actFrame (n : Nat) {f : DestRec → DestRec} (hf : DestAct f) (s : State) : ActFrame a s (s.modRec n f) := by
  refine .of_recs rfl (fun i hi => ?_) fun i r hi => ?_
  · rw [rec_modRec]
    split
    · next e => rw [← e, hi]; rfl
    · exact hi
  · rw [rec_modRec]
    split
    · next e => rw [← e, hi]; exact ⟨f r, rfl, hf.line r, hf.parent r, hf.deadline r⟩
    · exact ⟨r, hi, rfl, rfl, rfl⟩

/-- Lines aside, the state stands as it did. -/
theorem modLine_actFrame {n : LineId} {f : Line → Line} (he : (f (s.line n)).enabled = (s.line n).enabled)
    (hc : (f (s.line n)).cfg = (s.line n).cfg) (hl : ¬ a.line n → f (s.line n) = { s.line n with slot := (f (s.line n)).slot })
    (hs : (f (s.line n)).slot = none → (s.line n).slot = none) : ActFrame a s (s.modLine n f) := by
  have hline := fun m => State.line_modLine s n m f
  refine ⟨rfl, rfl, rfl, rfl, ⟨_, le_rfl, rfl⟩, fun m => ?_, fun m hm => ?_, fun m e => ?_, fun _ => ⟨rfl, rfl⟩, fun _ _ hx => .inl hx,
    fun _ hi => hi, fun _ r hr => ⟨r, hr, rfl, rfl, rfl⟩, fun _ _ => rfl⟩
  · rw [hline]
    split
    · next e => subst e; exact ⟨he, hc⟩
    · exact ⟨rfl, rfl⟩
  · rw [hline]
    split
    · next e => subst e; exact hl hm
    · rfl
  · rw [hline] at e
    split at e
    · next hm => subst hm; exact hs e
    · exact e

theorem modSlot_actFrame (n : LineId) (f : Slot → Slot) (s : State) : ActFrame a s (s.modSlot n f) :=
  modLine_actFrame rfl rfl (fun _ => rfl) fun e => Option.map_eq_none_iff.1 e

theorem modLink_actFrame {l : LinkId} {f : Link → Link} (hs : (f (s.link l)).state = (s.link l).state)
    (hc : (f (s.link l)).counters = (s.link l).counters) (hq : ∀ x ∈ (f (s.link l)).queue, x ∈ (s.link l).queue ∨ a.xfer x) :
    ActFrame a s (s.modLink l f) := by
  have hlink := fun m => State.link_modLink s l m f
  refine ⟨rfl, rfl, rfl, rfl, ⟨_, le_rfl, rfl⟩, fun _ => ⟨rfl, rfl⟩, fun _ _ => rfl, fun _ e => e, fun m => ?_, fun m x hx => ?_,
    fun _ hi => hi, fun _ r hr => ⟨r, hr, rfl, rfl, rfl⟩, fun _ _ => rfl⟩
  · rw [hlink]
    split
    · next e => subst e; exact ⟨hs, hc⟩
    · exact ⟨rfl, rfl⟩
  · rw [hlink] at hx
    split at hx
    · next e => subst e; exact hq x hx
    · exact .inl hx

theorem markSending_actFrame (x : Xfer) (s : State) : ActFrame a s (markSending x s) := by
  cases x with
  | dest n => exact modRec_actFrame n (f := fun r => { r with state := .sending, sent := r.acked }) ⟨fun _ => rfl, fun _ => rfl, fun _ => rfl⟩ s
  | slot n => exact modSlot_actFrame n _ s

theorem takePicked_actFrame (l : LinkId) (x : Xfer) (s : State) : ActFrame a s (takePicked l x s) :=
  modLink_actFrame rfl rfl fun _ hy => .inl (List.mem_filter.1 hy).1

theorem setSeq_actFrame (x : Xfer) (q : Nat) (s : State) : ActFrame a s (setSeq x q s) := by
  cases x with
  | dest n => exact modRec_actFrame n (f := fun r => { r with seq := q }) ⟨fun _ => rfl, fun _ => rfl, fun _ => rfl⟩ s
  | slot n => exact modSlot_actFrame n _ s

theorem Act.frame (p : Act a s t) : ActFrame a s t := by
  cases p with
  | emit w => exact { ActFrame.refl s with }
  | order f => exact { ActFrame.refl s with }
  | late => exact { ActFrame.refl s with counters := ⟨_, satInc_ge _, rfl⟩ }
  | next n => exact { ActFrame.refl s with }
  | due d h => exact { ActFrame.refl s with due := h }
  | link l f h => exact modLink_actFrame h.state h.counters h.queue
  | seq x q h => exact setSeq_actFrame x q s
  | dest n f ha hf => exact modRec_actFrame n hf s
  | line n f ha hf => exact modLine_actFrame hf.enabled hf.cfg (fun hn => absurd ha hn) fun e => hf.slot ▸ e
  | slot n f ha => exact modSlot_actFrame n f s
  | keys n l u ha => exact modSlot_actFrame n _ s
  | load n sl h => exact modLine_actFrame rfl rfl (fun _ => rfl) nofun
  | pick l x hu hq hr => exact (takePicked_actFrame l x s).trans (markSending_actFrame x _)

theorem Acts.frame (h : Acts a s t) : ActFrame a s t := by
  induction h with
  | refl => exact .refl s
  | tail _ p ih => exact ih.trans p.frame

theorem ActFrame.page? (h : ActFrame a s t) (n : Nat) : t.page? n = s.page? n := by unfold State.page?; rw [h.pages]

theorem ActFrame.linkOf (h : ActFrame a s t) (n : LineId) : t.linkOf n = s.linkOf n := by unfold State.linkOf; rw [(h.setup n).2]

theorem ActFrame.isUp (h : ActFrame a s t) (l : LinkId) : t.isUp l = s.isUp l := by unfold State.isUp; rw [(h.link l).1]

theorem ActFrame.recGen (h : ActFrame a s t) {r r' : DestRec} (hr : r'.parent = r.parent) : t.recGen r' = s.recGen r := by
  unfold State.recGen; rw [hr, h.page?]

theorem ActFrame.xferLine (h : ActFrame a s t) (x : Xfer) : xferLine t x = xferLine s x := by
  cases x with
  | slot n => rfl
  | dest i =>
    show (t.rec? i).map _ = (s.rec? i).map _
    cases hr : s.rec? i with
    | none => rw [h.unused i hr]
    | some r =>
      obtain ⟨r', hr', hl, _⟩ := h.used i r hr
      rw [hr']
      exact congrArg some hl

theorem ActFrame.ctlFrame (h : ActFrame a s t) (c : CtlFrame) : ctlFrame t c = ctlFrame s c := by
  cases c <;> simp only [Machine.ctlFrame, lineFrame, (h.setup _).2]

/-! ### Transfers that a run is not aimed at -/

/-- No pick can take a transfer: it stands in no queue of an UP link, or its press line is not READY and is not aimed at (R77). -/
def Unpickable (a : Aim) (s : State) (x : Xfer) : Prop :=
  (∀ l, (s.link l).state = .up → x ∉ (s.link l).queue) ∨ ∀ n, xferLine s x = some n → (s.line n).state ≠ .ready ∧ ¬ a.line n

theorem ActFrame.unpickable (h : ActFrame a s t) {x : Xfer} (hx : ¬ a.xfer x) (hp : Unpickable a s x) : Unpickable a t x := by
  refine hp.imp (fun hq l hu hm => ?_) fun hl n hn => ?_
  · exact hq l ((h.link l).1.symm.trans hu) ((h.queue l x hm).resolve_right hx)
  · obtain ⟨hs, hn'⟩ := hl n (h.xferLine x ▸ hn)
    rw [h.line n hn']
    exact ⟨hs, hn'⟩

theorem Unpickable.not_picked {l : LinkId} {x : Xfer} (h : Unpickable a s x) (hu : (s.link l).state = .up)
    (hq : x ∈ (s.link l).queue) : xferReady s x = false := by
  unfold xferReady
  obtain h | h := h
  · exact absurd hq (h l hu)
  · split
    · next n hn => exact beq_false_of_ne (h n hn).1
    · rfl

/-- A record that a run is not aimed at: its sequence may have moved, and a pick may have made it SENDING from its acked offset. -/
def RecHeld (a : Aim) (r r' : DestRec) : Prop :=
  ∃ q, (a.reseq ∨ q = r.seq) ∧ (r' = { r with seq := q } ∨ r' = { r with seq := q, state := .sending, sent := r.acked })

theorem RecHeld.refl (r : DestRec) : RecHeld a r r := ⟨r.seq, .inr rfl, .inl rfl⟩

theorem RecHeld.trans {r r' q : DestRec} (h : RecHeld a r r') (k : RecHeld a r' q) : RecHeld a r q := by
  obtain ⟨v, hv, h⟩ := h
  obtain ⟨w, hw, k⟩ := k
  have hs : r'.seq = v := by obtain rfl | rfl := h <;> rfl
  refine ⟨w, hw.elim .inl fun e => hv.elim .inl fun e' => .inr ((e.trans hs).trans e'), ?_⟩
  obtain rfl | rfl := h <;> obtain rfl | rfl := k
  · exact .inl rfl
  · exact .inr rfl
  · exact .inr rfl
  · exact .inr rfl

theorem Act.dest_held (p : Act a s t) {i : Nat} {r : DestRec} (hi : ¬ a.xfer (.dest i)) (hr : s.rec? i = some r) :
    ∃ r', t.rec? i = some r' ∧ RecHeld a r r' := by
  have same : ∃ r', s.rec? i = some r' ∧ RecHeld a r r' := ⟨r, hr, .refl r⟩
  cases p with
  | seq x q h =>
    cases x with
    | slot n => exact same
    | dest n =>
      refine (show ∃ r', (s.modRec n _).rec? i = some r' ∧ _ from ?_)
      rw [rec_modRec]
      split
      · next e =>
        subst e
        rw [hr]
        exact ⟨_, rfl, q, .inl (h.resolve_left hi).1, .inl rfl⟩
      · exact same
  | dest n f ha hf =>
    rw [rec_modRec, if_neg fun e => hi (by rw [e]; exact ha)]
    exact same
  | pick l x hu hq hr' =>
    cases x with
    | slot n => exact same
    | dest n =>
      refine (show ∃ r', ((takePicked l (.dest n) s).modRec n _).rec? i = some r' ∧ _ from ?_)
      rw [rec_modRec]
      split
      · next e =>
        subst e
        rw [show (takePicked l (.dest i) s).rec? i = some r from hr]
        exact ⟨_, rfl, r.seq, .inr rfl, .inr rfl⟩
      · exact same
  | _ => exact same

/-- A record that a run is not aimed at is held. -/
theorem Acts.dest_held (h : Acts a s t) {i : Nat} {r : DestRec} (hi : ¬ a.xfer (.dest i)) (hr : s.rec? i = some r) :
    ∃ r', t.rec? i = some r' ∧ RecHeld a r r' := by
  induction h with
  | refl => exact ⟨r, hr, .refl r⟩
  | tail _ p ih =>
    obtain ⟨r1, h1, hh⟩ := ih
    obtain ⟨r2, h2, hh'⟩ := p.dest_held hi h1
    exact ⟨r2, h2, hh.trans hh'⟩

theorem Act.dest_kept (p : Act a s t) {i : Nat} {r : DestRec} (hi : ¬ a.xfer (.dest i)) (hp : Unpickable a s (.dest i))
    (hr : s.rec? i = some r) : ∃ q, (a.reseq ∨ q = r.seq) ∧ t.rec? i = some { r with seq := q } := by
  have same : ∃ q, (a.reseq ∨ q = r.seq) ∧ s.rec? i = some { r with seq := q } := ⟨r.seq, .inr rfl, hr⟩
  cases p with
  | seq x q h =>
    cases x with
    | slot n => exact same
    | dest n =>
      refine (show ∃ v, _ ∧ (s.modRec n _).rec? i = some { r with seq := v } from ?_)
      rw [rec_modRec]
      split
      · next e =>
        subst e
        rw [hr]
        exact ⟨q, .inl (h.resolve_left hi).1, rfl⟩
      · exact same
  | dest n f ha hf =>
    rw [rec_modRec, if_neg fun e => hi (by rw [e]; exact ha)]
    exact same
  | pick l x hu hq hr' =>
    cases x with
    | slot n => exact same
    | dest n =>
      have hne : i ≠ n := fun e => by subst e; rw [hp.not_picked hu hq] at hr'; cases hr'
      refine (show ∃ v, _ ∧ ((takePicked l (.dest n) s).modRec n _).rec? i = some { r with seq := v } from ?_)
      rw [rec_modRec, if_neg hne]
      exact same
  | _ => exact same

/-- A record that a run is not aimed at and that no pick can take keeps all but its sequence. -/
theorem Acts.dest_kept (h : Acts a s t) {i : Nat} {r : DestRec} (hi : ¬ a.xfer (.dest i)) (hp : Unpickable a s (.dest i))
    (hr : s.rec? i = some r) : ∃ q, (a.reseq ∨ q = r.seq) ∧ t.rec? i = some { r with seq := q } := by
  induction h with
  | refl => exact ⟨r.seq, .inr rfl, hr⟩
  | tail hst p ih =>
    obtain ⟨q, hq, h1⟩ := ih
    obtain ⟨q', hq', h2⟩ := p.dest_kept hi ((Acts.frame hst).unpickable hi hp) h1
    exact ⟨q', hq'.elim .inl fun e => hq.elim .inl fun e' => .inr (e.trans e'), h2⟩

theorem Act.idle (p : Act a s t) {x : Xfer} (hx : ¬ a.xfer x) (h : s.layout.Idle x) : t.layout.Idle x := by
  have hlinks : (∀ m, t.link m = s.link m) → t.layout.Idle x := fun hm l =>
    show x ∉ (t.link l).queue ∧ (t.link l).sending ≠ some x from hm l ▸ h l
  cases p with
  | link l f hf =>
    intro m
    show x ∉ ((s.modLink l f).link m).queue ∧ ((s.modLink l f).link m).sending ≠ some x
    rw [State.link_modLink]
    split
    · refine ⟨fun c => (hf.queue x c).elim (h l).1 hx, fun c => ?_⟩
      obtain e | e := hf.sending <;> rw [e] at c
      · exact (h l).2 c
      · cases c
    · exact h m
  | seq y q hy => cases y <;> exact hlinks fun _ => rfl
  | pick l y hu hq hr =>
    intro m
    show x ∉ ((markSending y (takePicked l y s)).link m).queue ∧ ((markSending y (takePicked l y s)).link m).sending ≠ some x
    rw [markSending_link, takePicked, State.link_modLink]
    split
    · exact ⟨fun c => (h l).1 (List.mem_filter.1 c).1, fun c => (h l).1 (Option.some.inj c ▸ hq)⟩
    · exact h m
  | _ => exact hlinks fun _ => rfl

/-- A transfer that stands nowhere stands nowhere after a run that is not aimed at it. -/
theorem Acts.idle (h : Acts a s t) {x : Xfer} (hx : ¬ a.xfer x) (hi : s.layout.Idle x) : t.layout.Idle x := by
  induction h with
  | refl => exact hi
  | tail _ p ih => exact p.idle hx ih

theorem not_standsOn {x : Xfer} (h : s.layout.Idle x) (l : LinkId) : ¬ StandsOn s l x := fun c => c.elim (h l).1 (h l).2

theorem Act.dest_idle (p : Act a s t) {i : Nat} (hi : ¬ a.xfer (.dest i)) (h : s.layout.Idle (.dest i)) : t.rec? i = s.rec? i := by
  cases p with
  | seq x q hx =>
    cases x with
    | slot n => rfl
    | dest n =>
      refine (rec_modRec s n i _).trans (if_neg fun e => ?_)
      subst e
      obtain ⟨l, hl⟩ := (hx.resolve_left hi).2
      exact not_standsOn h l hl
  | dest n f ha hf => rw [rec_modRec, if_neg fun e => hi (by rw [e]; exact ha)]
  | pick l x hu hq hr =>
    cases x with
    | slot n => rfl
    | dest n =>
      exact (rec_modRec (takePicked l (.dest n) s) n i _).trans (if_neg fun e => (h l).1 (by rw [e]; exact hq))
  | _ => rfl

/-- A record that stands nowhere is as it was after a run that is not aimed at it. -/
theorem Acts.dest_idle (h : Acts a s t) {i : Nat} (hi : ¬ a.xfer (.dest i)) (hd : s.layout.Idle (.dest i)) : t.rec? i = s.rec? i := by
  induction h with
  | refl => rfl
  | tail hst p ih => exact (p.dest_idle hi (Acts.idle hst hi hd)).trans ih

/-! ### Slots that a run is not aimed at -/

/-- A slot that a run is not aimed at: its keys may have been computed anew and its sequence moved, and a pick may have made it SENDING. -/
def SlotHeld (a : Aim) (n : LineId) (sl sl' : Slot) : Prop :=
  ∃ l v q, (a.keys n ∨ l = sl.latestStart ∧ v = sl.urgent) ∧ (a.reseq ∨ q = sl.seq) ∧
    (sl' = { sl with latestStart := l, urgent := v, seq := q } ∨
      sl' = { sl with latestStart := l, urgent := v, seq := q, state := .sending, sent := sl.acked })

theorem SlotHeld.refl (n : LineId) (sl : Slot) : SlotHeld a n sl sl := ⟨_, _, _, .inr ⟨rfl, rfl⟩, .inr rfl, .inl rfl⟩

theorem SlotHeld.trans {n : LineId} {sl sl' sl'' : Slot} (h : SlotHeld a n sl sl') (k : SlotHeld a n sl' sl'') :
    SlotHeld a n sl sl'' := by
  obtain ⟨l, v, q, hk, hq, h⟩ := h
  obtain ⟨l', v', q', hk', hq', k⟩ := k
  have hs : sl'.latestStart = l ∧ sl'.urgent = v ∧ sl'.seq = q := by obtain rfl | rfl := h <;> exact ⟨rfl, rfl, rfl⟩
  obtain ⟨rfl, rfl, rfl⟩ := hs
  refine ⟨l', v', q', hk'.elim .inl fun e => hk.elim .inl fun e' => .inr ⟨e.1.trans e'.1, e.2.trans e'.2⟩,
    hq'.elim .inl fun e => hq.elim .inl fun e' => .inr (e.trans e'), ?_⟩
  obtain h | h := h <;> obtain k | k := k
  · rw [h] at k; exact .inl k
  · rw [h] at k; exact .inr k
  · rw [h] at k; exact .inr k
  · rw [h] at k; exact .inr k

/-- A slot that no pick took. -/
def SlotKept (a : Aim) (n : LineId) (sl sl' : Slot) : Prop :=
  ∃ l v q, (a.keys n ∨ l = sl.latestStart ∧ v = sl.urgent) ∧ (a.reseq ∨ q = sl.seq) ∧
    sl' = { sl with latestStart := l, urgent := v, seq := q }

theorem SlotKept.refl (n : LineId) (sl : Slot) : SlotKept a n sl sl := ⟨_, _, _, .inr ⟨rfl, rfl⟩, .inr rfl, rfl⟩

theorem SlotKept.held {n : LineId} {sl sl' : Slot} (h : SlotKept a n sl sl') : SlotHeld a n sl sl' := by
  obtain ⟨l, v, q, hk, hq, h⟩ := h
  exact ⟨l, v, q, hk, hq, .inl h⟩

theorem SlotKept.trans {n : LineId} {sl sl' sl'' : Slot} (h : SlotKept a n sl sl') (k : SlotKept a n sl' sl'') :
    SlotKept a n sl sl'' := by
  obtain ⟨l, v, q, hk, hq, rfl⟩ := h
  obtain ⟨l', v', q', hk', hq', rfl⟩ := k
  exact ⟨l', v', q', hk'.elim .inl fun e => hk.elim .inl fun e' => .inr ⟨e.1.trans e'.1, e.2.trans e'.2⟩,
    hq'.elim .inl fun e => hq.elim .inl fun e' => .inr (e.trans e'), rfl⟩

theorem modSlot_slot (s : State) (n m : LineId) (f : Slot → Slot) :
    ((s.modSlot n f).line m).slot = if m = n then (s.line n).slot.map f else (s.line m).slot := by
  unfold State.modSlot
  rw [State.line_modLine]
  split <;> rfl

/-- An act that is no pick of the slot. -/
theorem Act.slot_held_or (p : Act a s t) {n : LineId} {sl : Slot} (hn : ¬ a.xfer (.slot n)) (hs : (s.line n).slot = some sl) :
    (∃ sl', (t.line n).slot = some sl' ∧ SlotKept a n sl sl') ∨
      (∃ l, (s.link l).state = .up ∧ Xfer.slot n ∈ (s.link l).queue ∧ xferReady s (.slot n) = true) ∧
        (t.line n).slot = some { sl with state := .sending, sent := sl.acked } := by
  have same : ∃ sl', (s.line n).slot = some sl' ∧ SlotKept a n sl sl' := ⟨sl, hs, .refl n sl⟩
  have modified : ∀ (m : LineId) (f : Slot → Slot), (m = n → SlotKept a n sl (f sl)) →
      ∃ sl', ((s.modSlot m f).line n).slot = some sl' ∧ SlotKept a n sl sl' := fun m f hf => by
    rw [modSlot_slot]
    split
    · next e => subst e; rw [hs]; exact ⟨f sl, rfl, hf rfl⟩
    · exact same
  cases p with
  | seq x q h =>
    cases x with
    | dest i => exact .inl same
    | slot m => exact .inl (modified m _ fun e => ⟨_, _, q, .inr ⟨rfl, rfl⟩, .inl (h.resolve_left (e ▸ hn)).1, rfl⟩)
  | slot m f ha => exact .inl (modified m f fun e => absurd ha (e ▸ hn))
  | keys m l v ha => exact .inl (modified m _ fun e => ⟨l, v, _, .inl (e ▸ ha), .inr rfl, rfl⟩)
  | line m f ha hf =>
    rw [State.line_modLine]
    split
    · next e => subst e; rw [hf.slot]; exact .inl same
    · exact .inl same
  | load m sl' h =>
    have hne : n ≠ m := fun e => by subst e; rw [hs] at h; cases h
    rw [State.line_modLine, if_neg hne]
    exact .inl same
  | pick l x hu hq hr =>
    cases x with
    | dest i => exact .inl same
    | slot m =>
      have e := modSlot_slot (takePicked l (.slot m) s) m n fun sl => { sl with state := .sending, sent := sl.acked }
      by_cases hm : n = m
      · subst hm
        rw [if_pos rfl, show ((takePicked l (.slot n) s).line n).slot = some sl from hs] at e
        exact .inr ⟨⟨l, hu, hq, hr⟩, e⟩
      · rw [if_neg hm] at e
        exact .inl ⟨sl, e.trans hs, .refl n sl⟩
  | _ => exact .inl same

/-- A slot that a run is not aimed at is held. -/
theorem Acts.slot_held (h : Acts a s t) {n : LineId} {sl : Slot} (hn : ¬ a.xfer (.slot n)) (hs : (s.line n).slot = some sl) :
    ∃ sl', (t.line n).slot = some sl' ∧ SlotHeld a n sl sl' := by
  induction h with
  | refl => exact ⟨sl, hs, .refl n sl⟩
  | tail _ p ih =>
    obtain ⟨s1, h1, hh⟩ := ih
    obtain ⟨s2, h2, hh'⟩ | ⟨-, h2⟩ := p.slot_held_or hn h1
    · exact ⟨s2, h2, hh.trans hh'.held⟩
    · exact ⟨_, h2, hh.trans ⟨_, _, _, .inr ⟨rfl, rfl⟩, .inr rfl, .inr rfl⟩⟩

/-- A slot that a run is not aimed at and that no pick can take keeps all but its keys and its sequence. -/
theorem Acts.slot_kept (h : Acts a s t) {n : LineId} {sl : Slot} (hn : ¬ a.xfer (.slot n)) (hp : Unpickable a s (.slot n))
    (hs : (s.line n).slot = some sl) : ∃ sl', (t.line n).slot = some sl' ∧ SlotKept a n sl sl' := by
  induction h with
  | refl => exact ⟨sl, hs, .refl n sl⟩
  | tail hst p ih =>
    obtain ⟨s1, h1, hh⟩ := ih
    obtain ⟨s2, h2, hh'⟩ | ⟨⟨l, hu, hq, hr⟩, -⟩ := p.slot_held_or hn h1
    · exact ⟨s2, h2, hh.trans hh'⟩
    · rw [((Acts.frame hst).unpickable hn hp).not_picked hu hq] at hr
      cases hr

/-! ### Control frames that a run is not aimed at -/

theorem Act.offered (p : Act a s t) {l : LinkId} {c : CtlFrame} (hc : ¬ a.drops c) (h : Offered s l c) : Offered t l c := by
  have hf := p.frame.ctlFrame c
  have hlinks : t.link l = s.link l → Offered t l c := fun hm => by unfold Offered; rw [hm, hf]; exact h
  cases p with
  | link m f hm =>
    unfold Offered at h ⊢
    rw [hf, State.link_modLink]
    split
    · next e =>
      subst e
      obtain h | h := h
      · exact (hm.offered c h).resolve_left hc
      · obtain ⟨w, hw, hr⟩ := hm.wire _ h
        exact .inr (hw.trans (congrArg some (hr rfl)))
    · exact h
  | seq y q hy => cases y <;> exact hlinks rfl
  | pick m y hu hq hr =>
    unfold Offered at h ⊢
    rw [hf, markSending_link, takePicked, State.link_modLink]
    split
    · next e => subst e; exact h
    · exact h
  | _ => exact hlinks rfl

/-- A control frame that a run is not aimed at waits still, or is on the wire. -/
theorem Acts.offered (h : Acts a s t) {l : LinkId} {c : CtlFrame} (hc : ¬ a.drops c) (ho : Offered s l c) : Offered t l c := by
  induction h with
  | refl => exact ho
  | tail _ p ih => exact p.offered hc ih

theorem Act.control (p : Act a s t) (hf : ¬ a.frames) {l : LinkId} (hw : (s.link l).wire ≠ none) :
    (t.link l).control = (s.link l).control ∧ (t.link l).wire ≠ none := by
  have hlinks : t.link l = s.link l → (t.link l).control = (s.link l).control ∧ (t.link l).wire ≠ none := fun hm => by
    rw [hm]; exact ⟨rfl, hw⟩
  cases p with
  | link m f hm =>
    rw [State.link_modLink]
    split
    · next e =>
      subst e
      obtain ⟨w, hw'⟩ := Option.ne_none_iff_exists'.1 hw
      obtain ⟨w', h', _⟩ := hm.wire w hw'
      exact ⟨hm.control hw hf, h' ▸ nofun⟩
    · exact ⟨rfl, hw⟩
  | seq y q hy => cases y <;> exact hlinks rfl
  | pick m y hu hq hr =>
    rw [markSending_link, takePicked, State.link_modLink]
    split
    · next e => subst e; exact ⟨rfl, hw⟩
    · exact ⟨rfl, hw⟩
  | _ => exact hlinks rfl

/-- While a frame is on the wire, a run that neither offers frames nor takes them out leaves the list as it is. -/
theorem Acts.control (h : Acts a s t) (hf : ¬ a.frames) {l : LinkId} (hw : (s.link l).wire ≠ none) :
    (t.link l).control = (s.link l).control ∧ (t.link l).wire ≠ none := by
  induction h with
  | refl => exact ⟨rfl, hw⟩
  | tail _ p ih =>
    obtain ⟨h1, h2⟩ := p.control hf ih.2
    exact ⟨h1.trans ih.1, h2⟩

end Sys2Proof.Machine
end

section
/-! The scheduler's, the slots' and the pool's operations are runs of acts (R24, R36, R69, R74 to R78, R92 to R94, R143). -/

namespace Sys2Proof.Machine

variable {a : Aim} {b s t u : State}

/-! ### Writes -/

theorem hostWrite_acts (x : U64) (bytes : List Byte) (h : Acts a b s) : Acts a b (hostWrite x bytes s) := h.step (.emit _)

theorem deskWrite_acts (o : Nat) (bytes : List Byte) (h : Acts a b s) : Acts a b (deskWrite o bytes s) := by
  unfold deskWrite; split
  · exact h
  · exact hostWrite_acts _ _ h

theorem raise_acts (c : Cause) (h : Acts a b s) : Acts a b (raise c s) := by
  have hm := h.step (.order fun o => { o with attention := o.attention ||| c.bits })
  unfold raise msiIfRisen
  split
  · exact hm.step (.emit _)
  · exact hm

theorem writeLinkMirror_acts (l : LinkId) (h : Acts a b s) : Acts a b (writeLinkMirror l s) := deskWrite_acts _ _ h

theorem writeLineMirror_acts (n : LineId) (h : Acts a b s) : Acts a b (writeLineMirror n s) := deskWrite_acts _ _ h

theorem predictedLate_acts (h : Acts a b s) : Acts a b (bumpCounter .predictedLates s) := by
  unfold bumpCounter
  split
  · exact h
  · exact deskWrite_acts _ _ (h.step .late)

theorem Writes.acts (k : Writes s t) (h : Acts a b s) : Acts a b t := by
  obtain ⟨w, rfl⟩ := k
  induction w with
  | nil => exact h
  | cons w ws ih => exact ih.step (.emit w)

theorem writeEntry_acts (n : Nat) (h : Acts a b s) : Acts a b (writeEntry n s) := (writeEntry_writes n s).acts h

theorem foldl_acts {α : Type} (f : State → α → State) (xs : List α) (hf : ∀ s, ∀ x ∈ xs, Acts a b s → Acts a b (f s x))
    (h : Acts a b s) : Acts a b (xs.foldl f s) := by
  induction xs generalizing s with
  | nil => exact h
  | cons x xs ih => exact ih (fun s y hy => hf s y (.tail _ hy)) (hf s x (.head _) h)

/-! ### Links and their wires -/

theorem modLink_acts (l : LinkId) (f : Link → Link) (hf : LinkAct a s (s.link l) (f (s.link l))) (h : Acts a b s) :
    Acts a b (s.modLink l f) := h.step (.link l f hf)

/-- A change of a link that leaves the control list and the wire. -/
theorem LinkAct.quiet {k k' : Link} (hs : k'.state = k.state) (hc : k'.counters = k.counters)
    (hq : ∀ x ∈ k'.queue, x ∈ k.queue ∨ a.xfer x) (hx : k'.sending = k.sending ∨ k'.sending = none)
    (hl : k'.control = k.control) (hw : k'.wire = k.wire) : LinkAct a s k k' :=
  ⟨hs, hc, hq, hx, fun w e => ⟨w, hw.trans e, fun _ => rfl⟩, fun _ m => .inr (.inl (hl ▸ m)), fun _ _ => hl⟩

/-- A frame starts onto a free wire, whose transfers stay where they are. -/
theorem kick_acts (l : LinkId) (hc : (s.link l).control ≠ [] ∨ (s.link l).openOwed = true) (h : Acts a b s) :
    Acts a b (kick l s) := by
  unfold kick
  dsimp only
  split
  · exact h
  · next hfree =>
    have hw : (s.link l).wire = none := by simpa using (not_or.1 hfree).2
    split
    · next c cs hctl =>
      refine modLink_acts l _ ⟨rfl, rfl, fun _ hx => .inl hx, .inl rfl, fun w e => ?_, fun d m => ?_, fun e => absurd hw e⟩ h
      · rw [hw] at e; cases e
      · rw [hctl] at m
        obtain rfl | m := List.mem_cons.1 m
        · exact .inr (.inr rfl)
        · exact .inr (.inl m)
    · next hnil =>
      split
      · exact h
      · split
        · exact h
        · rw [if_pos (hc.resolve_left fun c => c hnil)]
          refine modLink_acts l _ ⟨rfl, rfl, fun _ hx => .inl hx, .inl rfl, fun w e => ?_, fun _ m => ?_, fun e => absurd hw e⟩ h
          · rw [hw] at e; cases e
          · exact .inr (.inl m)

theorem mem_joinControl {c d : CtlFrame} {cs : List CtlFrame} (hd : d ∈ cs) : d.same c = true ∨ d ∈ joinControl c cs := by
  unfold joinControl
  split
  · by_cases hs : d.same c = true
    · exact .inl hs
    · exact .inr (List.mem_map.2 ⟨d, hd, if_neg hs⟩)
  · exact .inr (List.mem_append_left _ hd)

theorem offer_acts (l : LinkId) (c : CtlFrame) (hf : a.frames) (hc : ∀ d, CtlFrame.same d c = true → a.drops d) (h : Acts a b s) :
    Acts a b (offer l c s) := by
  unfold offer
  split
  · refine kick_acts l (.inl ?_) (modLink_acts l _ ⟨rfl, rfl, fun _ hx => .inl hx, .inl rfl, fun w e => ⟨w, e, fun _ => rfl⟩,
      fun d hd => (mem_joinControl hd).imp (hc d) .inl, fun _ hn => absurd hf hn⟩ h)
    rw [State.link_modLink_self]
    exact joinControl_ne_nil _ _
  · exact h

theorem dropControlOn_acts (l : LinkId) (p : CtlFrame → Bool) (hf : a.frames) (hp : ∀ c, p c = true → a.drops c) (h : Acts a b s) :
    Acts a b (dropControlOn l p s) := by
  refine modLink_acts l _ ⟨rfl, rfl, fun _ hx => .inl hx, .inl rfl, fun w e => ⟨w, e, fun _ => rfl⟩, fun d hd => ?_,
    fun _ hn => absurd hf hn⟩ h
  cases e : p d with
  | true => exact .inl (hp d e)
  | false => exact .inr (.inl (List.mem_filter.2 ⟨hd, by rw [e]; rfl⟩))

theorem dropControl_acts (p : CtlFrame → Bool) (hf : a.frames) (hp : ∀ c, p c = true → a.drops c) (h : Acts a b s) :
    Acts a b (dropControl p s) :=
  foldl_acts _ _ (fun _ _ _ h => dropControlOn_acts _ p hf hp h) h

/-! ### The scheduler -/

theorem refreshFirst_acts (l : LinkId) (h : Acts a b s) : Acts a b (refreshFirst l s) := by
  refine modLink_acts l _ ?_ h
  dsimp only
  split
  · exact .quiet rfl rfl (fun _ hx => .inl hx) (.inl rfl) rfl rfl
  · exact .quiet rfl rfl (fun _ hx => .inl hx) (.inl rfl) rfl rfl

theorem schedMirror_acts (l : LinkId) (h : Acts a b s) : Acts a b (schedMirror l s) := writeLinkMirror_acts l (refreshFirst_acts l h)

theorem modRec_acts (n : Nat) (f : DestRec → DestRec) (ha : a.xfer (.dest n)) (hf : DestAct f) (h : Acts a b s) :
    Acts a b (s.modRec n f) := h.step (.dest n f ha hf)

theorem updateL_acts (n : Nat) (ha : a.xfer (.dest n)) (h : Acts a b s) : Acts a b (updateL n s) := by
  unfold updateL
  split
  · exact h
  · exact modRec_acts n _ ha ⟨fun _ => rfl, fun _ => rfl, fun _ => rfl⟩ h

theorem mem_foldl_insertBySeq {x : Xfer} (xs acc : List Xfer) (h : x ∈ xs.foldl (fun acc x => insertBySeq s x acc) acc) :
    x ∈ xs ∨ x ∈ acc := by
  induction xs generalizing acc with
  | nil => exact .inr h
  | cons y ys ih =>
    obtain h | h := ih _ h
    · exact .inl (.tail _ h)
    · dsimp only at h
      rw [insertBySeq_eq] at h
      obtain rfl | h := (@List.mem_orderedInsert _ (SeqBefore s) (decideSeqBefore s) _ _ _).1 h
      · exact .inl (.head _)
      · exact .inr h

/-- The transfers renumbered stand in a queue or a SENDING slot (R75). -/
theorem standsOn_of_sequenced {x : Xfer} (h : x ∈ sequenced s) : ∃ l, StandsOn s l x := by
  have hx := (mem_foldl_insertBySeq _ _ h).resolve_right nofun
  obtain ⟨l, _, hl⟩ := List.mem_flatMap.1 hx
  obtain hl | hl := List.mem_append.1 hl
  · exact ⟨l, .inr (Option.mem_toList.1 hl)⟩
  · exact ⟨l, .inl hl⟩

theorem setSeq_link (x : Xfer) (q : Nat) (l : LinkId) (s : State) : (setSeq x q s).link l = s.link l := (setSeq_frame x q s).1 l

theorem renumberFrom_acts (xs : List Xfer) (q : Nat) (hr : a.reseq) (hx : ∀ x ∈ xs, ∃ l, StandsOn s l x) (h : Acts a b s) :
    Acts a b (renumberFrom q xs s) := by
  induction xs generalizing q s with
  | nil => exact h
  | cons x xs ih =>
    refine ih (q + 1) (fun y hy => ?_) (h.step (.seq x q (.inr ⟨hr, hx x (.head _)⟩)))
    obtain ⟨l, hl⟩ := hx y (.tail _ hy)
    exact ⟨l, by rwa [StandsOn, setSeq_link]⟩

theorem roomForSeq_acts (hr : a.reseq ∨ s.seqNext < Config.maxU32) (h : Acts a b s) : Acts a b (roomForSeq s) := by
  unfold roomForSeq
  split
  · next hm =>
    have hq := hr.resolve_right (Nat.not_lt.2 hm)
    exact (renumberFrom_acts _ 0 hq (fun _ hx => standsOn_of_sequenced hx) h).step (.next _)
  · exact h

/-- A transfer takes the next sequence (R75). -/
def takeSeq (x : Xfer) (s : State) : State :=
  (setSeq x (roomForSeq s).seqNext (roomForSeq s)).setSeq ((roomForSeq s).seqNext + 1)

/-- A transfer stands in a queue at the place its keys give it. -/
def enqueue (l : LinkId) (x : Xfer) (s : State) : State :=
  s.modLink l fun k => { k with queue := insertByKey s x k.queue }

/-- A join whose L has passed is counted (R72). -/
def countLate (x : Xfer) (s : State) : State :=
  if (xferKey s x).l < s.clock.value then bumpCounter .predictedLates s else s

theorem joinQueue_eq (l : LinkId) (x : Xfer) (s : State) :
    joinQueue l x s = schedMirror l (countLate x (enqueue l x (takeSeq x s))) := rfl

theorem takeSeq_acts (x : Xfer) (hx : a.xfer x) (hr : a.reseq ∨ s.seqNext < Config.maxU32) (h : Acts a b s) :
    Acts a b (takeSeq x s) :=
  ((roomForSeq_acts hr h).step (.seq x _ (.inl hx))).step (.next _)

theorem enqueue_acts (l : LinkId) (x : Xfer) (hx : a.xfer x) (h : Acts a b s) : Acts a b (enqueue l x s) :=
  modLink_acts l _ (.quiet rfl rfl (fun _ hy => (mem_insertByKey.1 hy).elim (fun e => .inr (e ▸ hx)) .inl) (.inl rfl) rfl rfl) h

theorem countLate_acts (x : Xfer) (h : Acts a b s) : Acts a b (countLate x s) := by
  unfold countLate
  split
  · exact predictedLate_acts h
  · exact h

theorem joinQueue_acts (l : LinkId) (x : Xfer) (hx : a.xfer x) (hr : a.reseq ∨ s.seqNext < Config.maxU32) (h : Acts a b s) :
    Acts a b (joinQueue l x s) :=
  joinQueue_eq l x s ▸ schedMirror_acts l (countLate_acts x (enqueue_acts l x hx (takeSeq_acts x hx hr h)))

theorem leaveQueue_acts (l : LinkId) (x : Xfer) (h : Acts a b s) : Acts a b (leaveQueue l x s) := by
  unfold leaveQueue
  split
  · exact schedMirror_acts l (modLink_acts l _
      (.quiet rfl rfl (fun _ hy => .inl (List.mem_filter.1 hy).1) (.inl rfl) rfl rfl) h)
  · exact h

theorem moveInQueue_acts (l : LinkId) (x : Xfer) (h : Acts a b s) : Acts a b (moveInQueue l x s) := by
  unfold moveInQueue
  split
  · next hx =>
    exact schedMirror_acts l (modLink_acts l _ (.quiet rfl rfl (fun _ hy => .inl ((mem_insertByKey.1 hy).elim (fun e => e ▸ hx)
      fun hy => (List.mem_filter.1 hy).1)) (.inl rfl) rfl rfl) h)
  · exact h

theorem pick_acts (l : LinkId) (h : Acts a b s) : Acts a b (pick l s) := by
  unfold pick
  dsimp only
  split
  · next hu =>
    split
    · next x hx =>
      have hp := h.step (.pick l x hu.1 (List.mem_of_find?_eq_some hx) (List.find?_some hx))
      refine kick_acts l (.inr (beginSending_openOwed l x s)) ?_
      unfold beginSending
      cases x with
      | dest n => exact schedMirror_acts l (writeEntry_acts n hp)
      | slot n => exact schedMirror_acts l (writeLineMirror_acts n hp)
    · exact h
  · exact h

theorem clearSending_acts (l : LinkId) (h : Acts a b s) : Acts a b (clearSending l s) :=
  schedMirror_acts l (modLink_acts l _ (.quiet rfl rfl (fun _ hx => .inl hx) (.inr rfl) rfl rfl) h)

theorem WireFrame.void_control {x : Xfer} {w : WireFrame} (h : w.role = .control) : w.void x = w := by
  unfold WireFrame.void; rw [h]

theorem stopSending_acts (l : LinkId) (x : Xfer) (h : Acts a b s) : Acts a b (stopSending l x s) := by
  unfold stopSending
  split
  · refine clearSending_acts l (modLink_acts l _ ⟨rfl, rfl, fun _ hx => .inl hx, .inl rfl, fun w e => ⟨w.void x, ?_, fun hr => ?_⟩,
      fun c m => .inr (.inl m), fun _ _ => rfl⟩ h)
    · dsimp only
      rw [e]; rfl
    · exact WireFrame.void_control hr
  · exact h

/-! ### Slots -/

theorem refreshSlot_acts (n : LineId) (hk : a.keys n) (h : Acts a b s) : Acts a b (refreshSlot n s) := by
  unfold refreshSlot
  split
  · exact h
  · split
    · exact h
    · exact moveInQueue_acts _ _ (h.step (.keys n _ _ hk))

theorem loadSlot_acts (n : LineId) (g : U16) (hs : (s.line n).slot = none) (hx : a.xfer (.slot n))
    (hr : a.reseq ∨ s.seqNext < Config.maxU32) (h : Acts a b s) : Acts a b (loadSlot n g s) := by
  refine pick_acts _ (joinQueue_acts _ _ hx ?_ (writeLineMirror_acts n (h.step (.load n _ hs))))
  have hw : (writeLineMirror n (s.modLine n fun k => { k with slot := some (Slot.loaded g (slotLatestStart s n g)
      (slotUrgent s n g)) })).seqNext = s.seqNext := by
    unfold writeLineMirror deskWrite; split <;> rfl
  rw [hw]
  exact hr

theorem changeoverCheck_acts (n : LineId) (hx : (b.line n).slot = none → a.xfer (.slot n))
    (hr : a.reseq ∨ s.seqNext < Config.maxU32) (h : Acts a b s) : Acts a b (changeoverCheck n s) := by
  unfold changeoverCheck
  split
  · next g hg =>
    have hs := changeoverChoice_slot hg
    exact loadSlot_acts n g hs (hx (h.frame.slot n hs)) hr h
  · exact h

theorem deskWrite_seqNext (o : Nat) (bytes : List Byte) (s : State) : (deskWrite o bytes s).seqNext = s.seqNext := by
  unfold deskWrite; split <;> rfl

theorem schedMirror_seqNext (l : LinkId) (s : State) : (schedMirror l s).seqNext = s.seqNext := deskWrite_seqNext _ _ _

theorem refreshSlot_seqNext (n : LineId) (s : State) : (refreshSlot n s).seqNext = s.seqNext := by
  unfold refreshSlot moveInQueue
  split
  · rfl
  · split
    · rfl
    · split
      · exact schedMirror_seqNext _ _
      · rfl

theorem reexamine_acts (n : LineId) (hk : a.keys n) (hx : (b.line n).slot = none → a.xfer (.slot n))
    (hr : a.reseq ∨ s.seqNext < Config.maxU32) (h : Acts a b s) : Acts a b (reexamine n s) :=
  changeoverCheck_acts n hx ((refreshSlot_seqNext n s).symm ▸ hr) (refreshSlot_acts n hk h)

theorem requeueSlot_acts (n : LineId) (f : Slot → Slot) (hx : a.xfer (.slot n)) (hr : a.reseq ∨ s.seqNext < Config.maxU32)
    (h : Acts a b s) : Acts a b (requeueSlot n f s) := by
  unfold requeueSlot
  split
  · exact h
  · refine pick_acts _ (joinQueue_acts _ _ hx ?_ (writeLineMirror_acts n (h.step (.slot n _ hx))))
    rw [writeLineMirror, deskWrite_seqNext]
    exact hr

/-! ### The pool -/

theorem monitor_acts (n : Nat) (ha : a.xfer (.dest n)) (h : Acts a b s) : Acts a b (monitor n s) := by
  have hne : ∀ i, ¬ a.xfer (.dest i) → n ≠ i := fun i hi e => hi (e ▸ ha)
  have removed : ∀ i, ¬ a.xfer (.dest i) →
      (s.deadlines.filter fun d => d.dest != n).filter (fun e => e.dest == i) = s.deadlines.filter fun e => e.dest == i := by
    intro i hi
    rw [List.filter_filter]
    refine List.filter_congr fun d _ => ?_
    by_cases e : d.dest = i
    · simp [e, (hne i hi).symm]
    · simp [e]
  have hdel : Acts a b (removeDeadline n s) := h.step (.due _ removed)
  unfold monitor
  split
  · exact h
  · split
    case h_7 =>
      dsimp only
      split
      · split
        · exact hdel
        · refine h.step (.due _ fun i hi => ?_)
          rw [← removed i hi]
          exact filter_insertDue _ _ _ (beq_false_of_ne (hne i hi))
      · exact hdel
    all_goals first | exact h | exact hdel

theorem applyChange_acts (n : Nat) (f : DestRec → DestRec) (ha : a.xfer (.dest n)) (hf : DestAct f) (h : Acts a b s) :
    Acts a b (applyChange n f s) :=
  monitor_acts n ha (writeEntry_acts n (modRec_acts n f ha hf h))

theorem drops_isRelease {n : Nat} (ha : a.xfer (.dest n)) (c : CtlFrame) (h : isRelease n c = true) : a.drops c := by
  cases c with
  | release m l k v => exact beq_iff_eq.1 h ▸ ha
  | _ => cases h

theorem drops_isWithdraw {n : Nat} (ha : a.xfer (.dest n)) (c : CtlFrame) (h : isWithdraw n c = true) : a.drops c := by
  cases c with
  | withdraw m l k v => exact beq_iff_eq.1 h ▸ ha
  | _ => cases h

theorem finish_acts (n : Nat) (st : DestState) (d : Detail) (hf : a.frames) (ha : a.xfer (.dest n)) (h : Acts a b s) :
    Acts a b (finish n st d s) :=
  dropControl_acts _ hf (fun c hc => (Bool.or_eq_true _ _ ▸ hc).elim (drops_isRelease ha c) (drops_isWithdraw ha c))
    (applyChange_acts n _ ha ⟨fun _ => rfl, fun _ => rfl, fun _ => rfl⟩ h)

theorem detachRec_acts (n : Nat) (h : Acts a b s) : Acts a b (detachRec n s) := by
  unfold detachRec
  split
  · exact h
  · split
    · exact leaveQueue_acts _ _ h
    · exact stopSending_acts _ _ h
    all_goals exact h

theorem same_withdraw {d : CtlFrame} {n : Nat} {m : LineId} {k : PageKey} {v : U16} (ha : a.xfer (.dest n))
    (h : d.same (.withdraw n m k v) = true) : a.drops d := by
  cases d with
  | withdraw i l k v => exact beq_iff_eq.1 h ▸ ha
  | _ => cases h

theorem same_release {d : CtlFrame} {n : Nat} {m : LineId} {k : PageKey} {v : U16} (ha : a.xfer (.dest n))
    (h : d.same (.release n m k v) = true) : a.drops d := by
  cases d with
  | release i l k v => exact beq_iff_eq.1 h ▸ ha
  | _ => cases h

theorem sendWithdraw_acts (n : Nat) (hf : a.frames) (ha : a.xfer (.dest n)) (h : Acts a b s) : Acts a b (sendWithdraw n s) := by
  unfold sendWithdraw
  split
  · exact h
  · split
    · exact h
    · exact offer_acts _ _ hf (fun d => same_withdraw ha) (modRec_acts n _ ha ⟨fun _ => rfl, fun _ => rfl, fun _ => rfl⟩ h)

theorem sendRelease_acts (n : Nat) (hf : a.frames) (ha : a.xfer (.dest n)) (h : Acts a b s) : Acts a b (sendRelease n s) := by
  unfold sendRelease
  split
  · exact h
  · split
    · exact h
    · exact offer_acts _ _ hf (fun d => same_release ha) (modRec_acts n _ ha ⟨fun _ => rfl, fun _ => rfl, fun _ => rfl⟩ h)

theorem sendOwedWithdraw_acts (n : Nat) (hf : a.frames) (ha : a.xfer (.dest n)) (h : Acts a b s) :
    Acts a b (sendOwedWithdraw n s) := by
  unfold sendOwedWithdraw
  split
  · exact h
  · split
    · exact sendWithdraw_acts n hf ha h
    · exact h

theorem takeBack_acts (n : Nat) (r : DestRec) (x : RetractEnd) (d : Detail) (hf : a.frames) (ha : a.xfer (.dest n))
    (h : Acts a b s) : Acts a b (takeBack n r x d s) := by
  unfold takeBack
  split
  · exact sendOwedWithdraw_acts n hf ha (dropControl_acts _ hf (drops_isRelease ha)
      (applyChange_acts n _ ha ⟨fun _ => rfl, fun _ => rfl, fun _ => rfl⟩ h))
  · exact finish_acts n _ _ hf ha h

theorem retract_acts (n : Nat) (x : RetractEnd) (d : Detail) (hf : a.frames) (ha : a.xfer (.dest n)) (h : Acts a b s) :
    Acts a b (retract n x d s) := by
  unfold retract
  split
  · exact h
  · split
    · exact h
    · have ht := fun r => takeBack_acts n r x d hf ha (detachRec_acts n h)
      dsimp only
      split
      · exact pick_acts _ (ht _)
      · exact ht _

theorem updateL_seqNext (n : Nat) (s : State) : (updateL n s).seqNext = s.seqNext := by unfold updateL; split <;> rfl

theorem placeRaw_acts (n : Nat) (hf : a.frames) (ha : a.xfer (.dest n)) (hr : a.reseq ∨ s.seqNext < Config.maxU32)
    (h : Acts a b s) : Acts a b (placeRaw n s) := by
  have plain : DestAct id := ⟨fun _ => rfl, fun _ => rfl, fun _ => rfl⟩
  unfold placeRaw
  split
  · exact h
  · split
    · refine pick_acts _ (applyChange_acts n id ha plain (joinQueue_acts _ _ ha ?_ (updateL_acts n ha
        (modRec_acts n _ ha ⟨fun _ => rfl, fun _ => rfl, fun _ => rfl⟩ h))))
      rw [updateL_seqNext]
      exact hr
    · exact applyChange_acts n id ha plain (updateL_acts n ha (modRec_acts n _ ha ⟨fun _ => rfl, fun _ => rfl, fun _ => rfl⟩ h))
    · exact retract_acts n _ _ hf ha h

theorem enterReleasing_acts (n : Nat) (ha : a.xfer (.dest n)) (h : Acts a b s) : Acts a b (enterReleasing n s) :=
  applyChange_acts n _ ha ⟨fun _ => rfl, fun _ => rfl, fun _ => rfl⟩ h

theorem releaseCheck_acts (n : Nat) (hf : a.frames) (ha : a.xfer (.dest n)) (h : Acts a b s) : Acts a b (releaseCheck n s) := by
  unfold releaseCheck
  split
  · exact h
  · split
    · exact sendRelease_acts n hf ha (enterReleasing_acts n ha h)
    · exact h

end Sys2Proof.Machine
end

section
/-! What the transmit side does next, frame by frame (R80, R143), and what the pool's operations make of the record they are for: the
sends of RELEASE and WITHDRAW, joins, retraction, placing (R25, R34, R36, R37, R75). -/

namespace Sys2Proof.Machine

variable {s t u : State} {l : LinkId} {i : Nat} {r r' : DestRec} {x : Xfer} {v : XferInfo}

/-! ### What a link does next (R143) -/

theorem kick_busy (h : (s.link l).state ≠ .up ∨ (s.link l).wire ≠ none) : kick l s = s := by
  unfold kick
  exact if_pos (h.imp_right fun h => Option.isSome_iff_ne_none.2 h)

/-- A free wire takes the head of the control list, else what the SENDING transfer has to send. -/
theorem kick_free (hu : (s.link l).state = .up) (hw : (s.link l).wire = none) : kick l s =
    match (s.link l).control with
    | c :: cs => s.modLink l fun k => { k with control := cs, wire := some ⟨ctlFrame s c, .control⟩ }
    | [] =>
      match (s.link l).sending with
      | none => s
      | some x =>
        match xferInfo s x with
        | none => s
        | some i =>
          if (s.link l).openOwed then startOpen l x i s
          else if 1 ≤ (s.link l).credit ∧ i.windowFull = false ∧ i.sent < i.size then startData l x i s
          else s :=
  if_neg (by simp [hu, hw])

theorem kick_control {c : CtlFrame} {cs : List CtlFrame} (hu : (s.link l).state = .up) (hw : (s.link l).wire = none)
    (hc : (s.link l).control = c :: cs) :
    kick l s = s.modLink l fun k => { k with control := cs, wire := some ⟨ctlFrame s c, .control⟩ } := by
  rw [kick_free hu hw, hc]

theorem kick_nothing (hu : (s.link l).state = .up) (hw : (s.link l).wire = none) (hc : (s.link l).control = [])
    (hx : (s.link l).sending = none) : kick l s = s := by
  rw [kick_free hu hw, hc, hx]

theorem kick_sending (hu : (s.link l).state = .up) (hw : (s.link l).wire = none) (hc : (s.link l).control = [])
    (hx : (s.link l).sending = some x) (hv : xferInfo s x = some v) : kick l s =
      if (s.link l).openOwed then startOpen l x v s
      else if 1 ≤ (s.link l).credit ∧ v.windowFull = false ∧ v.sent < v.size then startData l x v s
      else s := by
  rw [kick_free hu hw, hc, hx]
  dsimp only
  rw [hv]

theorem kick_open (hu : (s.link l).state = .up) (hw : (s.link l).wire = none) (hc : (s.link l).control = [])
    (hx : (s.link l).sending = some x) (hv : xferInfo s x = some v) (ho : (s.link l).openOwed = true) :
    kick l s = startOpen l x v s := by
  rw [kick_sending hu hw hc hx hv, if_pos ho]

theorem kick_data (hu : (s.link l).state = .up) (hw : (s.link l).wire = none) (hc : (s.link l).control = [])
    (hx : (s.link l).sending = some x) (hv : xferInfo s x = some v) (ho : (s.link l).openOwed = false)
    (h1 : 1 ≤ (s.link l).credit) (h2 : v.windowFull = false) (h3 : v.sent < v.size) : kick l s = startData l x v s := by
  rw [kick_sending hu hw hc hx hv, if_neg (by rw [ho]; decide), if_pos ⟨h1, h2, h3⟩]

theorem kick_waits (hu : (s.link l).state = .up) (hw : (s.link l).wire = none) (hc : (s.link l).control = [])
    (hx : (s.link l).sending = some x) (hv : xferInfo s x = some v) (ho : (s.link l).openOwed = false)
    (h : ¬ (1 ≤ (s.link l).credit ∧ v.windowFull = false ∧ v.sent < v.size)) : kick l s = s := by
  rw [kick_sending hu hw hc hx hv, if_neg (by rw [ho]; decide), if_neg h]

/-- A frame has its kind, tag and value from the call that builds it (R144). -/
theorem ctlFrame_congr {c : CtlFrame} (h : ∀ n, (t.line n).cfg = (s.line n).cfg) : ctlFrame t c = ctlFrame s c := by
  cases c <;> simp only [ctlFrame, lineFrame, h]

theorem mem_joinControl_self (c : CtlFrame) (cs : List CtlFrame) : c ∈ joinControl c cs := by
  unfold joinControl
  split
  · next h =>
    obtain ⟨d, hd, hs⟩ := List.any_eq_true.1 h
    exact List.mem_map.2 ⟨d, hd, if_pos hs⟩
  · exact List.mem_append_right _ (.head _)

/-- On an UP link a frame offered waits or has started (R143). -/
theorem offer_offered {c : CtlFrame} (hu : (s.link l).state = .up) : Offered (offer l c s) l c := by
  have hup : s.isUp l = true := by unfold State.isUp; rw [hu]; rfl
  unfold offer
  rw [if_pos hup]
  have hj : c ∈ ((s.modLink l fun k => { k with control := joinControl c k.control }).link l).control := by
    rw [State.link_modLink_self]; exact mem_joinControl_self _ _
  by_cases hw : (s.link l).wire = none
  · generalize ht : (s.modLink l fun k => { k with control := joinControl c k.control }) = t at hj
    have hu' : (t.link l).state = .up := by rw [← ht, State.link_modLink_self]; exact hu
    have hw' : (t.link l).wire = none := by rw [← ht, State.link_modLink_self]; exact hw
    obtain ⟨d, ds, hd⟩ := List.exists_cons_of_ne_nil (List.ne_nil_of_mem hj)
    rw [kick_control hu' hw' hd]
    unfold Offered
    rw [State.link_modLink_self]
    rw [hd] at hj
    obtain rfl | hj := List.mem_cons.1 hj
    · exact .inr rfl
    · exact .inl hj
  · rw [kick_busy (.inr (by rw [State.link_modLink_self]; exact hw))]
    exact .inl hj

/-- On a free wire without a frame waiting, a frame offered starts at once (R143). -/
theorem offer_starts {c : CtlFrame} (hu : (s.link l).state = .up) (hw : (s.link l).wire = none) (hc : (s.link l).control = []) :
    ((offer l c s).link l).wire = some ⟨ctlFrame s c, .control⟩ := by
  have hup : s.isUp l = true := by unfold State.isUp; rw [hu]; rfl
  unfold offer
  rw [if_pos hup, kick_control (c := c) (cs := [])]
  · rw [State.link_modLink_self]; rfl
  · rw [State.link_modLink_self]; exact hu
  · rw [State.link_modLink_self]; exact hw
  · rw [State.link_modLink_self]
    show joinControl c (s.link l).control = [c]
    rw [hc]; rfl

/-! ### The sends of RELEASE and WITHDRAW (R34, R37) -/

/-- A send counted, its reply timer started. -/
def DestRec.sentOnce (r : DestRec) : DestRec := { r with sendCount := r.sendCount + 1, timer := .running Config.replyMs }

theorem sendRelease_eq {p : Page} (hr : s.rec? i = some r) (hp : s.page? r.parent = some p) :
    sendRelease i s = offer (s.linkOf r.line) (.release i r.line p.key p.version) (s.modRec i DestRec.sentOnce) := by
  rw [sendRelease, hr]
  dsimp only
  rw [hp]
  rfl

theorem sendWithdraw_eq {p : Page} (hr : s.rec? i = some r) (hp : s.page? r.parent = some p) :
    sendWithdraw i s = offer (s.linkOf r.line) (.withdraw i r.line p.key p.version) (s.modRec i DestRec.sentOnce) := by
  rw [sendWithdraw, hr]
  dsimp only
  rw [hp]
  rfl

theorem offer_rec (l : LinkId) (c : CtlFrame) (i : Nat) (s : State) : (offer l c s).rec? i = s.rec? i := (offer_still l c (.refl s)).rec? i

theorem sendRelease_rec {p : Page} (hr : s.rec? i = some r) (hp : s.page? r.parent = some p) :
    (sendRelease i s).rec? i = some r.sentOnce := by
  rw [sendRelease_eq hr hp, offer_rec, rec_modRec_self _ hr]

theorem sendWithdraw_rec {p : Page} (hr : s.rec? i = some r) (hp : s.page? r.parent = some p) :
    (sendWithdraw i s).rec? i = some r.sentOnce := by
  rw [sendWithdraw_eq hr hp, offer_rec, rec_modRec_self _ hr]

theorem mayRelease_iff {p : Page} (hp : s.page? r.parent = some p) : mayRelease s r = true ↔
    r.state = .delivered ∧ (p.generation = 0 ∨ (s.line r.line).held = p.generation) ∧
      (∀ x, p.release = some x → x ≤ s.clock.value) ∧ (s.link (s.linkOf r.line)).state = .up := by
  have hg : s.recGen r = p.generation := by unfold State.recGen; rw [hp]
  have hx : (s.page? r.parent).bind (fun p => p.release) = p.release := by rw [hp]; rfl
  unfold mayRelease
  rw [hg, hx]
  cases p.release <;> simp [State.isUp, State.reached, and_assoc]

theorem releaseCheck_passes (hr : s.rec? i = some r) (hm : mayRelease s r = true) :
    releaseCheck i s = sendRelease i (enterReleasing i s) := by
  rw [releaseCheck, hr]
  exact if_pos hm

theorem releaseCheck_fails (hr : s.rec? i = some r) (hm : mayRelease s r = false) : releaseCheck i s = s := by
  rw [releaseCheck, hr]
  exact if_neg (by rw [hm]; decide)

theorem monitor_keeps (n : Nat) (s : State) : monitor n s = s.setDeadlines (monitor n s).deadlines := by
  unfold monitor
  split
  · rfl
  · split
    case h_7 =>
      dsimp only
      split
      · split <;> rfl
      · rfl
    all_goals rfl

/-- A change of a record leaves all but the record, the bus and the deadline list. -/
theorem applyChange_eq (n : Nat) (f : DestRec → DestRec) (s : State) : ∃ w d, applyChange n f s =
    { s.modRec n f with bus := w, deadlines := d } := by
  obtain ⟨w, hw⟩ := writeEntry_writes n (s.modRec n f)
  exact ⟨w ++ s.bus, _, by rw [applyChange, monitor_keeps, hw]; rfl⟩

theorem applyChange_page (n m : Nat) (f : DestRec → DestRec) (s : State) : (applyChange n f s).page? m = s.page? m := by
  obtain ⟨w, d, h⟩ := applyChange_eq n f s; rw [h]; rfl

theorem applyChange_link (n : Nat) (f : DestRec → DestRec) (l : LinkId) (s : State) : (applyChange n f s).link l = s.link l := by
  obtain ⟨w, d, h⟩ := applyChange_eq n f s; rw [h]; rfl

theorem applyChange_line (n : Nat) (f : DestRec → DestRec) (m : LineId) (s : State) : (applyChange n f s).line m = s.line m := by
  obtain ⟨w, d, h⟩ := applyChange_eq n f s; rw [h]; rfl

theorem applyChange_rec_self (f : DestRec → DestRec) (hr : s.rec? i = some r) : (applyChange i f s).rec? i = some (f r) := by
  rw [applyChange_rec, if_pos rfl, hr]; rfl

/-- The record that a passed release check leaves (R33, R34). -/
theorem releaseCheck_rec {p : Page} (hr : s.rec? i = some r) (hp : s.page? r.parent = some p) (hm : mayRelease s r = true) :
    (releaseCheck i s).rec? i = some { r with state := .releasing, sendCount := 1, timer := .running 2000 } := by
  have h1 : (enterReleasing i s).rec? i = some { r with state := .releasing, sendCount := 0 } := applyChange_rec_self _ hr
  rw [releaseCheck_passes hr hm, sendRelease_rec h1 ((applyChange_page _ _ _ s).trans hp)]
  rfl

end Sys2Proof.Machine
end

section
/-! A due RELEASE, resends of RELEASE and WITHDRAW, and the ends of records (O48, O49, O50; R33 to R38, R104). -/

namespace Sys2Proof.Machine

variable {s t u : State} {l : LinkId} {i : Nat} {r r' : DestRec}

/-- The run that a due head of its kind begins (R95, log entry 28). -/
theorem fireKind_head {d : DeadlineEntry} {ds : List DeadlineEntry} {k : DeadlineKind} (hd : s.deadlines = d :: ds) (hk : d.kind = k)
    (ht : d.due ≤ s.clock.value) :
    fireKind k s = fireRun startVerify (4 * ds.length + 3) (startVerify (fireEntry d (s.setDeadlines ds))) := by
  have hdue : s.reached d.due = true := decide_eq_true ht
  have hkind : dueKind k s = true := by unfold dueKind; rw [hd]; simp [hdue, hk]
  have hhead : headDue s = true := by unfold headDue; rw [hd]; exact hdue
  have hlen : 4 * s.deadlines.length = (4 * ds.length + 3) + 1 := by rw [hd, List.length_cons]; omega
  have hfire : fireHead s = fireEntry d (s.setDeadlines ds) := by unfold fireHead; rw [hd]; exact if_pos hdue
  rw [fireKind, if_pos hkind, fireDue, hlen, fireRun, if_pos hhead, hfire]

theorem fireKind_idle {k : DeadlineKind} (h : ∀ d ∈ s.deadlines.head?, d.kind ≠ k ∨ s.clock.value < d.due) : fireKind k s = s := by
  refine if_neg fun c => ?_
  unfold dueKind at c
  split at c
  · cases c
  · next d ds hd =>
    obtain ⟨hdue, hkind⟩ := (Bool.and_eq_true _ _).mp c
    obtain hk | ht := h d (by rw [hd]; rfl)
    · exact hk (beq_iff_eq.1 hkind)
    · exact Nat.not_le.2 ht (of_decide_eq_true hdue)

theorem enterReleasing_link (n : Nat) (l : LinkId) (s : State) : (enterReleasing n s).link l = s.link l := applyChange_link _ _ _ _

/-- A RELEASE that finds the wire free and no frame waiting starts at once (R34, R143). -/
theorem sendRelease_starts {p : Page} (hr : s.rec? i = some r) (hp : s.page? r.parent = some p)
    (hu : (s.link (s.linkOf r.line)).state = .up) (hw : (s.link (s.linkOf r.line)).wire = none)
    (hc : (s.link (s.linkOf r.line)).control = []) :
    ∃ f, ((sendRelease i s).link (s.linkOf r.line)).wire = some ⟨f, .control⟩ ∧ f.kind = 5 ∧ f.tag = BitVec.ofNat 16 i := by
  rw [sendRelease_eq hr hp]
  exact ⟨_, offer_starts hu hw hc, rfl, rfl⟩

theorem sendWithdraw_starts {p : Page} (hr : s.rec? i = some r) (hp : s.page? r.parent = some p)
    (hu : (s.link (s.linkOf r.line)).state = .up) (hw : (s.link (s.linkOf r.line)).wire = none)
    (hc : (s.link (s.linkOf r.line)).control = []) :
    ∃ f, ((sendWithdraw i s).link (s.linkOf r.line)).wire = some ⟨f, .control⟩ ∧ f.kind = 7 ∧ f.tag = BitVec.ofNat 16 i := by
  rw [sendWithdraw_eq hr hp]
  exact ⟨_, offer_starts hu hw hc, rfl, rfl⟩

theorem releaseCheck_starts {p : Page} (hr : s.rec? i = some r) (hp : s.page? r.parent = some p) (hm : mayRelease s r = true)
    (hw : (s.link (s.linkOf r.line)).wire = none) (hc : (s.link (s.linkOf r.line)).control = []) :
    ∃ f, ((releaseCheck i s).link (s.linkOf r.line)).wire = some ⟨f, .control⟩ ∧ f.kind = 5 ∧ f.tag = BitVec.ofNat 16 i := by
  have hk : (enterReleasing i s).linkOf r.line = s.linkOf r.line := by unfold State.linkOf enterReleasing; rw [applyChange_line]
  have h1 : (enterReleasing i s).rec? i = some { r with state := .releasing, sendCount := 0 } := applyChange_rec_self _ hr
  have hs := sendRelease_starts h1 ((applyChange_page _ _ _ s).trans hp)
  rw [hk, enterReleasing_link] at hs
  rw [releaseCheck_passes hr hm]
  exact hs ((mayRelease_iff hp).1 hm).2.2.2 hw hc

/-! ### Frames from a line -/

/-- What a frame from a line leaves until its owner has it: all but links' timers and counters, the bus, and the line's query, which
SERVICE asks for (R141, R148, R150, R157). -/
structure Hears (n : LineId) (s t : State) : Prop where
  recs : t.recs = s.recs
  pages : t.pages = s.pages
  deadlines : t.deadlines = s.deadlines
  clock : t.clock = s.clock
  seqNext : t.seqNext = s.seqNext
  line : ∀ m, ∃ q z, t.line m = { s.line m with query := q, requery := z }
  link : ∀ m, LinkStays (s.link m) (t.link m)

theorem Still.hears (h : Still s t) (n : LineId) : Hears n s t :=
  ⟨h.recs, h.pages, h.deadlines, h.clock, h.seqNext, fun m => ⟨_, _, h.line m⟩, h.links⟩

theorem Hears.trans {n : LineId} (h : Hears n s t) (k : Hears n t u) : Hears n s u where
  recs := k.recs.trans h.recs
  pages := k.pages.trans h.pages
  deadlines := k.deadlines.trans h.deadlines
  clock := k.clock.trans h.clock
  seqNext := k.seqNext.trans h.seqNext
  line m := by
    obtain ⟨q, z, e⟩ := h.line m
    obtain ⟨q', z', e'⟩ := k.line m
    exact ⟨q', z', by rw [e', e]⟩
  link m := (h.link m).trans (k.link m)

theorem Hears.rec? {n : LineId} (h : Hears n s t) (i : Nat) : t.rec? i = s.rec? i := by unfold State.rec?; rw [h.recs]

theorem Hears.page? {n : LineId} (h : Hears n s t) (i : Nat) : t.page? i = s.page? i := by unfold State.page?; rw [h.pages]

theorem Hears.held {n : LineId} (h : Hears n s t) (m : LineId) : (t.line m).held = (s.line m).held := by
  obtain ⟨q, z, e⟩ := h.line m; rw [e]

theorem Hears.linkOf {n : LineId} (h : Hears n s t) (m : LineId) : t.linkOf m = s.linkOf m := by
  obtain ⟨q, z, e⟩ := h.line m; unfold State.linkOf; rw [e]

theorem Hears.unqueued {n : LineId} (h : Hears n s t) (hu : Unqueued s i) : Unqueued t i := fun l c => hu l ((h.link l).queue ▸ c)

theorem askQuery_hears (n : LineId) (s : State) : Hears n s (askQuery n s) := by
  unfold askQuery
  split
  · refine Hears.trans (t := s.modLine n fun k => { k with query := some ⟨Config.queryMs, []⟩, requery := none }) ?_
      ((offer_still _ _ (.refl _)).hears n)
    refine ⟨rfl, rfl, rfl, rfl, rfl, fun m => ?_, fun _ => .refl _⟩
    rw [State.line_modLine]
    split
    · next e => subst e; exact ⟨_, _, rfl⟩
    · exact ⟨_, _, rfl⟩
  · exact (Still.refl s).hears n

/-- An accepted frame, counted, with the silence timer started anew and a query asked for by SERVICE (R141, R148, R150). -/
def heard (l : LinkId) (f : InFrame) (n : LineId) (s : State) : State :=
  let s := restartSilence l (s.modLink l Link.received)
  if serviceFlag f then askQuery n s else s

theorem heard_hears (l : LinkId) (f : InFrame) (n : LineId) (s : State) : Hears n s (heard l f n s) := by
  have h := (restartSilence_still l (modLink_still l Link.received (fun _ => ⟨rfl, rfl, rfl⟩) (.refl s))).hears n
  unfold heard
  dsimp only
  split
  · exact h.trans (askQuery_hears n _)
  · exact h

/-- The kinds of frame that come from a line (R149). -/
def lineKind (k : Byte) : Bool := inboundKind k && k != kindCredit && k != kindEcho && k != kindRollAnswer

theorem receive_fromLine {k : Byte} {f : InFrame} {n : LineId} (h : FromLine s l k f n) (hk : lineKind k = true) :
    receive l k f s = fromLine l k f n (heard l f n s) := by
  simp only [lineKind, Bool.and_eq_true, bne_iff_ne] at hk
  obtain ⟨⟨⟨hin, h1⟩, h2⟩, h3⟩ := hk
  have hup : ((s.modLink l Link.received).link l).state = .up := by rw [State.link_modLink_self]; exact h.up
  have hsrc : sourceOf (s.modLink l Link.received) l k f = some (.line n) := by
    unfold sourceOf
    rw [if_neg h1, if_neg (not_or.2 ⟨h2, h3⟩), show sourceLine (s.modLink l Link.received) l f.src = some n from h.source]
    rfl
  have hrec : receive l k f s = checkFrame l k f (s.modLink l Link.received) := by
    unfold receive
    rw [h.up]
    rfl
  rw [hrec, checkFrame, if_neg (by rw [h.sound]; decide), if_neg (by rw [hin, h.dest]; decide), hsrc]
  exact if_pos hup

/-- A tag of the pool's is no slot's and not none (R21, R149). -/
theorem tag_below {f : InFrame} (i : Fin 1024) (h : f.tag.toNat = i.val) : f.tag.toNat < Config.slotTagBase := h ▸ i.isLt

theorem fromLine_releaseAck {f : InFrame} {n : LineId} (h : f.tag.toNat < Config.slotTagBase) :
    fromLine l kindReleaseAck f n s = releaseAck l n f.tag.toNat s := by
  have hno : ¬ Config.noTagFrom ≤ f.tag.toNat := Nat.not_le.2 (h.trans (by decide))
  rw [fromLine, if_neg hno, if_neg (by decide), if_neg (by decide), if_neg (by decide), if_neg (Nat.not_le.2 h), if_pos rfl]

theorem fromLine_withdrawAck {f : InFrame} {n : LineId} (h : f.tag.toNat < Config.slotTagBase) :
    fromLine l kindWithdrawAck f n s = withdrawAck l n f.tag.toNat s := by
  have hno : ¬ Config.noTagFrom ≤ f.tag.toNat := Nat.not_le.2 (h.trans (by decide))
  rw [fromLine, if_neg hno, if_neg (by decide), if_neg (by decide), if_neg (by decide), if_neg (Nat.not_le.2 h), if_neg (by decide)]

/-! ### The ends of records -/

/-- Aimed at nothing but what the catalog loads for a line whose slot is idle. -/
def loading (s : State) : Aim where
  xfer x := ∃ n, x = .slot n ∧ (s.line n).slot = none

theorem loading_dest (i : Nat) : ¬ (loading s).xfer (.dest i) := fun ⟨_, h, _⟩ => Xfer.noConfusion h

theorem reexamine_loading (n : LineId) (s : State) : Acts (loading s) s (reexamine n s) :=
  reexamine_acts n trivial (fun h => ⟨n, rfl, h⟩) (.inl trivial) (.refl s)

theorem Unqueued.unpickable {a : Aim} (h : Unqueued s i) : Unpickable a s (.dest i) := .inl fun l _ => h l

/-- A record of no queue keeps all but its sequence when the catalog re-examines a line. -/
theorem reexamine_rec (n : LineId) (hr : s.rec? i = some r) (hu : Unqueued s i) :
    ∃ q, (reexamine n s).rec? i = some { r with seq := q } := by
  obtain ⟨q, _, h⟩ := (reexamine_loading n s).dest_kept (loading_dest i) hu.unpickable hr
  exact ⟨q, h⟩

theorem finish_unqueued (n : Nat) (st : DestState) (d : Detail) (h : Unqueued s i) : Unqueued (finish n st d s) i :=
  (dropControl_still _ (.refl _)).light.unqueued (applyChange_unqueued n _ h)

/-- What ends a record leaves it in its final state. -/
theorem endRec_rec (st : DestState) (d : Detail) (hr : s.rec? i = some r) (hu : Unqueued s i) : ∃ u,
    endRec i r st d s = pageEndOf i u ∧ ∃ r', u.rec? i = some r' ∧ r'.state = st ∧ r'.detail = d ∧ r'.timer = .stopped := by
  have h1 : (finish i st d s).rec? i = some { r with state := st, detail := d, timer := .stopped } := by
    rw [finish_rec, if_pos rfl, hr]; rfl
  obtain ⟨q, h2⟩ := reexamine_rec r.line h1 (finish_unqueued i st d hu)
  exact ⟨_, rfl, _, h2, rfl, rfl, rfl⟩

theorem answered_of {n : LineId} {tag : Nat} {st : DestState} (hr : s.rec? tag = some r) (hn : r.line = n) (hs : r.state = st) :
    answered s tag n st = some r := by
  rw [answered, hr]
  exact if_pos ⟨hn, hs⟩

theorem ranOut_iff {st : DestState} : ranOut r st = true ↔ r.state = st ∧ r.timer = .running 0 := by simp [ranOut]

end Sys2Proof.Machine

namespace Sys2Proof.Delivery

open Sys2Proof Sys2Proof.Machine

/-- Settles O48: the head that is due leaves the list and makes the release check of its record; a firing command without such a
head finds nothing to do. -/
theorem releaseFires : Obligations.ReleaseFires := by
  intro s
  refine ⟨fun d ds r p hd hk ht hr hp => ?_, fun c k hck h => ?_⟩
  · have hr' : (s.setDeadlines ds).rec? d.dest = some r := hr
    have hp' : (s.setDeadlines ds).page? r.parent = some p := hp
    have hmay := mayRelease_iff hp'
    have hfire : fireEntry d (s.setDeadlines ds) = releaseCheck d.dest (s.setDeadlines ds) := by rw [fireEntry, hk]; rfl
    refine ⟨releaseCheck d.dest (s.setDeadlines ds), ?_, fun hn => ?_, fun hy => ⟨?_, fun hw hc => ?_⟩⟩
    · rw [← hfire]
      exact congrArg _ (fireKind_head hd hk ht)
    · exact releaseCheck_fails hr' (Bool.eq_false_iff.2 fun c => hn (hmay.1 c))
    · exact releaseCheck_rec hr' hp' (hmay.2 hy)
    · exact releaseCheck_starts hr' hp' (hmay.2 hy) hw hc
  · simp only [List.mem_cons, Prod.mk.injEq, List.not_mem_nil, or_false] at hck
    obtain ⟨rfl, rfl⟩ | ⟨rfl, rfl⟩ | ⟨rfl, rfl⟩ := hck <;> exact congrArg _ (fireKind_idle h)

/-- Settles O49: a timer that has run out before the third send sends again; the other expiries fall through their guards. -/
theorem repliesResent : Obligations.RepliesResent := by
  intro s i r hr
  refine ⟨fun p hp ht hlt c st kind hc hst => ?_, fun c st hc h => ?_⟩
  · simp only [List.mem_cons, Prod.mk.injEq, List.not_mem_nil, or_false] at hc
    obtain ⟨rfl, rfl, rfl⟩ | ⟨rfl, rfl, rfl⟩ := hc
    · have e : releaseTimeout i.val s = sendRelease i.val s := by
        rw [releaseTimeout, hr]
        dsimp only
        rw [if_pos (ranOut_iff.2 ⟨hst, ht⟩), if_pos (by exact hlt)]
      exact ⟨_, rfl, e ▸ sendRelease_rec hr hp, fun hu hw hc => e ▸ sendRelease_starts hr hp hu hw hc⟩
    · have e : withdrawTimeout i.val s = sendWithdraw i.val s := by
        rw [withdrawTimeout, hr]
        dsimp only
        rw [if_pos (ranOut_iff.2 ⟨hst, ht⟩), if_pos (by exact hlt)]
      exact ⟨_, rfl, e ▸ sendWithdraw_rec hr hp, fun hu hw hc => e ▸ sendWithdraw_starts hr hp hu hw hc⟩
  · have hno : ∀ st, r.state ≠ st ∨ r.timer ≠ .running 0 → ranOut r st ≠ true := fun st h c =>
      h.elim (fun h => h (ranOut_iff.1 c).1) fun h => h (ranOut_iff.1 c).2
    simp only [List.mem_cons, Prod.mk.injEq, List.not_mem_nil, or_false] at hc
    obtain ⟨rfl, rfl⟩ | ⟨rfl, rfl⟩ | ⟨rfl, rfl⟩ := hc
    · refine congrArg Host.Outcome.next (show receiptTimeout i.val s = s from ?_)
      rw [receiptTimeout, hr]
      exact if_neg (hno _ h)
    · refine congrArg Host.Outcome.next (show releaseTimeout i.val s = s from ?_)
      rw [releaseTimeout, hr]
      exact if_neg (hno _ h)
    · refine congrArg Host.Outcome.next (show withdrawTimeout i.val s = s from ?_)
      rw [withdrawTimeout, hr]
      exact if_neg (hno _ h)

/-- Settles O50: each of the four ways ends in `endRec`, whose final state the catalog's re-examination leaves. -/
theorem recordsEnd : Obligations.RecordsEnd := by
  intro s i r hr hu
  dsimp only
  have ended : ∀ (c : Instr) (t : State) (st : DestState) (d : Detail), t.rec? i.val = some r → Unqueued t i.val →
      exec c s = .next (endRec i.val r st d t) → ∃ u, exec c s = .next (pageEndOf i.val u) ∧
        ∃ r', u.rec? i.val = some r' ∧ r'.state = st ∧ r'.detail = d ∧ r'.timer = .stopped := by
    intro c t st d ht hut he
    obtain ⟨u, hu, h⟩ := endRec_rec st d ht hut
    exact ⟨u, hu ▸ he, h⟩
  refine ⟨fun l f hf htag hst => ?_, fun l f x d hf htag hst hx => ?_, fun ht hc => ⟨fun hst => ?_, fun x d hst hx => ?_⟩⟩
  · have hh := heard_hears l f r.line s
    have hr' := (hh.rec? i.val).trans hr
    refine ended _ _ _ _ hr' (hh.unqueued hu) (congrArg _ ((receive_fromLine hf rfl).trans ?_))
    rw [show (6 : Byte) = kindReleaseAck from rfl, fromLine_releaseAck (tag_below i htag), htag, releaseAck, answered_of hr' rfl hst]
  · have hh := heard_hears l f r.line s
    have hr' := (hh.rec? i.val).trans hr
    refine ended _ _ _ _ hr' (hh.unqueued hu) (congrArg _ ((receive_fromLine hf rfl).trans ?_))
    rw [show (8 : Byte) = kindWithdrawAck from rfl, fromLine_withdrawAck (tag_below i htag), htag, withdrawAck,
      answered_of hr' rfl hst]
    dsimp only
    rw [hx]
  · refine ended _ s _ _ hr hu (congrArg Host.Outcome.next (show releaseTimeout i.val s = _ from ?_))
    rw [releaseTimeout, hr]
    dsimp only
    rw [if_pos (ranOut_iff.2 ⟨hst, ht⟩), if_neg (by exact Nat.not_lt.2 hc)]
  · refine ended _ s _ _ hr hu (congrArg Host.Outcome.next (show withdrawTimeout i.val s = _ from ?_))
    rw [withdrawTimeout, hr]
    dsimp only
    rw [if_pos (ranOut_iff.2 ⟨hst, ht⟩), if_neg (by exact Nat.not_lt.2 hc), hx]

end Sys2Proof.Delivery
end

section
/-! What placing makes of a record that stands in no queue, field by field (R25, R30, R31, R36, R75, R85). -/

namespace Sys2Proof.Machine

variable {s t u : State} {l : LinkId} {i : Nat} {r r' q : DestRec} {x : RetractEnd} {d : Detail}

/-! ### Picks and joins -/

/-- Aimed at nothing: the runs of picks and writes. -/
def picking : Aim where
  xfer _ := False
  line _ := False
  keys _ := False
  reseq := False
  frames := False

theorem pick_picking (l : LinkId) (s : State) : Acts picking s (pick l s) := pick_acts l (.refl s)

/-- A pick leaves a record, or makes it SENDING from its acked offset on (R78). -/
theorem pick_rec (l : LinkId) (hr : s.rec? i = some r) :
    (pick l s).rec? i = some r ∨ (pick l s).rec? i = some { r with state := .sending, sent := r.acked } := by
  obtain ⟨r', hr', v, hv, h⟩ := (pick_picking l s).dest_held (i := i) id hr
  obtain rfl : v = r.seq := hv.resolve_left id
  obtain rfl | rfl := h
  · exact .inl hr'
  · exact .inr hr'

/-- A pick leaves a record of no queue. -/
theorem pick_rec_unqueued (l : LinkId) (hr : s.rec? i = some r) (hu : Unqueued s i) : (pick l s).rec? i = some r := by
  obtain ⟨v, hv, h⟩ := (pick_picking l s).dest_kept (i := i) id hu.unpickable hr
  obtain rfl : v = r.seq := hv.resolve_left id
  exact h

theorem pick_seqNext (l : LinkId) (s : State) : (pick l s).seqNext = s.seqNext := by
  unfold pick
  dsimp only
  split
  · split
    · next x _ =>
      refine (kick_still l (.inr (beginSending_openOwed l x s)) (.refl _)).seqNext.trans ((beginSending_still l x s).seqNext.trans ?_)
      cases x <;> rfl
    · rfl
  · rfl

theorem renumberFrom_rec (k : Nat) (xs : List Xfer) (hr : s.rec? i = some r) :
    ∃ v, (renumberFrom k xs s).rec? i = some { r with seq := v } := by
  induction xs generalizing k s r with
  | nil => exact ⟨r.seq, hr⟩
  | cons y ys ih =>
    have hset : ∃ v, (setSeq y k s).rec? i = some { r with seq := v } := by
      cases y with
      | slot n => exact ⟨r.seq, hr⟩
      | dest n =>
        by_cases e : i = n
        · subst e; exact ⟨k, rec_modRec_self (fun r => { r with seq := k }) hr⟩
        · exact ⟨r.seq, (rec_modRec s n i _).trans ((if_neg e).trans hr)⟩
    obtain ⟨v, hv⟩ := hset
    obtain ⟨w, hw⟩ := ih (k + 1) hv
    exact ⟨w, hw⟩

theorem roomForSeq_below (h : s.seqNext < Config.maxU32) : roomForSeq s = s := if_neg (Nat.not_le.2 h)

theorem takeSeq_rec (hr : s.rec? i = some r) : (takeSeq (.dest i) s).rec? i = some { r with seq := (roomForSeq s).seqNext } := by
  have hroom : ∃ v, (roomForSeq s).rec? i = some { r with seq := v } := by
    unfold roomForSeq
    split
    · exact renumberFrom_rec 0 _ hr
    · exact ⟨r.seq, hr⟩
  obtain ⟨v, hv⟩ := hroom
  have h := rec_modRec_self (s := roomForSeq s) (fun r => { r with seq := (roomForSeq s).seqNext }) hv
  exact h

theorem countLate_still (x : Xfer) (s : State) : Still s (countLate x s) := by
  unfold countLate
  split
  · exact bumpCounter_still _ (.refl s)
  · exact .refl s

theorem joinQueue_rec (l : LinkId) (hr : s.rec? i = some r) :
    (joinQueue l (.dest i) s).rec? i = some { r with seq := (roomForSeq s).seqNext } := by
  rw [joinQueue_eq, (schedMirror_still l (countLate_still _ _)).rec?]
  exact takeSeq_rec hr

theorem joinQueue_seqNext (l : LinkId) (x : Xfer) (s : State) : (joinQueue l x s).seqNext = (roomForSeq s).seqNext + 1 := by
  rw [joinQueue_eq, (schedMirror_still l (countLate_still _ _)).seqNext]
  rfl

/-! ### Retraction -/

/-- A retraction changes of a record its state, its detail, its retract cause, its reply timer and its sends. -/
def Recast (r r' : DestRec) : Prop :=
  ∃ st d x tm n, r' = { r with state := st, detail := d, retract := x, timer := tm, sendCount := n }

theorem Recast.refl (r : DestRec) : Recast r r := ⟨_, _, _, _, _, rfl⟩

theorem Recast.trans (h : Recast r r') (k : Recast r' q) : Recast r q := by
  obtain ⟨_, _, _, _, _, rfl⟩ := h
  obtain ⟨st, d, x, tm, n, rfl⟩ := k
  exact ⟨st, d, x, tm, n, rfl⟩

theorem sendWithdraw_recast (hr : s.rec? i = some r) : ∃ r', (sendWithdraw i s).rec? i = some r' ∧ Recast r r' := by
  cases hp : s.page? r.parent with
  | none =>
    refine ⟨r, ?_, .refl r⟩
    rw [sendWithdraw, hr]
    dsimp only
    rw [hp]
    exact hr
  | some p => exact ⟨_, sendWithdraw_rec hr hp, _, _, _, _, _, rfl⟩

theorem takeBack_recast (r0 : DestRec) (hr : s.rec? i = some r) : ∃ r', (takeBack i r0 x d s).rec? i = some r' ∧ Recast r r' := by
  unfold takeBack
  split
  · have h1 : (dropControl (isRelease i) (applyChange i (fun q => { q with
        state := .withdrawing, detail := .none, retract := some (x, d), timer := .stopped, sendCount := 0 }) s)).rec? i =
          some { r with state := .withdrawing, detail := .none, retract := some (x, d), timer := .stopped, sendCount := 0 } := by
      rw [(dropControl_still _ (.refl _)).rec?]
      exact applyChange_rec_self _ hr
    unfold sendOwedWithdraw
    rw [h1]
    dsimp only
    split
    · obtain ⟨r', hr', h⟩ := sendWithdraw_recast h1
      exact ⟨r', hr', Recast.trans ⟨_, _, _, _, _, rfl⟩ h⟩
    · exact ⟨_, h1, _, _, _, _, _, rfl⟩
  · refine ⟨_, (finish_rec i i _ _ s).trans ((if_pos rfl).trans (congrArg _ hr)), _, _, _, _, _, rfl⟩

/-- What a retraction makes of a record in its place, which stands in no queue after it. -/
theorem retract_recast (hr : s.rec? i = some r) (hi : InPlace s i r) :
    ∃ r', (retract i x d s).rec? i = some r' ∧ Recast r r' ∧ Retracted r r' x d ∧ r'.Gone ∧ Unqueued (retract i x d s) i := by
  obtain ⟨r', hr', _, hret, hg, hi'⟩ := retract_rec (x := x) (d := d) hr hi
  refine ⟨r', hr', ?_, hret, hg, hi'.unqueued hg.not_queued⟩
  by_cases hgone : r.Gone
  · have e : retract i x d s = s := by rw [retract, hr]; exact if_pos hgone
    rw [e, hr] at hr'
    exact Option.some.inj hr' ▸ .refl r
  · have h0 := (detachRec_rec i i s).trans hr
    obtain ⟨r1, h1, hc⟩ := takeBack_recast (x := x) (d := d) r h0
    obtain ⟨r2, h2, _, _, _, hu⟩ := takeBack_rec (x := x) (d := d) h0 (detachRec_unqueued hr hi) hgone
    have e : retract i x d s = if r.state = .sending then pick (s.linkOf r.line) (takeBack i r x d (detachRec i s))
        else takeBack i r x d (detachRec i s) := by
      rw [retract, hr]; exact if_neg hgone
    rw [e] at hr'
    split at hr'
    · rw [pick_rec_unqueued _ h1 hu] at hr'
      exact Option.some.inj hr' ▸ hc
    · rw [h1] at hr'
      exact Option.some.inj hr' ▸ hc

/-! ### Placing (R25) -/

/-- What placing makes of a record, by the place found for it; where a queue took it, it may have been picked since. -/
structure PlacedBack (s : State) (r r' : DestRec) : Prop where
  line : r'.line = r.line
  parent : r'.parent = r.parent
  attempts : r'.attempts = r.attempts
  acked : r'.acked = r.acked
  sent : r'.sent = r.sent ∨ r'.sent = r.acked
  queued : placement s r = .queued → (r'.state = .queued ∨ r'.state = .sending) ∧ r'.timer = .stopped ∧
    (s.seqNext + 1 < Config.maxU32 → r'.seq = s.seqNext)
  targetWait : placement s r = .targetWait → r'.state = .targetWait
  ended : ∀ x d, placement s r = .ended x d → Retracted r r' x d

/-- No pick can have an effect on a record but to make it SENDING from where it is QUEUED or SENDING. -/
def Steady (t : State) (i : Nat) (r : DestRec) : Prop := r.state = .queued ∨ r.state = .sending ∨ Unqueued t i

/-- A record placed stays placed through what is not aimed at it. -/
theorem PlacedBack.later {a : Aim} (h : PlacedBack s r r') (hr : t.rec? i = some r') (hs : Steady t i r') (k : Acts a t u)
    (hi : ¬ a.xfer (.dest i)) (hseq : a.reseq → ¬ s.seqNext + 1 < Config.maxU32) :
    ∃ q, u.rec? i = some q ∧ PlacedBack s r q ∧ Steady u i q := by
  have still : ∀ v, (a.reseq ∨ v = r'.seq) → PlacedBack s r { r' with seq := v } := fun v hv =>
    { line := h.line, parent := h.parent, attempts := h.attempts, acked := h.acked, sent := h.sent, targetWait := h.targetWait
      queued := fun e => ⟨(h.queued e).1, (h.queued e).2.1, fun hlt =>
        (hv.resolve_left fun c => hseq c hlt).trans ((h.queued e).2.2 hlt)⟩
      ended := h.ended }
  have picked : ∀ v, (a.reseq ∨ v = r'.seq) → r'.state = .queued ∨ r'.state = .sending →
      PlacedBack s r { r' with seq := v, state := .sending, sent := r'.acked } := fun v hv hst =>
    { still v hv with
      sent := .inr h.acked
      queued := fun e => ⟨.inr rfl, (h.queued e).2.1, fun hlt =>
        (hv.resolve_left fun c => hseq c hlt).trans ((h.queued e).2.2 hlt)⟩
      targetWait := fun e => by rw [h.targetWait e] at hst; obtain c | c := hst <;> cases c
      ended := fun x d e => by
        have hret := h.ended x d e
        unfold Retracted at hret ⊢
        split at hret
        · next hg =>
          rw [if_pos hg]
          rw [hret.1] at hst
          obtain hg | hg := hg <;> obtain c | c := hst <;> rw [c] at hg <;> cases hg
        · next hg =>
          rw [if_neg hg]
          split at hret
          · rw [hret.1] at hst; obtain c | c := hst <;> cases c
          · rw [hret.1] at hst
            cases x <;> obtain c | c := hst <;> cases c }
  by_cases hst : r'.state = .queued ∨ r'.state = .sending
  · obtain ⟨q, hq, v, hv, rfl | rfl⟩ := k.dest_held hi hr
    · exact ⟨_, hq, still v hv, or_assoc.1 (.inl hst)⟩
    · exact ⟨_, hq, picked v hv hst, .inr (.inl rfl)⟩
  · have hu : Unqueued t i := (or_assoc.2 hs).resolve_left hst
    obtain ⟨v, hv, hq⟩ := k.dest_kept hi hu.unpickable hr
    exact ⟨_, hq, still v hv, .inr (.inr fun l c => hu l ((k.frame.queue l _ c).resolve_right hi))⟩

theorem updateL_rec_latest (hr : s.rec? i = some r) : ∃ v, (updateL i s).rec? i = some { r with latestStart := v } := by
  rw [updateL, hr]
  exact ⟨_, rec_modRec_self _ hr⟩

theorem placeRaw_queued (hr : s.rec? i = some r) (hp : placement s r = .queued) : placeRaw i s =
    pick (s.linkOf r.line) (applyChange i id (joinQueue (s.linkOf r.line) (.dest i)
      (updateL i (s.modRec i fun q => { q with state := .queued, timer := .stopped })))) := by
  rw [placeRaw, hr]
  dsimp only
  rw [hp]

theorem placeRaw_targetWait (hr : s.rec? i = some r) (hp : placement s r = .targetWait) : placeRaw i s =
    applyChange i id (updateL i (s.modRec i fun q => { q with state := .targetWait, timer := .stopped })) := by
  rw [placeRaw, hr]
  dsimp only
  rw [hp]

theorem placeRaw_ended (hr : s.rec? i = some r) (hp : placement s r = .ended x d) : placeRaw i s = retract i x d s := by
  rw [placeRaw, hr]
  dsimp only
  rw [hp]

/-- A record that placing sends to a queue, as it stands before its link picks. -/
theorem joined_rec (hr : s.rec? i = some r) : ∃ v n, (s.seqNext < Config.maxU32 → n = s.seqNext) ∧
    (applyChange i id (joinQueue l (.dest i) (updateL i (s.modRec i fun q => { q with state := .queued, timer := .stopped })))).rec? i =
      some { r with state := .queued, timer := .stopped, latestStart := v, seq := n } := by
  obtain ⟨v, hv⟩ := updateL_rec_latest (rec_modRec_self (fun q => { q with state := .queued, timer := .stopped }) hr)
  have hroom : s.seqNext < Config.maxU32 → (roomForSeq (updateL i (s.modRec i fun q =>
      { q with state := .queued, timer := .stopped }))).seqNext = s.seqNext := fun h => by
    rw [roomForSeq_below (by rw [updateL_seqNext]; exact h), updateL_seqNext]; rfl
  exact ⟨v, _, hroom, applyChange_rec_self id (joinQueue_rec l hv)⟩

theorem applyChange_seqNext (n : Nat) (f : DestRec → DestRec) (s : State) : (applyChange n f s).seqNext = s.seqNext := by
  obtain ⟨w, d, h⟩ := applyChange_eq n f s; rw [h]; rfl

/-- A record of no queue is placed by the table. -/
theorem placeRaw_back (hr : s.rec? i = some r) (hu : Unqueued s i) :
    ∃ r', (placeRaw i s).rec? i = some r' ∧ PlacedBack s r r' ∧ Steady (placeRaw i s) i r' := by
  cases hp : placement s r with
  | queued =>
    rw [placeRaw_queued hr hp]
    obtain ⟨v, n, hn, h1⟩ := joined_rec (l := s.linkOf r.line) hr
    have back : ∀ st w, (st = DestState.queued ∨ st = .sending) → (w = r.sent ∨ w = r.acked) → PlacedBack s r { r with
        state := st, timer := .stopped, latestStart := v, seq := n, sent := w } := fun st w hst hw =>
      { line := rfl, parent := rfl, attempts := rfl, acked := rfl, sent := hw
        queued := fun _ => ⟨hst, rfl, fun hlt => hn (Nat.lt_of_succ_lt hlt)⟩
        targetWait := fun e => by rw [hp] at e; cases e
        ended := fun x d e => by rw [hp] at e; cases e }
    obtain h2 | h2 := pick_rec (s.linkOf r.line) h1
    · exact ⟨_, h2, back _ _ (.inl rfl) (.inl rfl), .inl rfl⟩
    · exact ⟨_, h2, back _ _ (.inr rfl) (.inr rfl), .inr (.inl rfl)⟩
  | targetWait =>
    rw [placeRaw_targetWait hr hp]
    obtain ⟨v, hv⟩ := updateL_rec_latest (rec_modRec_self (fun q => { q with state := .targetWait, timer := .stopped }) hr)
    refine ⟨_, applyChange_rec_self id hv, ?_, .inr (.inr (applyChange_unqueued i id fun l => ?_))⟩
    · exact { line := rfl, parent := rfl, attempts := rfl, acked := rfl, sent := .inl rfl
              queued := fun e => by rw [hp] at e; cases e
              targetWait := fun _ => rfl
              ended := fun x d e => by rw [hp] at e; cases e }
    · rw [updateL_link]
      exact hu l
  | ended x d =>
    rw [placeRaw_ended hr hp]
    obtain ⟨r', hr', ⟨st, e, y, tm, n, rfl⟩, hret, _, hu'⟩ := retract_recast (x := x) (d := d) hr hu.inPlace
    refine ⟨_, hr', ?_, .inr (.inr hu')⟩
    exact { line := rfl, parent := rfl, attempts := rfl, acked := rfl, sent := .inl rfl
            queued := fun e => by rw [hp] at e; cases e
            targetWait := fun e => by rw [hp] at e; cases e
            ended := fun x' d' e => by rw [hp] at e; cases e; exact hret }

theorem placeRaw_seqNext (hr : s.rec? i = some r) (hp : placement s r = .queued) :
    s.seqNext < Config.maxU32 → (placeRaw i s).seqNext = s.seqNext + 1 := fun h => by
  rw [placeRaw_queued hr hp, pick_seqNext, applyChange_seqNext, joinQueue_seqNext,
    roomForSeq_below (by rw [updateL_seqNext]; exact h), updateL_seqNext]
  rfl

/-- Aimed at what the catalog loads where a slot is idle, and renumbering only where `n` leaves no room. -/
def loadingFrom (n : Nat) (s : State) : Aim where
  xfer x := ∃ m, x = .slot m ∧ (s.line m).slot = none
  reseq := ¬ n < Config.maxU32

theorem loadingFrom_dest (n i : Nat) : ¬ (loadingFrom n s).xfer (.dest i) := fun ⟨_, h, _⟩ => Xfer.noConfusion h

theorem reexamine_loadingFrom (n : Nat) (m : LineId) (h : n < Config.maxU32 → s.seqNext < Config.maxU32) :
    Acts (loadingFrom n s) s (reexamine m s) :=
  reexamine_acts m trivial (fun h => ⟨m, rfl, h⟩) ((em (n < Config.maxU32)).elim (fun c => .inr (h c)) .inl) (.refl s)

theorem PlacedBack.of_ne (h : PlacedBack s r r') (hp : placement s r ≠ .queued) {n : Nat} : PlacedBack { s with seqNext := n } r r' :=
  { h with queued := fun e => absurd e hp }

/-- Placing of a record that stands in no queue, the catalog's re-examination of its line with it (R24, R25). -/
theorem place_back (hr : s.rec? i = some r) (hu : Unqueued s i) :
    ∃ r', (place i s).rec? i = some r' ∧ PlacedBack s r r' ∧ Steady (place i s) i r' := by
  obtain ⟨r1, h1, hb, hs⟩ := placeRaw_back hr hu
  have e : place i s = reexamine r.line (placeRaw i s) := by rw [place, hr]
  rw [e]
  by_cases hp : placement s r = .queued
  · have k := reexamine_loadingFrom (s := placeRaw i s) (s.seqNext + 1) r.line fun c => by
      rw [placeRaw_seqNext hr hp (Nat.lt_of_succ_lt c)]; exact c
    exact hb.later h1 hs k (loadingFrom_dest _ i) id
  · have k := reexamine_loading r.line (placeRaw i s)
    obtain ⟨q, hq, hb', hs'⟩ := (hb.of_ne hp (n := Config.maxU32)).later h1 hs k (loading_dest i) fun _ =>
      Nat.not_lt.2 (Nat.le_succ _)
    exact ⟨q, hq, { hb' with queued := fun e => absurd e hp }, hs'⟩

end Sys2Proof.Machine
end

section
/-! A page receipt and its absence (O51; R29, R30, R33, R94, R104). -/

namespace Sys2Proof.Machine

variable {s t u : State} {l : LinkId} {i : Nat} {r r' : DestRec} {p : Page}

theorem recGen_eq (hp : s.page? r.parent = some p) : s.recGen r = p.generation := by unfold State.recGen; rw [hp]

/-- A line that holds the generation, or a page that asks for none: placing sends the record to the queue (R25). -/
theorem placement_queued (hp : s.page? r.parent = some p) (h : p.generation = 0 ∨ (s.line r.line).held = p.generation) :
    placement s r = .queued := by
  unfold placement
  rw [recGen_eq hp]
  exact if_pos h

theorem sourceLine_link {n : LineId} {src : Byte} (h : sourceLine s l src = some n) : (s.line n).enabled = true ∧ s.linkOf n = l := by
  unfold sourceLine at h
  split at h
  · cases h
  · have hm := (List.mem_filter.1 (List.mem_of_find?_eq_some h)).2
    exact ⟨((Bool.and_eq_true _ _).mp hm).1, beq_iff_eq.1 ((Bool.and_eq_true _ _).mp hm).2⟩

/-- The deadline list after a record has been DELIVERED: its entry gone but for a RELEASE at a release time to come. -/
def redue (s : State) (i : Nat) (release : Option Nat) : List DeadlineEntry :=
  let rest := s.deadlines.filter fun e => e.dest != i
  match release with
  | some x => if s.clock.value < x then insertDue ⟨x, i, .release⟩ rest else rest
  | none => rest

/-- The entry of a record that has been DELIVERED gives way to a RELEASE where its release time is to come (R94, R104). -/
theorem monitor_delivered (hr : s.rec? i = some r) (hs : r.state = .delivered) (hp : s.page? r.parent = some p) :
    (monitor i s).deadlines =
      redue s i p.release := by
  have hx : (s.page? r.parent).bind (fun p => p.release) = p.release := by rw [hp]; rfl
  unfold monitor
  rw [hr]
  dsimp only
  rw [hs]
  dsimp only
  rw [show (removeDeadline i s).page? r.parent = s.page? r.parent from rfl, hx]
  unfold redue
  cases p.release with
  | none => rfl
  | some x =>
    by_cases hlt : s.clock.value < x
    · have hr : (removeDeadline i s).reached x = false := decide_eq_false (Nat.not_le.2 hlt)
      simp only [hr, hlt, if_true]
      rfl
    · have hr : (removeDeadline i s).reached x = true := decide_eq_true (Nat.not_lt.1 hlt)
      simp only [hr, hlt, if_true, if_false]
      rfl

/-- What a good receipt makes of a record (R29). -/
def delivered (size : Nat) (r : DestRec) : DestRec := { r with state := .delivered, acked := size, timer := .stopped }

theorem deliver_eq (hr : s.rec? i = some r) (hp : s.page? r.parent = some p) :
    deliver i s = releaseCheck i (applyChange i (delivered p.size) s) := by
  rw [deliver, hr]
  dsimp only
  rw [hp]
  rfl

theorem applyChange_delivered_deadlines (hr : s.rec? i = some r) (hp : s.page? r.parent = some p) (size : Nat) :
    (applyChange i (delivered size) s).deadlines =
      redue s i p.release := by
  have hw := writeEntry_still i (Still.refl (s.modRec i (delivered size)))
  have h1 : (writeEntry i (s.modRec i (delivered size))).rec? i = some (delivered size r) :=
    (hw.rec? i).trans (rec_modRec_self _ hr)
  have h := monitor_delivered h1 rfl ((hw.page? r.parent).trans hp)
  unfold redue at h
  rw [hw.deadlines, hw.clock] at h
  exact h

/-- A good receipt on an UP link: DELIVERED, its RELEASE entered, or RELEASING at once (R29, R33, R34). -/
theorem deliver_rec (hr : s.rec? i = some r) (hp : s.page? r.parent = some p) (hu : (s.link (s.linkOf r.line)).state = .up) :
    ∃ r', (deliver i s).rec? i = some r' ∧ r'.acked = p.size ∧
      if (p.generation = 0 ∨ (s.line r.line).held = p.generation) ∧ (∀ x, p.release = some x → x ≤ s.clock.value)
      then r'.state = .releasing ∧ r'.sendCount = 1 ∧ r'.timer = .running 2000
      else r'.state = .delivered ∧ r'.timer = .stopped ∧ (deliver i s).deadlines =
        redue s i p.release := by
  have h1 : (applyChange i (delivered p.size) s).rec? i = some (delivered p.size r) := applyChange_rec_self _ hr
  have hp1 : (applyChange i (delivered p.size) s).page? (delivered p.size r).parent = some p := (applyChange_page _ _ _ s).trans hp
  have hclock : (applyChange i (delivered p.size) s).clock = s.clock := by
    obtain ⟨w, d, h⟩ := applyChange_eq i (delivered p.size) s; rw [h]; rfl
  have hmay := mayRelease_iff hp1
  rw [hclock, State.linkOf, applyChange_line, applyChange_link] at hmay
  rw [deliver_eq hr hp]
  by_cases hpass : (p.generation = 0 ∨ (s.line r.line).held = p.generation) ∧ ∀ x, p.release = some x → x ≤ s.clock.value
  · refine ⟨_, releaseCheck_rec h1 hp1 (hmay.2 ⟨rfl, hpass.1, hpass.2, hu⟩), rfl, ?_⟩
    rw [if_pos hpass]
    exact ⟨rfl, rfl, rfl⟩
  · have hno : mayRelease (applyChange i (delivered p.size) s) (delivered p.size r) = false :=
      Bool.eq_false_iff.2 fun c => hpass ⟨(hmay.1 c).2.1, (hmay.1 c).2.2.1⟩
    rw [releaseCheck_fails h1 hno]
    refine ⟨_, h1, rfl, ?_⟩
    rw [if_neg hpass]
    exact ⟨rfl, rfl, applyChange_delivered_deadlines hr hp p.size⟩

/-- What the third failed attempt, or one before it, makes of a record (R30). -/
structure AttemptJudged (s : State) (r : DestRec) (p : Page) (r' : DestRec) : Prop where
  attempts : r'.attempts = r.attempts + 1
  failed : 2 ≤ r.attempts → r'.state = .failed ∧ r'.detail = .noGoodReceipt
  again : r.attempts < 2 → r'.sent = 0 ∧ r'.acked = 0 ∧
    (p.generation = 0 ∨ (s.line r.line).held = p.generation → (r'.state = .queued ∨ r'.state = .sending) ∧
      (s.seqNext + 1 < 4294967295 → r'.seq = s.seqNext))

theorem attemptFailed_judged (hr : s.rec? i = some r) (hp : s.page? r.parent = some p) (hu : Unqueued s i) :
    ∃ r', (attemptFailed i s).rec? i = some r' ∧ AttemptJudged s r p r' := by
  by_cases h3 : Config.maxAttempts ≤ r.attempts + 1
  · have h0 := rec_modRec_self (fun q => { q with attempts := q.attempts + 1 }) hr
    have h1 : (finish i .failed .noGoodReceipt (s.modRec i fun q => { q with attempts := q.attempts + 1 })).rec? i =
        some { r with attempts := r.attempts + 1, state := .failed, detail := .noGoodReceipt, timer := .stopped } := by
      rw [finish_rec, if_pos rfl, h0]; rfl
    obtain ⟨v, h2⟩ := reexamine_rec r.line h1 (finish_unqueued i _ _ hu)
    have e : attemptFailed i s = reexamine r.line (finish i .failed .noGoodReceipt
        (s.modRec i fun q => { q with attempts := q.attempts + 1 })) := by
      rw [attemptFailed, hr]
      exact if_pos h3
    rw [e]
    exact ⟨_, h2, rfl, fun _ => ⟨rfl, rfl⟩, fun hlt => absurd h3 (Nat.not_le.2 (Nat.succ_lt_succ hlt))⟩
  · have h0 := rec_modRec_self (fun q => { q with attempts := q.attempts + 1, acked := 0, sent := 0 }) hr
    obtain ⟨r', h1, hb, _⟩ := place_back h0 hu
    have e : attemptFailed i s = place i (s.modRec i fun q => { q with attempts := q.attempts + 1, acked := 0, sent := 0 }) := by
      rw [attemptFailed, hr]
      exact if_neg h3
    rw [e]
    refine ⟨r', h1, hb.attempts, fun h2 => absurd (Nat.succ_le_succ h2) h3, fun _ => ⟨?_, hb.acked, fun hg => ?_⟩⟩
    · exact hb.sent.elim id id
    · obtain ⟨hst, _, hseq⟩ := hb.queued (placement_queued (p := p) hp hg)
      exact ⟨hst, hseq⟩

/-- A RECEIPT without TARGET of a pool's tag goes to the pool (R149). -/
theorem fromLine_receipt {f : InFrame} {n : LineId} (h : f.tag.toNat < Config.slotTagBase) (ht : f.flags.getLsbD 2 = false) :
    fromLine l kindReceipt f n s = receipt l n f.tag.toNat (goodFlag f) s := by
  have hno : ¬ Config.noTagFrom ≤ f.tag.toNat := Nat.not_le.2 (h.trans (by decide))
  rw [fromLine, if_neg hno, if_neg (by decide), if_neg (by decide), if_pos rfl, targetFlag, bitSet, ht]
  rfl

end Sys2Proof.Machine

namespace Sys2Proof.Delivery

open Sys2Proof Sys2Proof.Machine

/-- Settles O51: the frame reaches the pool with record, page and queues as they were; a good receipt ends in the release check, the
others in `attemptFailed`. -/
theorem receiptJudged : Obligations.ReceiptJudged := by
  intro s i r p hr hp hst hu
  dsimp only
  refine ⟨fun l f hf htarget htag c hc => ?_, fun ht => ?_⟩
  · have hh := heard_hears l f r.line s
    have hr' := (hh.rec? i.val).trans hr
    have hp' := (hh.page? r.parent).trans hp
    have hexec : exec c s = .next (receipt l r.line i.val (goodFlag f) (heard l f r.line s)) := by
      have e : receive l kindReceipt f s = receipt l r.line i.val (goodFlag f) (heard l f r.line s) := by
        rw [receive_fromLine (k := kindReceipt) hf rfl, fromLine_receipt (tag_below i htag) htarget, htag]
      simp only [List.mem_cons, List.not_mem_nil, or_false] at hc
      obtain rfl | rfl := hc <;> exact congrArg _ e
    rw [receipt, answered_of hr' rfl hst] at hexec
    refine ⟨fun hgood => ?_, fun hbad => ?_⟩
    · have hup : ((heard l f r.line s).link ((heard l f r.line s).linkOf r.line)).state = .up := by
        rw [hh.linkOf, (hh.link _).state, (sourceLine_link hf.source).2]
        exact hf.up
      obtain ⟨r', h1, hack, h2⟩ := deliver_rec hr' hp' hup
      rw [goodFlag, bitSet, hgood] at hexec
      unfold redue at h2
      rw [hh.held, hh.clock, hh.deadlines] at h2
      exact ⟨_, hexec, r', h1, hack, h2⟩
    · obtain ⟨r', h1, ha, h2, h3⟩ := attemptFailed_judged hr' hp' (hh.unqueued hu)
      rw [goodFlag, bitSet, hbad] at hexec
      rw [hh.held, hh.seqNext] at h3
      exact ⟨_, hexec, r', h1, ha, h2, h3⟩
  · obtain ⟨r', h1, ha, h2, h3⟩ := attemptFailed_judged hr hp hu
    refine ⟨_, congrArg Host.Outcome.next (show receiptTimeout i.val s = _ from ?_), r', h1, ha, h2, h3⟩
    rw [receiptTimeout, hr]
    exact if_pos (ranOut_iff.2 ⟨hst, ht⟩)

end Sys2Proof.Delivery
end

section
/-! A link's sends: what the start of a frame can change, the facts of a transfer under it, rewinds, and the bytes of a DATA frame
(R28, R59, R78 to R83, R143, R144). -/

namespace Sys2Proof.Machine

variable {s t u : State} {l m : LinkId} {x y : Xfer} {v v' : XferInfo}

/-! ### The facts of a transfer (R78, R79) -/

/-- The facts of a record's transfer. -/
def destInfo (r : DestRec) (p : Page) : XferInfo :=
  ⟨r.line, p.size, p.extents, p.computedCrc.getD 0, r.sent, r.acked, r.siteHasData, false, identityBlock p.key p.version p.generation⟩

/-- The facts of a slot's transfer. -/
def slotInfo (n : LineId) (sl : Slot) (e : CatEntry) : XferInfo :=
  ⟨n, e.size, e.extents, e.computedCrc.getD 0, sl.sent, sl.acked, sl.siteHasData, true, targetIdentity sl.generation⟩

theorem xferInfo_dest_iff {j : Nat} : xferInfo s (.dest j) = some v ↔
    ∃ r p, s.rec? j = some r ∧ s.page? r.parent = some p ∧ v = destInfo r p := by
  unfold xferInfo
  dsimp only
  cases hr : s.rec? j with
  | none => exact ⟨nofun, fun ⟨_, _, h, _⟩ => nomatch h⟩
  | some r =>
    dsimp only
    cases hp : s.page? r.parent with
    | none => exact ⟨nofun, fun ⟨_, _, h, h', _⟩ => by cases h; rw [hp] at h'; cases h'⟩
    | some p =>
      refine ⟨fun h => ⟨r, p, rfl, hp, (Option.some.inj h).symm⟩, fun ⟨_, _, h, h', e⟩ => ?_⟩
      cases h
      rw [hp] at h'
      cases h'
      exact congrArg some e.symm

theorem xferInfo_slot_iff {n : LineId} : xferInfo s (.slot n) = some v ↔
    ∃ sl e, (s.line n).slot = some sl ∧ (s.line n).entry sl.generation = some e ∧ v = slotInfo n sl e := by
  unfold xferInfo
  dsimp only
  cases hs : (s.line n).slot with
  | none => exact ⟨nofun, fun ⟨_, _, h, _⟩ => nomatch h⟩
  | some sl =>
    dsimp only
    cases he : (s.line n).entry sl.generation with
    | none => exact ⟨nofun, fun ⟨_, _, h, h', _⟩ => by cases h; rw [he] at h'; cases h'⟩
    | some e =>
      refine ⟨fun h => ⟨sl, e, rfl, he, (Option.some.inj h).symm⟩, fun ⟨_, _, h, h', e'⟩ => ?_⟩
      cases h
      rw [he] at h'
      cases h'
      exact congrArg some e'.symm

theorem Still.xferInfo (h : Still s t) (x : Xfer) : xferInfo t x = xferInfo s x := by
  cases x with
  | dest j => unfold Machine.xferInfo; simp only [h.rec?, h.page?]
  | slot n => unfold Machine.xferInfo; simp only [h.line]

@[simp] theorem xferInfo_modLink (l : LinkId) (f : Link → Link) (x : Xfer) (s : State) : xferInfo (s.modLink l f) x = xferInfo s x := by
  cases x <;> rfl

theorem slot_modSlot {n : LineId} {sl : Slot} (f : Slot → Slot) (h : (s.line n).slot = some sl) :
    ((s.modSlot n f).line n).slot = some (f sl) := by
  rw [modSlot_slot, if_pos rfl, h]; rfl

theorem entry_modSlot (n m : LineId) (f : Slot → Slot) (g : U16) : ((s.modSlot n f).line m).entry g = (s.line m).entry g := by
  unfold State.modSlot
  rw [State.line_modLine]
  split
  · next e => subst e; rfl
  · rfl

theorem xferInfo_setSent (w : Nat) (h : xferInfo s x = some v) : xferInfo (setSent x w s) x = some { v with sent := w } := by
  cases x with
  | dest j =>
    obtain ⟨r, p, hr, hp, rfl⟩ := xferInfo_dest_iff.1 h
    have h1 := rec_modRec_self (fun r => { r with sent := w }) hr
    exact xferInfo_dest_iff.2 ⟨_, p, h1, hp, rfl⟩
  | slot n =>
    obtain ⟨sl, e, hs, he, rfl⟩ := xferInfo_slot_iff.1 h
    exact xferInfo_slot_iff.2 ⟨_, e, slot_modSlot (fun sl => { sl with sent := w }) hs, (entry_modSlot n n _ _).trans he, rfl⟩

theorem xferInfo_setAcked (w : Nat) (h : xferInfo s x = some v) : xferInfo (setAcked x w s) x = some { v with acked := w } := by
  cases x with
  | dest j =>
    obtain ⟨r, p, hr, hp, rfl⟩ := xferInfo_dest_iff.1 h
    have h1 := rec_modRec_self (fun r => { r with acked := w }) hr
    exact xferInfo_dest_iff.2 ⟨_, p, h1, hp, rfl⟩
  | slot n =>
    obtain ⟨sl, e, hs, he, rfl⟩ := xferInfo_slot_iff.1 h
    exact xferInfo_slot_iff.2 ⟨_, e, slot_modSlot (fun sl => { sl with acked := w }) hs, (entry_modSlot n n _ _).trans he, rfl⟩

theorem setSent_link (x : Xfer) (w : Nat) (l : LinkId) (s : State) : (setSent x w s).link l = s.link l := by cases x <;> rfl

theorem setAcked_link (x : Xfer) (w : Nat) (l : LinkId) (s : State) : (setAcked x w s).link l = s.link l := by cases x <;> rfl

/-! ### What the start of a frame can change -/

/-- A frame may have started on a link: its control list, wire, credit and owed OPEN, and SITE_HAS_DATA of a transfer, are all that can
differ, with what was written. -/
structure Sends (l : LinkId) (s t : State) : Prop where
  pages : t.pages = s.pages
  clock : t.clock = s.clock
  seqNext : t.seqNext = s.seqNext
  record : ∀ j r, s.rec? j = some r → ∃ b, t.rec? j = some { r with siteHasData := b }
  line : ∀ n, ∃ z, t.line n = { s.line n with slot := z } ∧ ∀ sl, (s.line n).slot = some sl → ∃ b, z = some { sl with siteHasData := b }
  link : ∃ c w k o, t.link l = { s.link l with control := c, wire := w, credit := k, openOwed := o }
  links : ∀ m, m ≠ l → t.link m = s.link m

theorem Sends.refl (l : LinkId) (s : State) : Sends l s s :=
  ⟨rfl, rfl, rfl, fun _ r h => ⟨r.siteHasData, h⟩, fun _ => ⟨_, rfl, fun sl h => ⟨sl.siteHasData, h⟩⟩, ⟨_, _, _, _, rfl⟩, fun _ _ => rfl⟩

theorem Sends.of_link {f : Link → Link} (h : ∃ c w k o, f (s.link l) = { s.link l with control := c, wire := w, credit := k, openOwed := o }) :
    Sends l s (s.modLink l f) :=
  { Sends.refl l s with
    link := by rw [State.link_modLink_self]; exact h
    links := fun m hm => by rw [State.link_modLink, if_neg hm] }

theorem Sends.trans (h : Sends l s t) (k : Sends l t u) : Sends l s u where
  pages := k.pages.trans h.pages
  clock := k.clock.trans h.clock
  seqNext := k.seqNext.trans h.seqNext
  record j r hr := by
    obtain ⟨b, hb⟩ := h.record j r hr
    obtain ⟨b', hb'⟩ := k.record j _ hb
    exact ⟨b', hb'⟩
  line n := by
    obtain ⟨z, hz, hs⟩ := h.line n
    obtain ⟨z', hz', hs'⟩ := k.line n
    refine ⟨z', by rw [hz', hz], fun sl hsl => ?_⟩
    obtain ⟨b, hb⟩ := hs sl hsl
    obtain ⟨b', hb'⟩ := hs' _ ((congrArg Line.slot hz).trans hb)
    exact ⟨b', hb'⟩
  link := by
    obtain ⟨c, w, o, e, h1⟩ := h.link
    obtain ⟨c', w', o', e', h2⟩ := k.link
    exact ⟨c', w', o', e', by rw [h2, h1]⟩
  links m hm := (k.links m hm).trans (h.links m hm)

theorem markHasData_sends (x : Xfer) (s : State) : Sends l s (markHasData x s) := by
  cases x with
  | dest n =>
    unfold markHasData
    dsimp only
    split
    · exact .refl l s
    · split
      · exact .refl l s
      · have hw := writeEntry_still n (Still.refl (s.modRec n fun r => { r with siteHasData := true }))
        refine ⟨hw.pages, hw.clock, hw.seqNext, fun j r hr => ?_, fun k => ?_, ?_, fun m _ => writeEntry_link _ _ _⟩
        · rw [hw.rec?, rec_modRec]
          split
          · next e => subst e; rw [hr]; exact ⟨true, rfl⟩
          · exact ⟨r.siteHasData, hr⟩
        · exact ⟨(s.line k).slot, hw.line k, fun sl h => ⟨sl.siteHasData, h⟩⟩
        · exact ⟨_, _, _, _, writeEntry_link _ _ _⟩
  | slot n =>
    refine ⟨rfl, rfl, rfl, fun _ r h => ⟨r.siteHasData, h⟩, fun k => ?_, ⟨_, _, _, _, rfl⟩, fun _ _ => rfl⟩
    show ∃ z, (s.modSlot n fun sl => { sl with siteHasData := true }).line k = _ ∧ _
    unfold State.modSlot
    rw [State.line_modLine]
    split
    · next e =>
      subst e
      exact ⟨_, rfl, fun sl h => ⟨true, by rw [h]; rfl⟩⟩
    · exact ⟨_, rfl, fun sl h => ⟨sl.siteHasData, h⟩⟩

theorem kick_sends (l : LinkId) (s : State) : Sends l s (kick l s) := by
  unfold kick
  dsimp only
  split
  · exact .refl l s
  · split
    · exact .of_link ⟨_, _, _, _, rfl⟩
    · split
      · exact .refl l s
      · split
        · exact .refl l s
        · split
          · exact .of_link ⟨_, _, _, _, rfl⟩
          · split
            · exact (Sends.of_link ⟨_, _, _, _, rfl⟩).trans (markHasData_sends _ _)
            · exact .refl l s

theorem Sends.info (h : Sends l s t) (hv : xferInfo s x = some v) : ∃ b, xferInfo t x = some { v with hasData := b } := by
  cases x with
  | dest j =>
    obtain ⟨r, p, hr, hp, rfl⟩ := xferInfo_dest_iff.1 hv
    obtain ⟨b, hb⟩ := h.record j r hr
    exact ⟨b, xferInfo_dest_iff.2 ⟨_, p, hb, by unfold State.page?; rw [h.pages]; exact hp, rfl⟩⟩
  | slot n =>
    obtain ⟨sl, e, hs, he, rfl⟩ := xferInfo_slot_iff.1 hv
    obtain ⟨z, hz, hs'⟩ := h.line n
    obtain ⟨b, hb⟩ := hs' sl hs
    exact ⟨b, xferInfo_slot_iff.2 ⟨_, e, by rw [hz]; exact hb, by rw [hz]; exact he, rfl⟩⟩

/-! ### Rewinds (R82, R83) -/

/-- A rewind but for the OPEN that may start at once. -/
def rewound (l : LinkId) (x : Xfer) (v : XferInfo) (s : State) : State :=
  bumpLink l (fun c => { c with rewinds := satInc c.rewinds })
    ((setSent x v.acked s).modLink l fun k => { k with
      lastCkpt := none
      windowTimer := none
      rewindPending := false
      openOwed := true })

theorem rewind_eq (hx : (s.link l).sending = some x) (hv : xferInfo s x = some v) : rewind l s = kick l (rewound l x v s) := by
  rw [rewind, hx]
  dsimp only
  rw [hv]
  rfl

/-- A link whose transfer has been rewound. -/
def Link.rewound (k : Link) : Link :=
  { k with lastCkpt := none, windowTimer := none, rewindPending := false, openOwed := true
           counters := { k.counters with rewinds := satInc k.counters.rewinds } }

theorem rewound_link (x : Xfer) (v : XferInfo) (s : State) : (rewound l x v s).link l = (s.link l).rewound := by
  rw [rewound, bumpLink_link, if_pos rfl, State.link_modLink_self, setSent_link]
  rfl

theorem rewound_info (hv : xferInfo s x = some v) : xferInfo (rewound l x v s) x = some { v with sent := v.acked } := by
  rw [rewound, (bumpLink_still l _ (.refl _)).xferInfo, xferInfo_modLink]
  exact xferInfo_setSent _ hv

/-- What a rewind leaves: the transfer from its acked offset, no window timer, no checkpoint, the rewind counted, and an OPEN from acked
that is owed or on the wire. -/
structure Rewound (l : LinkId) (x : Xfer) (v : XferInfo) (s t : State) : Prop where
  link : ∃ c w o, t.link l = { (s.link l).rewound with control := c, wire := w, openOwed := o }
  info : xferInfo t x = some { v with sent := v.acked }
  owes : (s.link l).state ≠ .up ∨ (s.link l).wire ≠ none ∨ (s.link l).control ≠ [] → (t.link l).openOwed = true
  opens : (s.link l).state = .up → (s.link l).wire = none → (s.link l).control = [] → ∃ f,
    (t.link l).wire = some ⟨f, .openFrame⟩ ∧ f.kind = 1 ∧ f.tag = BitVec.ofNat 16 x.tag ∧ f.value = BitVec.ofNat 32 v.acked
  wire : (s.link l).state = .up → (t.link l).wire ≠ none

theorem rewind_rewound (hx : (s.link l).sending = some x) (hv : xferInfo s x = some v) : Rewound l x v s (rewind l s) := by
  have hl := rewound_link (l := l) x v s
  have hi := rewound_info (l := l) hv
  rw [rewind_eq hx hv]
  generalize rewound l x v s = t at hl hi
  have hk := kick_still l (.inr (by rw [hl]; rfl)) (.refl t)
  by_cases hbusy : (s.link l).state ≠ .up ∨ (s.link l).wire ≠ none
  · have e : kick l t = t := kick_busy (by rw [hl]; exact hbusy)
    rw [e]
    refine ⟨⟨_, _, _, hl⟩, hi, fun _ => by rw [hl]; rfl, fun hu hw => ?_, fun hu => ?_⟩
    · exact (hbusy.elim (fun c => c hu) fun c => c hw).elim
    · rw [hl]
      exact hbusy.resolve_left fun c => c hu
  · obtain ⟨hu, hw⟩ := not_or.1 hbusy
    have hu' : (t.link l).state = .up := by rw [hl]; exact not_not.1 hu
    have hw' : (t.link l).wire = none := by rw [hl]; exact not_not.1 hw
    cases hc : (s.link l).control with
    | cons c cs =>
      rw [kick_control hu' hw' (c := c) (cs := cs) (by rw [hl]; exact hc)]
      refine ⟨⟨_, _, _, by rw [State.link_modLink_self, hl]⟩, (xferInfo_modLink _ _ _ _).trans hi, fun _ => ?_,
        fun _ _ h => (nomatch hc.symm.trans h), fun _ => ?_⟩
      · rw [State.link_modLink_self, hl]; rfl
      · rw [State.link_modLink_self]; exact nofun
    | nil =>
      rw [kick_open hu' hw' (by rw [hl]; exact hc) (by rw [hl]; exact hx) hi (by rw [hl]; rfl), startOpen]
      refine ⟨⟨_, _, _, by rw [State.link_modLink_self, hl]⟩, (xferInfo_modLink _ _ _ _).trans hi, fun h => ?_, fun _ _ _ => ?_, fun _ => ?_⟩
      · exact (h.elim hu fun h => h.elim hw fun h => h hc).elim
      · rw [State.link_modLink_self]; exact ⟨_, rfl, rfl, rfl, rfl⟩
      · rw [State.link_modLink_self]; exact nofun

/-! ### The bytes of a DATA frame (R79, R144) -/

theorem sliceBytes_cons (c : Slice) (cs : List Slice) :
    sliceBytes (c :: cs) = ((List.range c.len).map fun k => c.addr + BitVec.ofNat 64 k) ++ sliceBytes cs := rfl

theorem extentBytes_cons (e : Extent) (es : List Extent) :
    extentBytes (e :: es) = ((List.range e.len.toNat).map fun k => e.addr + BitVec.ofNat 64 k) ++ extentBytes es := rfl

theorem drop_range_map {α : Type} (n off : Nat) (f : Nat → α) :
    ((List.range n).map f).drop off = (List.range (n - off)).map fun k => f (off + k) := by
  apply List.ext_getElem
  · simp
  · intro k h1 h2
    simp

theorem take_range_map {α : Type} (n len : Nat) (f : Nat → α) :
    ((List.range n).map f).take len = (List.range (min len n)).map f := by
  rw [← List.map_take, List.take_range]

/-- The slices of a DATA frame read the payload's bytes from the offset on (R79). -/
theorem sliceBytes_slices (es : List Extent) (off len : Nat) :
    sliceBytes (slices es off len) = ((extentBytes es).drop off).take len := by
  induction es generalizing off len with
  | nil => simp [slices, sliceBytes, extentBytes]
  | cons e es ih =>
    have hlen : ((List.range e.len.toNat).map fun k => e.addr + BitVec.ofNat 64 k).length = e.len.toNat := by simp
    unfold slices
    dsimp only
    split
    · next h0 => rw [h0]; rfl
    · split
      · next hle =>
        rw [ih, extentBytes_cons, List.drop_append, List.drop_of_length_le (hlen.trans_le hle), hlen, List.nil_append]
      · next hlt =>
        have hoff : off - e.len.toNat = 0 := Nat.sub_eq_zero_of_le (Nat.le_of_not_le hlt)
        rw [sliceBytes_cons, ih, extentBytes_cons, List.drop_append, hlen, hoff, drop_range_map, List.take_append, take_range_map,
          List.length_map, List.length_range]
        refine congrArg₂ (· ++ ·) (List.map_congr_left fun k _ => ?_) ?_
        · rw [BitVec.ofNat_add, BitVec.add_assoc]
        · rw [List.drop_zero]
          congr 1
          omega

theorem frameFlags_bits (last ckpt : Bool) : ∀ b < 8, (frameFlags last ckpt false).getLsbD b = (b == 0 && last || b == 1 && ckpt) := by
  cases last <;> cases ckpt <;> decide

/-- An entry shows of its fallback record the line, the state and the detail (R42, R43). -/
theorem entryBytes_modRec {j : Nat} {f : DestRec → DestRec} (hf : ∀ r, (f r).line = r.line ∧ (f r).state = r.state ∧ (f r).detail = r.detail)
    (r : DestRec) (s : State) : entryBytes (s.modRec j f) r = entryBytes s r := by
  have hb : fallbackBytes (s.modRec j f) r.fallback = fallbackBytes s r.fallback := by
    cases r.fallback with
    | none => rfl
    | failed d => rfl
    | made n =>
      unfold fallbackBytes
      dsimp only
      rw [rec_modRec]
      by_cases e : n = j
      · rw [if_pos e, e]
        cases s.rec? j with
        | none => rfl
        | some q =>
          obtain ⟨hl, hs, hd⟩ := hf q
          show leBytes 1 (f q).line.val ++ leBytes 1 (f q).state.code ++ leBytes 1 (f q).detail.code = _
          rw [hl, hs, hd]
      · rw [if_neg e]
  unfold entryBytes
  rw [hb]

/-- A DATA frame starts (R28, R59, R79, R80, R144). -/
theorem startData_starts (l : LinkId) (x : Xfer) (v : XferInfo) (s : State) : DataStarts s (startData l x v s) l x v := by
  have hlink : (startData l x v s).link l = { s.link l with
      credit := (s.link l).credit - 1
      wire := some ⟨dataFrameOf s x v,
        .data x v.frameEnd (decide (v.frameEnd % Config.checkpointBytes = 0)) (decide (v.frameEnd = v.size)) true⟩ } := by
    have h : ∀ t : State, (markHasData x t).link l = t.link l := fun t => by
      cases x with
      | slot n => rfl
      | dest j =>
        unfold markHasData
        dsimp only
        split
        · rfl
        · split
          · rfl
          · exact writeEntry_link _ _ _
    rw [startData, h, State.link_modLink_self]
  refine ⟨by rw [hlink], ⟨dataFrameOf s x v, _, by rw [hlink]; rfl, rfl, rfl, rfl, rfl, rfl, frameFlags_bits _ _, ?_, rfl,
    sliceBytes_slices _ _ _⟩, fun j r hx hr => ?_, fun n sl hx hs => ?_⟩
  · show BitVec.ofNat 32 _ = _
    by_cases hlast : v.frameEnd = v.size
    · rw [decide_eq_true hlast, if_pos rfl, BitVec.ofNat_toNat, BitVec.setWidth_eq]
      exact (if_pos hlast).symm
    · rw [decide_eq_false hlast, if_neg Bool.false_ne_true]
      exact (if_neg hlast).symm
  · subst hx
    generalize hk : (s.modLink l fun k => { k with
      credit := k.credit - 1
      wire := some ⟨dataFrameOf s (.dest j) v,
        .data (.dest j) v.frameEnd (decide (v.frameEnd % Config.checkpointBytes = 0)) (decide (v.frameEnd = v.size)) true⟩ }) = t
    have ht : t.rec? j = some r := by rw [← hk]; exact hr
    have hbus : t.bus = s.bus := by rw [← hk]; rfl
    have hbytes : ∀ r, entryBytes t r = entryBytes s r := fun r => by rw [← hk]; rfl
    rw [startData, hk]
    unfold markHasData
    dsimp only
    rw [ht]
    dsimp only
    by_cases hd : r.siteHasData = true
    · rw [if_pos hd]
      exact ⟨r, ht, hd, rfl, fun c => by rw [hd] at c; cases c⟩
    · have h1 := rec_modRec_self (fun r => { r with siteHasData := true }) ht
      rw [if_neg hd, (writeEntry_still j (.refl _)).rec?]
      refine ⟨_, h1, rfl, rfl, fun _ ho => ?_⟩
      obtain ⟨later, earlier, h⟩ := writeEntry_issued h1 ho
      rw [entryBytes_modRec (f := fun r => { r with siteHasData := true }) (fun _ => ⟨rfl, rfl, rfl⟩), hbytes] at h
      exact ⟨later, earlier, h.trans (by rw [State.modRec_bus, hbus])⟩
  · subst hx
    exact ⟨_, slot_modSlot (fun sl => { sl with siteHasData := true }) hs, rfl, rfl⟩

end Sys2Proof.Machine
end

section
/-! The window timer, checkpoint acknowledgements and the DATA frame that follows (O53; R28, R78 to R83, R142). -/

namespace Sys2Proof.Machine

variable {s t u : State} {l : LinkId} {x : Xfer} {v v' : XferInfo} {f : InFrame} {n : LineId}

/-! ### A frame that has left -/

/-- The frame on the wire has left and is counted (R150). -/
def wireFreed (l : LinkId) (s : State) : State :=
  s.modLink l fun k => { k with wire := none, counters := { k.counters with framesSent := satInc k.counters.framesSent } }

theorem wireFreed_link (l : LinkId) (s : State) : (wireFreed l s).link l =
    { s.link l with wire := none
                    counters := { (s.link l).counters with framesSent := satInc (s.link l).counters.framesSent } } :=
  State.link_modLink_self _ _ _

theorem frameLeft_eq {w : WireFrame} (hu : (s.link l).state = .up) (hw : (s.link l).wire = some w) :
    frameLeft l s = departedPage w.role (kick l (departed l w.role (wireFreed l s))) := by
  rw [frameLeft, hu, hw]
  rfl

theorem frameLeft_dark (h : (s.link l).state ≠ .up ∨ (s.link l).wire = none) : frameLeft l s = s := by
  unfold frameLeft
  split
  · next e e' =>
    obtain h | h := h
    · exact absurd e h
    · rw [h] at e'; cases e'
  · rfl

/-- A departure that has no effect of its own: a control frame, an OPEN, a frame of a stopped transfer (R87). -/
def WireRole.idle (w : WireRole) : Prop := w = .control ∨ w = .openFrame ∨ ∃ x off k e, w = .data x off k e false

theorem departed_idle {w : WireRole} (hw : w.idle) (hr : (s.link l).rewindPending = false) : departed l w s = s := by
  unfold departed
  rw [if_neg (by rw [hr]; decide)]
  obtain rfl | rfl | ⟨x, off, k, e, rfl⟩ := hw <;> rfl

theorem departedPage_idle {w : WireRole} (hw : w.idle) (s : State) : departedPage w s = s := by
  obtain rfl | rfl | ⟨x, off, k, e, rfl⟩ := hw
  · rfl
  · rfl
  · cases x <;> rfl

theorem frameLeft_idle {w : WireFrame} (hu : (s.link l).state = .up) (hw : (s.link l).wire = some w) (hi : w.role.idle)
    (hr : (s.link l).rewindPending = false) : frameLeft l s = kick l (wireFreed l s) := by
  rw [frameLeft_eq hu hw, departed_idle hi (by rw [wireFreed_link]; exact hr), departedPage_idle hi]

theorem windowFull_iff : v.windowFull = true ↔ 262144 ≤ v.sent - v.acked := decide_eq_true_iff

theorem windowFull_false_iff : v.windowFull = false ↔ v.sent - v.acked < 262144 := by
  rw [← Bool.not_eq_true, windowFull_iff, Nat.not_le]

/-! ### A CKPT_ACK that has been accepted (R141, R148, R150) -/

theorem restartSilence_link (l : LinkId) (s : State) : (restartSilence l s).link l =
    { s.link l with silence := some (s.link l).silenceLimit } := State.link_modLink_self _ _ _

theorem offer_link (l : LinkId) (c : CtlFrame) (s : State) : ∃ cs w, (offer l c s).link l = { s.link l with control := cs, wire := w } ∧
    ((s.link l).wire ≠ none → w ≠ none) := by
  unfold offer
  split
  · next hup =>
    by_cases hw : (s.link l).wire = none
    · obtain ⟨d, ds, hd⟩ := List.exists_cons_of_ne_nil (joinControl_ne_nil c (s.link l).control)
      rw [kick_control (c := d) (cs := ds)]
      · rw [State.link_modLink_self, State.link_modLink_self]
        exact ⟨_, _, rfl, fun c => absurd hw c⟩
      · rw [State.link_modLink_self]; exact beq_iff_eq.1 hup
      · rw [State.link_modLink_self]; exact hw
      · rw [State.link_modLink_self]; exact hd
    · rw [kick_busy (.inr (by rw [State.link_modLink_self]; exact hw)), State.link_modLink_self]
      exact ⟨_, _, rfl, fun c => c⟩
  · exact ⟨_, _, rfl, fun c => c⟩

/-- A link that has accepted a frame. -/
def Link.heard (k : Link) : Link := { k.received with silence := some k.silenceLimit }

theorem heard_plain (h : serviceFlag f = false) : heard l f n s = restartSilence l (s.modLink l Link.received) :=
  if_neg (by rw [h]; decide)

theorem restarted_link (l : LinkId) (s : State) : (restartSilence l (s.modLink l Link.received)).link l = (s.link l).heard := by
  rw [restartSilence_link, State.link_modLink_self]
  rfl

/-- Of the receiving link a frame heard leaves all but the counters, the silence timer and the QUERY that SERVICE offers. -/
theorem heard_link (hn : s.linkOf n = l) : ∃ cs w, (heard l f n s).link l = { (s.link l).heard with control := cs, wire := w } ∧
    ((s.link l).wire ≠ none → w ≠ none) := by
  have h0 := restarted_link l s
  unfold heard
  dsimp only
  generalize ht : restartSilence l (s.modLink l Link.received) = t at h0
  have hn' : t.linkOf n = l := by rw [← ht]; exact hn
  split
  · unfold askQuery
    split
    · obtain ⟨cs, w, h, hw⟩ := offer_link (t.linkOf n) (.query n)
        (t.modLine n fun k => { k with query := some ⟨Config.queryMs, []⟩, requery := none })
      rw [hn', State.link_modLine, h0] at h hw
      exact ⟨cs, w, by rw [sendQuery, hn']; exact h, hw⟩
    · exact ⟨_, _, h0, fun c => c⟩
  · exact ⟨_, _, h0, fun c => c⟩

theorem Hears.xferInfo (h : Hears n s t) (x : Xfer) : xferInfo t x = xferInfo s x := by
  cases x with
  | dest j => unfold Machine.xferInfo; simp only [h.rec?, h.page?]
  | slot m =>
    obtain ⟨q, z, e⟩ := h.line m
    unfold Machine.xferInfo
    simp only [e]
    rfl

theorem Hears.slot (h : Hears n s t) (m : LineId) : (t.line m).slot = (s.line m).slot := by obtain ⟨q, z, e⟩ := h.line m; rw [e]

/-! ### Acknowledgements (R83) -/

/-- The acked offset as a CKPT_ACK's held offset leaves it. -/
def ackTaken (l : LinkId) (x : Xfer) (v : XferInfo) (hd : Nat) (s : State) : State :=
  if ackRaises v hd then raiseAcked l x v hd s else s

theorem ckptAck_eq {tag hd c : Nat} (hx : ackedXfer s tag n = some x) (hv : xferInfo s x = some v) (hn : s.linkOf n = l) :
    ckptAck l n tag hd c s =
      if gapReported (s.link l) x hd c then gapRewind l (ackTaken l x v hd s)
      else if ackRaises v hd then kick l (ackTaken l x v hd s) else staleTag l (ackTaken l x v hd s) := by
  rw [ckptAck, hx]
  dsimp only
  rw [hv]
  dsimp only
  rw [hn]
  rfl

theorem ackRaises_iff {hd : Nat} : ackRaises v hd = true ↔ hd % 65536 = 0 ∧ hd < v.size ∧ v.acked < hd ∧ hd ≤ v.sent := by
  simp only [ackRaises, Bool.and_eq_true, decide_eq_true_iff, and_assoc]
  rfl

theorem gapReported_iff {k : Link} {hd c : Nat} :
    gapReported k x hd c = true ↔ k.sending = some x ∧ hd < c ∧ k.lastCkpt = some c := by
  simp only [gapReported, Bool.and_eq_true, decide_eq_true_iff, beq_iff_eq, and_assoc]

/-- The facts of a transfer once its acked offset has been judged. -/
def XferInfo.ackedBy (v : XferInfo) (hd : Nat) : XferInfo := { v with acked := if ackRaises v hd then hd else v.acked }

theorem ackTaken_info {hd : Nat} (hv : xferInfo s x = some v) : xferInfo (ackTaken l x v hd s) x = some (v.ackedBy hd) := by
  unfold ackTaken XferInfo.ackedBy
  by_cases h : ackRaises v hd = true
  · rw [if_pos h, if_pos h]
    unfold raiseAcked
    dsimp only
    split
    · rw [xferInfo_modLink]
      exact xferInfo_setAcked _ hv
    · exact xferInfo_setAcked _ hv
  · rw [if_neg h, if_neg h]
    exact hv

/-- Of its link a judged CKPT_ACK changes the window timer, which stops where the window is no longer full. -/
theorem ackTaken_link {hd : Nat} : ∃ z, (ackTaken l x v hd s).link l = { s.link l with windowTimer := z } ∧
    (ackRaises v hd = true → (s.link l).sending = some x → v.sent - hd < 262144 → z = none) := by
  unfold ackTaken raiseAcked
  split
  · dsimp only
    rw [setAcked_link]
    split
    · rw [State.link_modLink_self, setAcked_link]
      exact ⟨none, rfl, fun _ _ _ => rfl⟩
    · next hno =>
      refine ⟨_, setAcked_link _ _ _ _, fun _ hs hlt => absurd ⟨hs, ?_⟩ hno⟩
      exact windowFull_false_iff.2 hlt
  · next h => exact ⟨_, rfl, fun c => absurd c h⟩

/-- What a CKPT_ACK for a transfer of its line leaves (R82, R83). -/
structure AckJudged (l : LinkId) (x : Xfer) (v : XferInfo) (hd c : Nat) (s t : State) : Prop where
  info : ∃ v', xferInfo t x = some v' ∧ v'.acked = (v.ackedBy hd).acked ∧ (gapReported (s.link l) x hd c = false → v'.sent = v.sent) ∧
    (gapReported (s.link l) x hd c = true → (s.link l).wire = none → v'.sent = v'.acked)
  pending : gapReported (s.link l) x hd c = true → (s.link l).wire ≠ none → (t.link l).rewindPending = true
  rewinds : gapReported (s.link l) x hd c = true → (s.link l).wire = none → Rewound l x (v.ackedBy hd) (ackTaken l x v hd s) t
  timer : ackRaises v hd = true → (s.link l).sending = some x → v.sent - hd < 262144 → (t.link l).windowTimer = none
  goesOn : ackRaises v hd = true → gapReported (s.link l) x hd c = false → t = kick l (raiseAcked l x v hd s)
  stale : (t.link l).counters.staleTag = if ackRaises v hd = true ∨ gapReported (s.link l) x hd c = true
    then (s.link l).counters.staleTag else satInc (s.link l).counters.staleTag

theorem ckptAck_judged {tag hd c : Nat} (hx : ackedXfer s tag n = some x) (hv : xferInfo s x = some v) (hn : s.linkOf n = l) :
    AckJudged l x v hd c s (ckptAck l n tag hd c s) := by
  obtain ⟨z, hl2, hz⟩ := ackTaken_link (l := l) (x := x) (v := v) (s := s) (hd := hd)
  have hv2 := ackTaken_info (l := l) (hd := hd) hv
  rw [ckptAck_eq hx hv hn]
  cases hg : gapReported (s.link l) x hd c with
  | true =>
    rw [if_pos rfl]
    by_cases hw : (s.link l).wire = none
    · have hsend : ((ackTaken l x v hd s).link l).sending = some x := by rw [hl2]; exact (gapReported_iff.1 hg).1
      have e : gapRewind l (ackTaken l x v hd s) = rewind l (ackTaken l x v hd s) :=
        if_neg (by rw [hl2]; simp [hw])
      rw [e]
      have hr := rewind_rewound hsend hv2
      obtain ⟨cs, w, o, hk⟩ := hr.link
      refine ⟨⟨_, hr.info, rfl, fun c => ?_, fun _ _ => rfl⟩, fun _ c => absurd hw c, fun _ _ => hr, fun _ _ _ => ?_, fun _ c => ?_, ?_⟩
      · rw [hg] at c; cases c
      · rw [hk]; rfl
      · rw [hg] at c; cases c
      · rw [hk, hl2, if_pos (.inr hg)]; rfl
    · have e : gapRewind l (ackTaken l x v hd s) = (ackTaken l x v hd s).modLink l fun k => { k with rewindPending := true } :=
        if_pos (by rw [hl2]; exact Option.isSome_iff_ne_none.2 hw)
      rw [e]
      refine ⟨⟨_, (xferInfo_modLink _ _ _ _).trans hv2, rfl, fun _ => rfl, fun _ c => absurd c hw⟩, fun _ _ => ?_, fun _ c => absurd c hw,
        fun hr hs hlt => ?_, fun _ c => ?_, ?_⟩
      · rw [State.link_modLink_self]
      · rw [State.link_modLink_self, hl2]; exact hz hr hs hlt
      · rw [hg] at c; cases c
      · rw [State.link_modLink_self, hl2, if_pos (.inr hg)]
  | false =>
    rw [if_neg Bool.false_ne_true]
    have hno : ∀ p : Prop, gapReported (s.link l) x hd c = true → p := fun _ c => by rw [hg] at c; cases c
    by_cases hr : ackRaises v hd = true
    · rw [if_pos hr]
      have hk := kick_sends l (ackTaken l x v hd s)
      obtain ⟨b, hb⟩ := hk.info hv2
      obtain ⟨_, _, _, _, hlk⟩ := hk.link
      refine ⟨⟨_, hb, rfl, fun _ => rfl, hno _⟩, hno _, hno _, fun hr hs hlt => ?_, fun _ _ => ?_, ?_⟩
      · rw [hlk, hl2]; exact hz hr hs hlt
      · rw [ackTaken, if_pos hr]
      · rw [hlk, hl2, if_pos (.inl hr)]
    · rw [if_neg hr]
      have e : ackTaken l x v hd s = s := if_neg hr
      rw [e] at hv2 ⊢
      refine ⟨⟨_, ((staleTag_still l (.refl s)).xferInfo x).trans hv2, rfl, fun _ => rfl, hno _⟩, hno _, hno _, fun c => absurd c hr,
        fun c => absurd c hr, ?_⟩
      rw [if_neg (not_or.2 ⟨hr, hno _⟩), staleTag, bumpLink_link, if_pos rfl]

/-! ### The DATA frame that follows -/

/-- Two states of a transfer that have the same next DATA frame (R79). -/
structure SameFrame (v v' : XferInfo) : Prop where
  line : v'.line = v.line
  sent : v'.sent = v.sent
  size : v'.size = v.size
  extents : v'.extents = v.extents
  crc : v'.crc = v.crc

/-- What must stand between two states for a DATA frame that starts in the second to start in the first: the credit, the lines'
configurations, what has been written, and of the transfer's record or slot all but its acked offset. -/
structure Leads (l : LinkId) (x : Xfer) (s t : State) : Prop where
  credit : (t.link l).credit = (s.link l).credit
  cfg : ∀ n, (t.line n).cfg = (s.line n).cfg
  bus : t.bus = s.bus
  record : ∀ j r, x = .dest j → s.rec? j = some r → ∃ k, t.rec? j = some { r with acked := k } ∧
    ∀ b, entryBytes t { r with acked := k, siteHasData := b } = entryBytes s { r with siteHasData := b }
  slot : ∀ n sl, x = .slot n → (s.line n).slot = some sl → ∃ k, (t.line n).slot = some { sl with acked := k }

theorem DataStarts.lead (h : DataStarts t u l x v') (hv : SameFrame v v') (k : Leads l x s t) : DataStarts s u l x v := by
  obtain ⟨hcredit, ⟨f, cs, hw, hpath, hdest, hsrc, hkind, htag, hflags, hvalue, hpay, hbytes⟩, hrec, hslot⟩ := h
  rw [hv.line, k.cfg] at hpath hdest
  rw [hv.sent, hv.size] at hw hflags hvalue hbytes
  rw [hv.crc] at hvalue
  rw [hv.extents] at hbytes
  refine ⟨hcredit.trans (by rw [k.credit]), ⟨f, cs, hw, hpath, hdest, hsrc, hkind, htag, hflags, hvalue, hpay, hbytes⟩,
    fun j r hx hr => ?_, fun n sl hx hs => ?_⟩
  · obtain ⟨a, hr', he⟩ := k.record j r hx hr
    obtain ⟨q, hq, hd, hst, hi⟩ := hrec j _ hx hr'
    refine ⟨q, hq, hd, hst, fun h0 ho => ?_⟩
    obtain ⟨later, earlier, hi⟩ := hi h0 ho
    rw [he, k.bus] at hi
    exact ⟨later, earlier, hi⟩
  · obtain ⟨a, hs'⟩ := k.slot n sl hx hs
    obtain ⟨q, hq, hd, hst⟩ := hslot n _ hx hs'
    exact ⟨q, hq, hd, hst⟩

theorem SameFrame.refl (v : XferInfo) : SameFrame v v := ⟨rfl, rfl, rfl, rfl, rfl⟩

theorem wireFreed_leads (l : LinkId) (x : Xfer) (s : State) : Leads l x s (wireFreed l s) :=
  ⟨by rw [wireFreed_link], fun _ => rfl, rfl, fun _ r _ hr => ⟨r.acked, hr, fun _ => rfl⟩, fun _ sl _ hs => ⟨sl.acked, hs⟩⟩

/-- A CKPT_ACK heard without SERVICE, its acked offset taken. -/
theorem raiseAcked_leads (l : LinkId) (x : Xfer) (v : XferInfo) (hd : Nat) (s : State) :
    Leads l x s (raiseAcked l x v hd (restartSilence l (s.modLink l Link.received))) := by
  have hr := restarted_link l s
  have h0 : Leads l x s (restartSilence l (s.modLink l Link.received)) :=
    ⟨by rw [hr]; rfl, fun _ => rfl, rfl, fun _ r _ hr => ⟨r.acked, hr, fun _ => rfl⟩, fun _ sl _ hs => ⟨sl.acked, hs⟩⟩
  generalize restartSilence l (s.modLink l Link.received) = t at h0
  have h1 : Leads l x s (setAcked x hd t) := by
    refine ⟨by rw [setAcked_link]; exact h0.credit, fun n => ?_, ?_, fun j r hx hr => ?_, fun n sl hx hs => ?_⟩
    · rw [← h0.cfg n]
      cases x with
      | dest j => rfl
      | slot m =>
        show ((t.modSlot m _).line n).cfg = _
        unfold State.modSlot
        rw [State.line_modLine]
        split
        · next e => subst e; rfl
        · rfl
    · cases x <;> exact h0.bus
    · subst hx
      obtain ⟨k, hk, he⟩ := h0.record j r rfl hr
      have h := rec_modRec_self (fun r => { r with acked := hd }) hk
      refine ⟨hd, h, fun b => ?_⟩
      have e := entryBytes_modRec (j := j) (f := fun r => { r with acked := hd }) (fun _ => ⟨rfl, rfl, rfl⟩)
        { r with acked := k, siteHasData := b } t
      exact e.trans (he b)
    · subst hx
      obtain ⟨k, hk⟩ := h0.slot n sl rfl hs
      have h := slot_modSlot (fun sl => { sl with acked := hd }) hk
      exact ⟨hd, h⟩
  unfold raiseAcked
  dsimp only
  split
  · exact ⟨by rw [State.link_modLink_self]; exact h1.credit, h1.cfg, h1.bus, h1.record, h1.slot⟩
  · exact h1

/-- Where a control frame or an OPEN has left and none waits, the transfer's next DATA frame starts, or none does (R80, R143). -/
theorem frameLeft_data {w : WireFrame} (hu : (s.link l).state = .up) (hw : (s.link l).wire = some w) (hi : w.role.idle)
    (hr : (s.link l).rewindPending = false) (hc : (s.link l).control = []) (ho : (s.link l).openOwed = false)
    (hx : (s.link l).sending = some x) (hv : xferInfo s x = some v) (hs : v.sent < v.size) :
    (1 ≤ (s.link l).credit → v.sent - v.acked < 262144 → DataStarts s (frameLeft l s) l x v) ∧
    ((s.link l).credit = 0 ∨ 262144 ≤ v.sent - v.acked → ((frameLeft l s).link l).wire = none ∧
      frameLeft l s = { s with links := (frameLeft l s).links }) := by
  have hlk := wireFreed_link l s
  have hv' : xferInfo (wireFreed l s) x = some v := (xferInfo_modLink _ _ _ _).trans hv
  have hu' : ((wireFreed l s).link l).state = .up := by rw [hlk]; exact hu
  have hw' : ((wireFreed l s).link l).wire = none := by rw [hlk]
  have hc' : ((wireFreed l s).link l).control = [] := by rw [hlk]; exact hc
  have hx' : ((wireFreed l s).link l).sending = some x := by rw [hlk]; exact hx
  have ho' : ((wireFreed l s).link l).openOwed = false := by rw [hlk]; exact ho
  rw [frameLeft_idle hu hw hi hr]
  refine ⟨fun h1 h2 => ?_, fun h => ?_⟩
  · rw [kick_data hu' hw' hc' hx' hv' ho' (by rw [hlk]; exact h1) (windowFull_false_iff.2 h2) hs]
    exact (startData_starts l x v _).lead (.refl v) (wireFreed_leads l x s)
  · have hno : ¬ (1 ≤ ((wireFreed l s).link l).credit ∧ v.windowFull = false ∧ v.sent < v.size) := fun ⟨h1, h2, _⟩ => by
      have h1 : 1 ≤ (s.link l).credit := by rw [hlk] at h1; exact h1
      obtain h | h := h
      · omega
      · exact Nat.not_lt.2 h (windowFull_false_iff.1 h2)
    rw [kick_waits hu' hw' hc' hx' hv' ho' hno]
    exact ⟨hw', rfl⟩

/-- The transfer of a tag whose record or slot waits for acknowledgements (R83). -/
theorem ackedXfer_dest {j : Nat} {r : DestRec} (hj : j < 1024) (hr : s.rec? j = some r) (hl : r.line = n)
    (hs : r.state = .sending ∨ r.state = .receiptWait) : ackedXfer s j n = some (.dest j) := by
  unfold ackedXfer
  rw [if_pos (show j < Config.slotTagBase from hj), hr]
  exact if_pos ⟨hl, hs⟩

theorem ackedXfer_slot {sl : Slot} (hr : (s.line n).slot = some sl) (hs : sl.state = .sending ∨ sl.state = .confirmWait) :
    ackedXfer s (Xfer.slot n).tag n = some (.slot n) := by
  unfold ackedXfer
  rw [if_neg (show ¬ (Xfer.slot n).tag < Config.slotTagBase from Nat.not_lt.2 (Nat.le_add_right _ _)),
    if_pos (show (Xfer.slot n).tag = Config.slotTagBase + n.val from rfl), hr]
  exact if_pos hs

theorem fromLine_ckptAck (h : ¬ Config.noTagFrom ≤ f.tag.toNat) :
    fromLine l kindCkptAck f n s = ckptAck l n f.tag.toNat (heldOffset f) (ckptOffset f) s := by
  rw [fromLine, if_neg h, if_neg (by decide), if_pos rfl]

end Sys2Proof.Machine

namespace Sys2Proof.Delivery

open Sys2Proof Sys2Proof.Machine

/-- Settles O53: a full window's expiry is `rewind`; a frame that leaves with no control frame and no OPEN waiting is followed by
`startData` or by nothing; a CKPT_ACK is judged as it finds the link after it has been heard. -/
theorem windowRules : Obligations.WindowRules := by
  intro s l
  dsimp only
  refine ⟨fun x v hx hv ht hfull => ?_, fun h => ?_, fun w x v hu hw hrole hr hc ho hx hv hlt => ?_, fun f n x v hf htag hxs hv => ?_⟩
  · have e : windowTimeout l s = rewind l s := by
      rw [windowTimeout, hx]
      dsimp only
      rw [hv]
      exact if_pos ⟨ht, windowFull_iff.2 hfull⟩
    have hr := rewind_rewound hx hv
    obtain ⟨cs, w, o, hk⟩ := hr.link
    refine ⟨_, congrArg Host.Outcome.next e, ?_, ?_, ?_, ⟨hr.owes, hr.opens⟩, _, hr.info, rfl, rfl⟩
    · rw [hk]; rfl
    · rw [hk]; rfl
    · rw [hk]; rfl
  · refine congrArg Host.Outcome.next (show windowTimeout l s = s from ?_)
    unfold windowTimeout
    dsimp only
    split
    · rfl
    · split
      · rfl
      · exact if_neg fun c => h c.1
  · have hidle : w.role.idle := hrole.imp_right .inl
    obtain ⟨h1, h2⟩ := frameLeft_data hu hw hidle hr hc ho hx hv hlt
    refine ⟨_, rfl, h1, h2, fun j r p hj hr hp => ?_, fun n sl e hn hs he => ?_⟩
    · subst hj
      obtain ⟨r', p', hr', hp', rfl⟩ := xferInfo_dest_iff.1 hv
      cases hr.symm.trans hr'
      cases hp.symm.trans hp'
      exact ⟨rfl, rfl, rfl, rfl, fun k hk => by unfold destInfo; rw [hk]; rfl⟩
    · subst hn
      obtain ⟨sl', e', hs', he', rfl⟩ := xferInfo_slot_iff.1 hv
      cases hs.symm.trans hs'
      cases he.symm.trans he'
      exact ⟨rfl, rfl, rfl, rfl, fun k hk => by unfold slotInfo; rw [hk]; rfl⟩
  · have hh := heard_hears l f n s
    have hn : s.linkOf n = l := (sourceLine_link hf.source).2
    obtain ⟨cs, w, hlk, hww⟩ := heard_link (f := f) hn
    have hv' : xferInfo (heard l f n s) x = some v := (hh.xferInfo x).trans hv
    have hacked : ackedXfer (heard l f n s) f.tag.toNat n = some x ∧ f.tag.toNat < Config.noTagFrom := by
      rw [htag]
      cases x with
      | dest j =>
        obtain ⟨hj, r, hr, hl, hs⟩ := hxs
        exact ⟨ackedXfer_dest hj ((hh.rec? j).trans hr) hl hs, Nat.lt_of_lt_of_le hj (by decide)⟩
      | slot m =>
        obtain ⟨rfl, sl, hs, hst⟩ := hxs
        exact ⟨ackedXfer_slot ((hh.slot m).trans hs) hst, Nat.add_lt_add_left m.isLt 1024⟩
    have hj := ckptAck_judged (hd := heldOffset f) (c := ckptOffset f) hacked.1 hv' ((hh.linkOf n).trans hn)
    have he : exec (.ckptAck l f) s = .next (ckptAck l n f.tag.toNat (heldOffset f) (ckptOffset f) (heard l f n s)) :=
      congrArg Host.Outcome.next ((receive_fromLine (k := kindCkptAck) hf rfl).trans (fromLine_ckptAck (Nat.not_le.2 hacked.2)))
    generalize ckptAck l n f.tag.toNat (heldOffset f) (ckptOffset f) (heard l f n s) = t at hj he
    have hup : ackRaises v (heldOffset f) = true ↔ f.value.toNat % 65536 = 0 ∧ f.value.toNat < v.size ∧ v.acked < f.value.toNat ∧
        f.value.toNat ≤ v.sent := ackRaises_iff
    have hgap : gapReported ((heard l f n s).link l) x (heldOffset f) (ckptOffset f) = true ↔
        (s.link l).sending = some x ∧ f.value.toNat < beNat f.payload ∧ (s.link l).lastCkpt = some (beNat f.payload) := by
      rw [hlk]; exact gapReported_iff
    have hacks : (v.ackedBy (heldOffset f)).acked = if f.value.toNat % 65536 = 0 ∧ f.value.toNat < v.size ∧
        v.acked < f.value.toNat ∧ f.value.toNat ≤ v.sent then f.value.toNat else v.acked := if_congr hup rfl rfl
    have hplain : f.flags.getLsbD 3 = false → heard l f n s = restartSilence l (s.modLink l Link.received) := heard_plain
    have hfree : f.flags.getLsbD 3 = false → (s.link l).wire = none → ((heard l f n s).link l).wire = none := fun h3 hw => by
      rw [hplain h3, restarted_link]; exact hw
    refine ⟨t, he, ?_, fun hg hw => ?_, fun hg hw h3 => ?_, fun hr hs hlt => ?_, fun hr hg hs hlt hw hc ho h1 hsize h3 => ?_, ?_⟩
    · obtain ⟨v', h1, h2, h3, h4⟩ := hj.info
      refine ⟨v', h1, h2.trans hacks, fun hg => h3 (Bool.eq_false_iff.2 fun c => hg (hgap.1 c)), fun hg hw hs => ?_⟩
      exact h4 (hgap.2 hg) (hfree hs hw)
    · exact hj.pending (hgap.2 hg) (by rw [hlk]; exact hww hw)
    · have hr := hj.rewinds (hgap.2 hg) (hfree h3 hw)
      obtain ⟨z, hz, _⟩ := ackTaken_link (l := l) (x := x) (v := v) (s := heard l f n s) (hd := heldOffset f)
      rw [hplain h3, restarted_link, ← hplain h3] at hz
      obtain ⟨_, _, _, hk⟩ := hr.link
      have ho := hr.owes
      have hp := hr.opens
      rw [hz] at hk ho hp
      refine ⟨?_, ?_, ?_, ho, fun hu hw hc => ?_⟩
      · rw [hk]; rfl
      · rw [hk]; rfl
      · rw [hk]; rfl
      · obtain ⟨g, h1, h2, h3, h4⟩ := hp hu hw hc
        exact ⟨g, h1, h2, h3, h4.trans (congrArg _ hacks)⟩
    · exact hj.timer (hup.2 hr) (by rw [hlk]; exact hs) hlt
    · have hgap' : gapReported ((heard l f n s).link l) x (heldOffset f) (ckptOffset f) = false :=
        Bool.eq_false_iff.2 fun c => hg (hgap.1 c)
      have hgo := hj.goesOn (hup.2 hr) hgap'
      have hv2 := ackTaken_info (l := l) (hd := heldOffset f) hv'
      have ht : ackTaken l x v (heldOffset f) (heard l f n s) = raiseAcked l x v (heldOffset f) (heard l f n s) :=
        if_pos (hup.2 hr)
      obtain ⟨z, hz, _⟩ := ackTaken_link (l := l) (x := x) (v := v) (s := heard l f n s) (hd := heldOffset f)
      rw [ht] at hv2 hz
      rw [hplain h3, restarted_link, ← hplain h3] at hz
      have hdata := startData_starts l x (v.ackedBy (heldOffset f)) (raiseAcked l x v (heldOffset f) (heard l f n s))
      rw [← kick_data (by rw [hz]; exact hf.up) (by rw [hz]; exact hw) (by rw [hz]; exact hc) (by rw [hz]; exact hs) hv2
        (by rw [hz]; exact ho) (by rw [hz]; exact h1) (windowFull_false_iff.2 (by rw [hacks, if_pos hr]; exact hlt)) hsize, ← hgo] at hdata
      have hstart : DataStarts s t l x v := by
        rw [hplain h3] at hdata
        exact hdata.lead ⟨rfl, rfl, rfl, rfl, rfl⟩ (raiseAcked_leads l x v _ s)
      obtain ⟨_, ⟨g, cs, hw, _, _, _, hkind, htag', _⟩, _⟩ := id hstart
      exact ⟨⟨_, hw, hkind, htag'⟩, hstart⟩
    · rw [hj.stale, hlk]
      exact if_congr (or_congr hup (hlk ▸ hgap)) rfl rfl

end Sys2Proof.Delivery
end

section
/-! The scheduler's SENDING slot: what a pick, its clearing and a join make of the link and of a slot, and the page-end check that finds
a record still live (R24, R75, R77, R78, R86). -/

namespace Sys2Proof.Machine

variable {a : Aim} {s t u : State} {l : LinkId} {x y : Xfer} {v : XferInfo} {i j : Nat} {r r' : DestRec}

/-! ### The page-end check -/

theorem pageEndOf_live (hr : s.rec? i = some r) (h : r.state.isFinal = false) : pageEndOf i s = s := by
  rw [pageEndOf, hr]
  exact if_neg (by rw [h]; decide)

theorem departedPage_live {off : Nat} {c last : Bool}
    (h : ∀ n, x = .dest n → ∃ r, s.rec? n = some r ∧ r.state.isFinal = false) : departedPage (.data x off c last true) s = s := by
  cases x with
  | slot n => rfl
  | dest n =>
    obtain ⟨r, hr, hf⟩ := h n rfl
    exact pageEndOf_live hr hf

theorem freePage_links (n : Nat) (p : Page) (s : State) : (freePage n p s).links = s.links := by
  have hdel : ∀ (ds : List Nat) (s : State), (ds.foldl (fun s i => s.delRec i) s).links = s.links := by
    intro ds
    induction ds with
    | nil => exact fun _ => rfl
    | cons d ds ih => exact fun s => ih (s.delRec d)
  unfold freePage
  dsimp only
  refine (hdel p.dests _).trans ?_
  obtain ⟨o, w, h⟩ := finalDisposition_outward p.orderAddr (pageOutcome (leaveVerify (.page n) s) p).1
    (pageOutcome (leaveVerify (.page n) s) p).2 (leaveVerify (.page n) s)
  rw [h]
  rfl

theorem pageEndOf_link (n : Nat) (l : LinkId) (s : State) : (pageEndOf n s).link l = s.link l := by
  have h : (pageEndOf n s).links = s.links := by
    unfold pageEndOf pageEndCheck
    split
    · rfl
    · split
      · split
        · rfl
        · split
          · exact freePage_links _ _ _
          · rfl
      · rfl
  unfold State.link
  rw [h]

theorem departedPage_link (w : WireRole) (l : LinkId) (s : State) : (departedPage w s).link l = s.link l := by
  unfold departedPage
  split
  · exact pageEndOf_link _ _ _
  all_goals rfl

/-! ### A link's SENDING slot -/

/-- A mirror written by the scheduler shows the first transfer; nothing else of a link changes (R91). -/
theorem schedMirror_link (l : LinkId) (s : State) :
    ∃ f z, (schedMirror l s).link l = { s.link l with first := f, firstSlack := z } := by
  have h : (schedMirror l s).link l = (refreshFirst l s).link l := by
    unfold State.link
    rw [show (schedMirror l s).links = (refreshFirst l s).links from deskWrite_links _ _ _]
  rw [h, refreshFirst, State.link_modLink_self]
  dsimp only
  split
  · exact ⟨_, _, rfl⟩
  · exact ⟨_, _, rfl⟩

theorem clearSending_link (l : LinkId) (s : State) : ∃ f z, (clearSending l s).link l = { s.link l with
    sending := none, sendingSlack := 0, windowTimer := none, lastCkpt := none, openOwed := false, rewindPending := false
    first := f, firstSlack := z } := by
  obtain ⟨f, z, h⟩ := schedMirror_link l (s.modLink l fun k => { k with
    sending := none, sendingSlack := 0, windowTimer := none, lastCkpt := none, openOwed := false, rewindPending := false })
  exact ⟨f, z, by rw [clearSending, h, State.link_modLink_self]⟩

theorem beginSending_link (l : LinkId) (x : Xfer) (s : State) : ∃ z f g, (beginSending l x s).link l = { s.link l with
    queue := (s.link l).queue.filter fun y => y != x
    sending := some x, sendingSlack := z, lastCkpt := none, windowTimer := none, rewindPending := false, openOwed := true
    first := f, firstSlack := g } := by
  have h0 : (markSending x (takePicked l x s)).link l = _ := markSending_link x _ l
  rw [takePicked, State.link_modLink_self] at h0
  unfold beginSending
  cases x with
  | dest n =>
    obtain ⟨f, g, h⟩ := schedMirror_link l (writeEntry n (markSending (.dest n) (takePicked l (.dest n) s)))
    rw [writeEntry_link, takePicked, h0] at h
    exact ⟨_, f, g, h⟩
  | slot n =>
    obtain ⟨f, g, h⟩ := schedMirror_link l (writeLineMirror n (markSending (.slot n) (takePicked l (.slot n) s)))
    rw [writeLineMirror_link, takePicked, h0] at h
    exact ⟨_, f, g, h⟩

theorem pick_none (h : (s.link l).queue.find? (fun x => xferReady s x) = none) : pick l s = s := by
  unfold pick
  dsimp only
  rw [h]
  exact ite_self _

theorem pick_some (hu : (s.link l).state = .up) (hs : (s.link l).sending = none)
    (h : (s.link l).queue.find? (fun x => xferReady s x) = some x) : pick l s = kick l (beginSending l x s) := by
  unfold pick
  dsimp only
  rw [if_pos ⟨hu, hs⟩, h]

/-- A frame that has started leaves the wire taken: the link does nothing more. -/
theorem kick_kick (l : LinkId) (s : State) : kick l (kick l s) = kick l s := by
  by_cases hb : (s.link l).state ≠ .up ∨ (s.link l).wire ≠ none
  · rw [kick_busy hb, kick_busy hb]
  obtain ⟨hu, hw⟩ := not_or.1 hb
  have hu := not_not.1 hu
  have hw := not_not.1 hw
  have taken : ∀ t : State, kick l s = t → (t.link l).wire ≠ none → kick l (kick l s) = kick l s := fun t ht h => by
    rw [ht, kick_busy (.inr h)]
  have idle : kick l s = s → kick l (kick l s) = kick l s := fun h => by rw [h, h]
  cases hc : (s.link l).control with
  | cons c cs => exact taken _ (kick_control hu hw hc) (by rw [State.link_modLink_self]; exact nofun)
  | nil =>
    cases hx : (s.link l).sending with
    | none => exact idle (kick_nothing hu hw hc hx)
    | some x =>
      cases hv : xferInfo s x with
      | none => exact idle (by rw [kick_free hu hw, hc, hx]; dsimp only; rw [hv])
      | some v =>
        cases ho : (s.link l).openOwed with
        | true => exact taken _ (kick_open hu hw hc hx hv ho) (by rw [startOpen, State.link_modLink_self]; exact nofun)
        | false =>
          by_cases h : 1 ≤ (s.link l).credit ∧ v.windowFull = false ∧ v.sent < v.size
          · refine taken _ (kick_data hu hw hc hx hv ho h.1 h.2.1 h.2.2) ?_
            obtain ⟨_, ⟨f, cs, hwire, _⟩, _⟩ := startData_starts l x v s
            rw [hwire]
            exact nofun
          · exact idle (kick_waits hu hw hc hx hv ho h)

/-! ### Slots through joins and picks -/

variable {n : LineId} {sl : Slot}

theorem renumberFrom_slot (k : Nat) (xs : List Xfer) (hs : (s.line n).slot = some sl) :
    ∃ w, ((renumberFrom k xs s).line n).slot = some { sl with seq := w } := by
  induction xs generalizing k s sl with
  | nil => exact ⟨sl.seq, hs⟩
  | cons y ys ih =>
    have hset : ∃ w, ((setSeq y k s).line n).slot = some { sl with seq := w } := by
      cases y with
      | dest m => exact ⟨sl.seq, hs⟩
      | slot m =>
        have e := modSlot_slot s m n fun sl => { sl with seq := k }
        by_cases hm : n = m
        · subst hm; rw [if_pos rfl, hs] at e; exact ⟨k, e⟩
        · rw [if_neg hm] at e; exact ⟨sl.seq, e.trans hs⟩
    obtain ⟨w, hw⟩ := hset
    obtain ⟨w', hw'⟩ := ih (k + 1) hw
    exact ⟨w', hw'⟩

theorem takeSeq_slot (hs : (s.line n).slot = some sl) :
    ((takeSeq (.slot n) s).line n).slot = some { sl with seq := (roomForSeq s).seqNext } := by
  have hroom : ∃ w, ((roomForSeq s).line n).slot = some { sl with seq := w } := by
    unfold roomForSeq
    split
    · exact renumberFrom_slot 0 _ hs
    · exact ⟨sl.seq, hs⟩
  obtain ⟨w, hw⟩ := hroom
  have h := slot_modSlot (fun sl => { sl with seq := (roomForSeq s).seqNext }) hw
  exact h

theorem joinQueue_slot (l : LinkId) (hs : (s.line n).slot = some sl) :
    ((joinQueue l (.slot n) s).line n).slot = some { sl with seq := (roomForSeq s).seqNext } := by
  rw [joinQueue_eq, (schedMirror_still l (countLate_still _ _)).line]
  exact takeSeq_slot hs

theorem picking_slot (h : Acts picking s t) (hs : (s.line n).slot = some sl) :
    (t.line n).slot = some sl ∨ (t.line n).slot = some { sl with state := .sending, sent := sl.acked } := by
  obtain ⟨sl', hs', w, b, q, hk, hq, h⟩ := h.slot_held id hs
  obtain ⟨rfl, rfl⟩ := hk.resolve_left id
  obtain rfl := hq.resolve_left id
  obtain rfl | rfl := h
  · exact .inl hs'
  · exact .inr hs'

/-- A slot as it returns to QUEUED (R56, R59). -/
def requeued (latest : Nat) (urgent : Bool) (f : Slot → Slot) (q : Slot) : Slot :=
  { f q with state := .queued, timer := none, latestStart := latest, urgent := urgent }

/-- The writes, the join and the pick of a slot that returns to QUEUED. -/
def requeueRest (n : LineId) (s : State) : State :=
  pick (s.linkOf n) (joinQueue (s.linkOf n) (.slot n) (writeLineMirror n s))

/-- A slot back in its link's queue, the link having picked (R59, R62). -/
theorem requeueSlot_slot (f : Slot → Slot) (hs : (s.line n).slot = some sl) : ∃ w b q, (s.seqNext < Config.maxU32 → q = s.seqNext) ∧
    (((requeueSlot n f s).line n).slot = some { f sl with state := .queued, timer := none, latestStart := w, urgent := b, seq := q } ∨
      ((requeueSlot n f s).line n).slot = some { f sl with state := .sending, timer := none, latestStart := w, urgent := b, seq := q
                                                           sent := (f sl).acked }) := by
  have h1 := slot_modSlot (requeued (slotLatestStart s n sl.generation) (slotUrgent s n sl.generation) f) hs
  have e : requeueSlot n f s = requeueRest n (s.modSlot n (requeued (slotLatestStart s n sl.generation)
      (slotUrgent s n sl.generation) f)) := by
    rw [requeueSlot, hs]
    rfl
  have hseq : (s.modSlot n (requeued (slotLatestStart s n sl.generation) (slotUrgent s n sl.generation) f)).seqNext = s.seqNext := rfl
  rw [e, requeueRest]
  generalize s.modSlot n (requeued (slotLatestStart s n sl.generation) (slotUrgent s n sl.generation) f) = t at h1 hseq
  have h2 : ((writeLineMirror n t).line n).slot = _ := (congrArg Line.slot ((writeLineMirror_still n (.refl t)).line n)).trans h1
  have hroom : s.seqNext < Config.maxU32 → (roomForSeq (writeLineMirror n t)).seqNext = s.seqNext := fun h => by
    have hw : (writeLineMirror n t).seqNext = s.seqNext := (deskWrite_seqNext _ _ _).trans hseq
    rw [roomForSeq_below (hw ▸ h), hw]
  have h3 := joinQueue_slot (t.linkOf n) h2
  obtain h4 | h4 := picking_slot (pick_picking (t.linkOf n) (joinQueue (t.linkOf n) (.slot n) (writeLineMirror n t))) h3
  · exact ⟨_, _, _, hroom, .inl h4⟩
  · exact ⟨_, _, _, hroom, .inr h4⟩

/-! ### Picks of a transfer (R77, R78) -/

/-- A SENDING slot that holds a record holds one that is SENDING. -/
def SendsTrue (l : LinkId) (j : Nat) (s : State) : Prop :=
  (s.link l).sending = some (.dest j) → ∃ r, s.rec? j = some r ∧ r.state = .sending

theorem Act.sendsTrue (p : Act a s t) (hj : ¬ a.xfer (.dest j)) (h : SendsTrue l j s) : SendsTrue l j t := by
  have same : (t.link l).sending = (s.link l).sending → t.rec? j = s.rec? j → SendsTrue l j t := fun hl hr => by
    unfold SendsTrue
    rw [hl, hr]
    exact h
  cases p with
  | link m f hf =>
    intro c
    rw [State.link_modLink] at c
    split at c
    · next e =>
      subst e
      obtain e | e := hf.sending <;> rw [e] at c
      · exact h c
      · cases c
    · exact h c
  | seq x q hx =>
    cases x with
    | slot n => exact same rfl rfl
    | dest n =>
      intro c
      obtain ⟨r, hr, hs⟩ := h c
      have e := rec_modRec s n j fun r => { r with seq := q }
      by_cases hn : j = n
      · subst hn; rw [if_pos rfl, hr] at e; exact ⟨{ r with seq := q }, e, hs⟩
      · rw [if_neg hn] at e; exact ⟨r, e.trans hr, hs⟩
  | dest n f ha hf => exact same rfl ((rec_modRec s n j f).trans (if_neg fun e => hj (by rw [e]; exact ha)))
  | pick m x hu hq hready =>
    intro c
    rw [markSending_link, takePicked, State.link_modLink] at c
    have picked : ∀ n, x = .dest n → ((markSending x (takePicked m x s)).rec? j =
        if j = n then (s.rec? j).map fun r => { r with state := .sending, sent := r.acked } else s.rec? j) := by
      rintro n rfl
      refine (rec_modRec (takePicked m (.dest n) s) n j fun r => { r with state := .sending, sent := r.acked }).trans ?_
      by_cases e : j = n
      · subst e; rfl
      · rw [if_neg e, if_neg e]; rfl
    split at c
    · obtain rfl := Option.some.inj c
      have e := picked j rfl
      rw [if_pos rfl] at e
      obtain ⟨n, hn, _⟩ : ∃ n, xferLine s (.dest j) = some n ∧ (s.line n).state = .ready := by
        unfold xferReady at hready
        split at hready
        · next n hn => exact ⟨n, hn, beq_iff_eq.1 hready⟩
        · cases hready
      obtain ⟨r, hr, _⟩ := Option.map_eq_some_iff.1 (show (s.rec? j).map (fun r => r.line) = some n from hn)
      rw [hr] at e
      exact ⟨{ r with state := .sending, sent := r.acked }, e, rfl⟩
    · obtain ⟨r, hr, hs⟩ := h c
      cases x with
      | slot n => exact ⟨r, hr, hs⟩
      | dest n =>
        have e := picked n rfl
        split at e
        · rw [hr] at e; exact ⟨{ r with state := .sending, sent := r.acked }, e, rfl⟩
        · exact ⟨r, e.trans hr, hs⟩
  | _ => exact same rfl rfl

theorem Acts.sendsTrue (h : Acts a s t) (hj : ¬ a.xfer (.dest j)) (hs : SendsTrue l j s) : SendsTrue l j t := by
  induction h with
  | refl => exact hs
  | tail _ p ih => exact p.sendsTrue hj ih

theorem joinQueue_sending (l m : LinkId) (x : Xfer) (s : State) : ((joinQueue m x s).link l).sending = (s.link l).sending := by
  have hroom : ((roomForSeq s).link l) = s.link l := by
    unfold roomForSeq
    split
    · exact (renumberFrom_frame _ _ _).1 l
    · rfl
  have henq : ((enqueue m x (takeSeq x s)).link l).sending = (s.link l).sending := by
    rw [enqueue, State.link_modLink]
    have e : ((takeSeq x s).link l) = s.link l := (setSeq_link x _ l (roomForSeq s)).trans hroom
    split
    · next hm => subst hm; show ((takeSeq x s).link l).sending = _; rw [e]
    · exact congrArg Link.sending e
  rw [joinQueue_eq, ((schedMirror_still m (countLate_still _ _)).links l).sending, henq]

/-- A record that placing has sent to a queue stands in a SENDING slot only where it is SENDING. -/
theorem place_sendsTrue (hr : s.rec? j = some r) (hp : placement s r = .queued) (hs : (s.link l).sending = none) :
    SendsTrue l j (place j s) := by
  have e : place j s = reexamine r.line (placeRaw j s) := by rw [place, hr]
  rw [e, placeRaw_queued hr hp]
  refine (reexamine_loading r.line _).sendsTrue (loading_dest j) ((pick_picking _ _).sendsTrue id fun c => ?_)
  rw [applyChange_link, joinQueue_sending, updateL_link] at c
  rw [show (State.modRec s j _).link l = s.link l from rfl, hs] at c
  cases c

end Sys2Proof.Machine
end

section
/-! A frame has left the wire (O54; R28, R59, R77 to R79, R82 to R87, R143). -/

namespace Sys2Proof.Machine

variable {a : Aim} {s t u : State} {l : LinkId} {x y : Xfer} {v : XferInfo} {j off : Nat} {r r' : DestRec} {k : Bool} {n : LineId} {sl : Slot}

/-! ### Aims -/

/-- Aimed at every transfer. -/
def anything : Aim where
  xfer _ := True

/-- Aimed at one transfer, which neither joins nor has a frame offered. -/
def only (x : Xfer) : Aim where
  xfer y := y = x
  line _ := False
  keys _ := False
  reseq := False
  frames := False

theorem ActFrame.xferReady (h : ActFrame a s t) (hn : ∀ n, ¬ a.line n) (y : Xfer) : xferReady t y = xferReady s y := by
  unfold Machine.xferReady
  rw [h.xferLine y]
  split
  · next n _ => rw [h.line n (hn n)]
  · rfl

theorem ActFrame.lostGeneration (h : ActFrame a s t) (hn : ∀ n, ¬ a.line n) (y : Xfer) : lostGeneration t y = lostGeneration s y := by
  cases y with
  | slot n => rfl
  | dest i =>
    unfold Machine.lostGeneration
    dsimp only
    cases hr : s.rec? i with
    | none => rw [h.unused i hr]
    | some r =>
      obtain ⟨r', hr', hl, hp, _⟩ := h.used i r hr
      rw [hr']
      dsimp only
      rw [h.recGen hp, hl, h.line _ (hn _)]

theorem xferReady_modLink (l : LinkId) (f : Link → Link) (y : Xfer) (s : State) : xferReady (s.modLink l f) y = xferReady s y := by
  cases y <;> rfl

theorem xferKey_modLink (l : LinkId) (f : Link → Link) (y : Xfer) (s : State) : xferKey (s.modLink l f) y = xferKey s y := by
  cases y <;> rfl

theorem setSent_acts (x : Xfer) (w : Nat) (ha : a.xfer x) (h : Acts a u s) : Acts a u (setSent x w s) := by
  cases x with
  | dest i => exact modRec_acts i _ ha ⟨fun _ => rfl, fun _ => rfl, fun _ => rfl⟩ h
  | slot n => exact h.step (.slot n _ ha)

theorem place_acts (i : Nat) (hf : a.frames) (ha : a.xfer (.dest i)) (hk : ∀ n, a.keys n)
    (hx : ∀ n, (u.line n).slot = none → a.xfer (.slot n)) (hr : a.reseq) (h : Acts a u s) : Acts a u (place i s) := by
  unfold place
  split
  · exact h
  · exact reexamine_acts _ (hk _) (hx _) (.inl hr) (placeRaw_acts i hf ha (.inl hr) h)

theorem handBack_acts (x : Xfer) (h : Acts anything u s) : Acts anything u (handBack x s) := by
  cases x with
  | dest i =>
    unfold handBack
    dsimp only
    split
    · exact h
    · exact place_acts i trivial trivial (fun _ => trivial) (fun _ _ => trivial) trivial
        (modRec_acts i _ trivial ⟨fun _ => rfl, fun _ => rfl, fun _ => rfl⟩ h)
  | slot n => exact requeueSlot_acts n _ trivial (.inl trivial) h

theorem sentWhole_acts (x : Xfer) (ha : a.xfer x) (h : Acts a u s) : Acts a u (sentWhole x s) := by
  cases x with
  | dest i => exact applyChange_acts i _ ha ⟨fun _ => rfl, fun _ => rfl, fun _ => rfl⟩ h
  | slot n => exact writeLineMirror_acts n (h.step (.slot n _ ha))

theorem startWindow_acts (l : LinkId) (x : Xfer) (h : Acts a u s) : Acts a u (startWindow l x s) := by
  unfold startWindow
  split
  · split
    · exact modLink_acts l _ (.quiet rfl rfl (fun _ h => .inl h) (.inl rfl) rfl rfl) h
    · exact h
  · exact h

theorem dataLeft_acts (l : LinkId) (x : Xfer) (off : Nat) (c last : Bool) (h : Acts anything u s) :
    Acts anything u (dataLeft l x off c last s) := by
  have h1 := setSent_acts x off trivial h
  unfold dataLeft
  dsimp only
  split
  · exact pick_acts l (sentWhole_acts x trivial (clearSending_acts l h1))
  · split
    · have h2 := modLink_acts l (fun k => { k with lastCkpt := some off })
        (.quiet rfl rfl (fun _ h => .inl h) (.inl rfl) rfl rfl) h1
      split
      · exact pick_acts l (handBack_acts x (clearSending_acts l h2))
      · exact startWindow_acts l x h2
    · exact startWindow_acts l x h1

/-! ### The count of frames sent (R150) -/

theorem departed_framesSent (l : LinkId) (w : WireRole) (s : State) :
    ((departed l w s).link l).counters.framesSent = (s.link l).counters.framesSent := by
  unfold departed
  split
  · cases hx : (s.link l).sending with
    | none => rw [rewind, hx]
    | some x =>
      cases hv : xferInfo s x with
      | none => rw [rewind, hx]; dsimp only; rw [hv]
      | some v =>
        obtain ⟨_, _, _, h⟩ := (rewind_rewound hx hv).link
        rw [h]; rfl
  · split
    · split
      · rw [((dataLeft_acts l _ _ _ _ (.refl s)).frame.link l).2]
      · rfl
    all_goals rfl

theorem frameLeft_counted {w : WireFrame} (hu : (s.link l).state = .up) (hw : (s.link l).wire = some w) :
    ((frameLeft l s).link l).counters.framesSent = satInc (s.link l).counters.framesSent := by
  obtain ⟨_, _, _, _, hk⟩ := (kick_sends l (departed l w.role (wireFreed l s))).link
  rw [frameLeft_eq hu hw, departedPage_link, hk]
  dsimp only
  rw [departed_framesSent, wireFreed_link]

/-! ### A DATA frame that was not the last (R79, R82, R84) -/

/-- The SENDING transfer after a DATA frame of it: sent up to an offset, at a checkpoint that is kept as the latest. -/
def sentTo (l : LinkId) (x : Xfer) (off : Nat) (k : Bool) (s : State) : State :=
  if k then (setSent x off s).modLink l fun q => { q with lastCkpt := some off } else setSent x off s

theorem dataLeft_goesOn (h : k = false ∨ switches (sentTo l x off k s) l x = false) :
    dataLeft l x off k false s = startWindow l x (sentTo l x off k s) := by
  cases k with
  | false => rfl
  | true =>
    have h : switches (sentTo l x off true s) l x = false := h.resolve_left nofun
    exact if_neg (by rw [← Bool.not_eq_true] at h; exact h)

theorem dataLeft_switches (h : switches (sentTo l x off true s) l x = true) :
    dataLeft l x off true false s = switchAway l x (sentTo l x off true s) := if_pos h

theorem sentTo_link : (sentTo l x off k s).link l =
    { s.link l with lastCkpt := if k = true then some off else (s.link l).lastCkpt } := by
  unfold sentTo
  split
  · rw [State.link_modLink_self, setSent_link]
  · rw [setSent_link]

theorem sentTo_queue (m : LinkId) : ((sentTo l x off k s).link m).queue = (s.link m).queue := by
  unfold sentTo
  split
  · rw [State.link_modLink]
    split
    · next e => subst e; dsimp only; rw [setSent_link]
    · rw [setSent_link]
  · rw [setSent_link]

theorem sentTo_info (h : xferInfo s x = some v) : xferInfo (sentTo l x off k s) x = some { v with sent := off } := by
  unfold sentTo
  split
  · exact (xferInfo_modLink _ _ _ _).trans (xferInfo_setSent off h)
  · exact xferInfo_setSent off h

theorem sentTo_acts (ha : a.xfer x) (h : Acts a u s) : Acts a u (sentTo l x off k s) := by
  unfold sentTo
  split
  · exact modLink_acts l _ (.quiet rfl rfl (fun _ h => .inl h) (.inl rfl) rfl rfl) (setSent_acts x off ha h)
  · exact setSent_acts x off ha h

theorem sentTo_key (y : Xfer) : xferKey (sentTo l x off k s) y = xferKey s y := by
  have h : xferKey (setSent x off s) y = xferKey s y := by
    rw [xferKey_eq, xferKey_eq, (setSent_light x off (.refl s)).layout]
  unfold sentTo
  split
  · exact (xferKey_modLink _ _ _ _).trans h
  · exact h

theorem sentTo_rec (hr : s.rec? j = some r) : (sentTo l (.dest j) off k s).rec? j = some { r with sent := off } := by
  have h := rec_modRec_self (fun r => { r with sent := off }) hr
  unfold sentTo
  split <;> exact h

theorem sentTo_slot (hs : (s.line n).slot = some sl) : ((sentTo l (.slot n) off k s).line n).slot = some { sl with sent := off } := by
  have h := slot_modSlot (fun sl => { sl with sent := off }) hs
  unfold sentTo
  split <;> exact h

theorem sentTo_seqNext : (sentTo l x off k s).seqNext = s.seqNext := by
  unfold sentTo
  split <;> cases x <;> rfl

theorem xferLine_of_info (h : xferInfo s x = some v) : xferLine s x = some v.line := by
  cases x with
  | dest i =>
    obtain ⟨r, p, hr, _, rfl⟩ := xferInfo_dest_iff.1 h
    exact congrArg (Option.map fun r => r.line) hr
  | slot n =>
    obtain ⟨sl, e, _, _, rfl⟩ := xferInfo_slot_iff.1 h
    rfl

/-- The switch check of R84 asks what it asks of the state the frame has left. -/
theorem switches_iff (hv : xferInfo s x = some v) : switches (sentTo l x off k (wireFreed l s)) l x = true ↔
    (∃ y, (s.link l).queue.find? (fun y => xferReady s y) = some y ∧ (xferKey s y).before (xferKey s x) = true) ∨
      (s.line v.line).state ≠ .ready ∨
      ∃ j r, x = .dest j ∧ s.rec? j = some r ∧ s.recGen r ≠ 0 ∧ (s.line r.line).held ≠ s.recGen r := by
  have hf := (sentTo_acts (a := only x) (l := l) (off := off) (k := k) rfl (.refl (wireFreed l s))).frame
  have hready : ∀ y, xferReady (sentTo l x off k (wireFreed l s)) y = xferReady s y := fun y =>
    (hf.xferReady (fun _ => id) y).trans (xferReady_modLink _ _ _ _)
  have hkey : ∀ y, xferKey (sentTo l x off k (wireFreed l s)) y = xferKey s y := fun y =>
    (sentTo_key y).trans (xferKey_modLink _ _ _ _)
  have hqueue : ((sentTo l x off k (wireFreed l s)).link l).queue = (s.link l).queue := by
    rw [sentTo_queue, wireFreed_link]
  have hout : outranked (sentTo l x off k (wireFreed l s)) l x = true ↔
      ∃ y, (s.link l).queue.find? (fun y => xferReady s y) = some y ∧ (xferKey s y).before (xferKey s x) = true := by
    unfold outranked
    simp only [hready, hqueue, hkey]
    cases (s.link l).queue.find? fun y => xferReady s y with
    | none => simp
    | some y => simp
  have hline : xferReady s x = true ↔ (s.line v.line).state = .ready := by
    unfold xferReady
    rw [xferLine_of_info hv]
    exact beq_iff_eq
  have hlost : lostGeneration s x = true ↔
      ∃ j r, x = .dest j ∧ s.rec? j = some r ∧ s.recGen r ≠ 0 ∧ (s.line r.line).held ≠ s.recGen r := by
    cases x with
    | slot n => exact ⟨nofun, fun ⟨_, _, h, _⟩ => nomatch h⟩
    | dest j =>
      unfold lostGeneration
      dsimp only
      cases hr : s.rec? j with
      | none => exact ⟨nofun, fun ⟨_, _, h, h', _⟩ => by cases h; rw [hr] at h'; cases h'⟩
      | some r =>
        simp only [Bool.and_eq_true, bne_iff_ne]
        refine ⟨fun h => ⟨j, r, rfl, hr, h⟩, fun ⟨_, _, h, h', h2⟩ => ?_⟩
        cases h
        cases hr.symm.trans h'
        exact h2
  unfold switches
  rw [hready, (hf.lostGeneration (fun _ => id) x), show lostGeneration (wireFreed l s) x = lostGeneration s x by cases x <;> rfl,
    Bool.or_eq_true, Bool.or_eq_true, or_assoc, hout, hlost, Bool.not_eq_true', ← Bool.not_eq_true, hline]

/-- The frame of the SENDING transfer has left. -/
theorem frameLeft_data_eq {w : WireFrame} {last : Bool} (hu : (s.link l).state = .up) (hw : (s.link l).wire = some w)
    (hr : (s.link l).rewindPending = false) (hrole : w.role = .data x off k last true) (hx : (s.link l).sending = some x) :
    frameLeft l s = departedPage (.data x off k last true) (kick l (dataLeft l x off k last (wireFreed l s))) := by
  rw [frameLeft_eq hu hw, hrole]
  congr 2
  unfold departed
  rw [wireFreed_link, if_neg (by rw [hr]; decide)]
  exact if_pos hx

theorem startWindow_link (hv : xferInfo s x = some v) : (startWindow l x s).link l =
    { s.link l with windowTimer := if 262144 ≤ v.sent - v.acked then some 2000 else (s.link l).windowTimer } := by
  unfold startWindow
  rw [hv]
  dsimp only
  by_cases h : v.windowFull = true
  · rw [if_pos h, State.link_modLink_self, if_pos (windowFull_iff.1 h)]; rfl
  · rw [if_neg h, if_neg fun c => h (windowFull_iff.2 c)]

theorem startWindow_info (y : Xfer) : xferInfo (startWindow l x s) y = xferInfo s y := by
  unfold startWindow
  split
  · split
    · exact xferInfo_modLink _ _ _ _
    · rfl
  · rfl

theorem Sends.live (h : Sends l s t) (hs : IsSending s x) : ∀ n, x = .dest n → ∃ r, t.rec? n = some r ∧ r.state.isFinal = false := by
  rintro n rfl
  obtain ⟨r, hr, hst⟩ := hs
  obtain ⟨b, hb⟩ := h.record n r hr
  exact ⟨_, hb, by dsimp only; rw [hst]; rfl⟩

theorem startWindow_rec (i : Nat) : (startWindow l x s).rec? i = s.rec? i := by
  unfold startWindow
  split
  · split <;> rfl
  · rfl

theorem startWindow_line (m : LineId) : (startWindow l x s).line m = s.line m := by
  unfold startWindow
  split
  · split <;> rfl
  · rfl

/-- A transfer that goes on (R79, R82). -/
theorem frameLeft_goesOn {w : WireFrame} (hu : (s.link l).state = .up) (hw : (s.link l).wire = some w)
    (hr : (s.link l).rewindPending = false) (hrole : w.role = .data x off k false true) (hx : (s.link l).sending = some x)
    (hs : IsSending s x) (hv : xferInfo s x = some v) (hk : k = false ∨ switches (sentTo l x off k (wireFreed l s)) l x = false) :
    ((frameLeft l s).link l).counters = ((wireFreed l s).link l).counters ∧ ((frameLeft l s).link l).sending = some x ∧
      ((frameLeft l s).link l).lastCkpt = (if k = true then some off else (s.link l).lastCkpt) ∧
      (∃ v', xferInfo (frameLeft l s) x = some v' ∧ v'.sent = off ∧ v'.acked = v.acked) ∧
      ((frameLeft l s).link l).windowTimer = if 262144 ≤ off - v.acked then some 2000 else (s.link l).windowTimer := by
  have hv0 : xferInfo (wireFreed l s) x = some v := (xferInfo_modLink _ _ _ _).trans hv
  have hv1 := sentTo_info (l := l) (off := off) (k := k) hv0
  have hkick := kick_sends l (startWindow l x (sentTo l x off k (wireFreed l s)))
  have hsend : IsSending (startWindow l x (sentTo l x off k (wireFreed l s))) x := by
    cases x with
    | dest n =>
      obtain ⟨r, hr, hst⟩ := hs
      exact ⟨_, (startWindow_rec n).trans (sentTo_rec (s := wireFreed l s) hr), hst⟩
    | slot n =>
      obtain ⟨sl, hsl, hst⟩ := hs
      have h := sentTo_slot (l := l) (s := wireFreed l s) (off := off) (k := k) hsl
      exact ⟨{ sl with sent := off }, (congrArg Line.slot (startWindow_line n)).trans h, hst⟩
  obtain ⟨b, hb⟩ := hkick.info ((startWindow_info x).trans hv1)
  obtain ⟨_, _, _, _, hl⟩ := hkick.link
  rw [startWindow_link hv1, sentTo_link] at hl
  rw [frameLeft_data_eq hu hw hr hrole hx, dataLeft_goesOn hk, departedPage_live (hkick.live hsend)]
  rw [hl, wireFreed_link]
  exact ⟨rfl, hx, rfl, ⟨_, hb, rfl, rfl⟩, rfl⟩

/-! ### A switch (R84, R85) -/

theorem PlacedBack.with_data (h : PlacedBack s r r') (hd : r.siteHasData = true) (hg : ¬ r.Gone) : PlacedWithData s (s.recGen r) r' := by
  have hq := h.queued
  have ht := h.targetWait
  have he := h.ended
  unfold PlacedWithData
  rw [h.line]
  unfold placement at hq ht he
  dsimp only at hq ht he
  split
  · next c => rw [if_pos c] at hq; exact (hq rfl).1
  · next c =>
    rw [if_neg c] at ht he
    cases hent : (s.line r.line).entry (s.recGen r) with
    | none =>
      rw [hent] at he
      have hret := he _ _ rfl
      rw [retracted_of_live hg, if_pos hd] at hret
      exact ⟨hret.1, hret.2.2⟩
    | some e =>
      rw [hent] at he ht
      dsimp only at he ht ⊢
      split
      · next hf =>
        rw [if_pos hf] at he
        have hret := he _ _ rfl
        rw [retracted_of_live hg, if_pos hd] at hret
        exact ⟨hret.1, hret.2.2⟩
      · next hf => rw [if_neg hf] at ht; exact ht rfl

/-- A live record that a queue has taken was placed there. -/
theorem PlacedBack.placement (h : PlacedBack s r r') (hg : ¬ r.Gone) (hst : r'.state = .queued ∨ r'.state = .sending) :
    placement s r = .queued := by
  cases hp : Machine.placement s r with
  | queued => rfl
  | targetWait => rw [h.targetWait hp] at hst; obtain c | c := hst <;> cases c
  | ended x d =>
    have hret := h.ended x d hp
    rw [retracted_of_live hg] at hret
    split at hret
    · rw [hret.1] at hst; obtain c | c := hst <;> cases c
    · rw [hret.1] at hst; cases x <;> obtain c | c := hst <;> cases c

theorem Sends.sendsTrue (h : Sends l s t) (hs : SendsTrue l j s) : SendsTrue l j t := fun c => by
  obtain ⟨_, _, _, _, hl⟩ := h.link
  rw [hl] at c
  obtain ⟨r, hr, hst⟩ := hs c
  obtain ⟨b, hb⟩ := h.record j r hr
  exact ⟨_, hb, hst⟩

theorem PlacedWithData.live {g : U16} (h : PlacedWithData s g r') : r'.state.isFinal = false := by
  have of : ∀ st, r'.state = st → st.isFinal = false → r'.state.isFinal = false := fun _ e h => e ▸ h
  unfold PlacedWithData at h
  split at h
  · obtain h | h := h <;> exact of _ h rfl
  · split at h
    · exact of _ h.1 rfl
    · split at h
      · exact of _ h.1 rfl
      · exact of _ h rfl

theorem PlacedWithData.of_line {g : U16} (hh : ∀ n, (t.line n).held = (s.line n).held) (hc : ∀ n, (t.line n).catalog = (s.line n).catalog)
    (h : PlacedWithData t g r') : PlacedWithData s g r' := by
  unfold PlacedWithData Line.entry at *
  rwa [hh, hc] at h

/-- A record switched away from, as it is handed back. -/
def handed (l : LinkId) (j off : Nat) (s : State) : State :=
  (clearSending l (sentTo l (.dest j) off true (wireFreed l s))).modRec j fun q => { q with sent := q.acked }

theorem handed_rec (hr : s.rec? j = some r) : (handed l j off s).rec? j = some { r with sent := r.acked } := by
  have h := (clearSending_rec l j _).trans (sentTo_rec (l := l) (s := wireFreed l s) (off := off) (k := true) hr)
  have h' := rec_modRec_self (fun q => { q with sent := q.acked }) h
  exact h'

theorem switchAway_dest (hr : s.rec? j = some r) :
    switchAway l (.dest j) (sentTo l (.dest j) off true (wireFreed l s)) = pick l (place j (handed l j off s)) := by
  have h := (clearSending_rec l j _).trans (sentTo_rec (l := l) (s := wireFreed l s) (off := off) (k := true) hr)
  rw [switchAway, handBack, h]
  rfl

theorem handed_acts : Acts (only (.dest j)) (wireFreed l s) (handed l j off s) :=
  modRec_acts j _ rfl ⟨fun _ => rfl, fun _ => rfl, fun _ => rfl⟩ (clearSending_acts l (sentTo_acts rfl (.refl _)))

theorem handed_link : ((handed l j off s).link l).sending = none := by
  obtain ⟨f, z, h⟩ := clearSending_link l (sentTo l (.dest j) off true (wireFreed l s))
  exact congrArg Link.sending h

theorem handed_unqueued (hu : Unqueued s j) : Unqueued (handed l j off s) j := by
  have h0 : Unqueued (sentTo l (.dest j) off true (wireFreed l s)) j := fun m => by
    rw [sentTo_queue, wireFreed, State.link_modLink]
    split
    · next e => subst e; exact hu m
    · exact hu m
  exact fun m c => h0 m (((clearSending_acts (a := picking) l (.refl _)).frame.queue m _ c).resolve_right id)

theorem handed_seqNext : (handed l j off s).seqNext = s.seqNext :=
  (schedMirror_seqNext _ _).trans sentTo_seqNext

theorem handed_frame : (∀ n, (((handed l j off s).line n).held = (s.line n).held ∧ ((handed l j off s).line n).catalog =
    (s.line n).catalog)) ∧ ∀ m, (handed l j off s).page? m = s.page? m := by
  have hf := (handed_acts (l := l) (j := j) (off := off) (s := s)).frame
  refine ⟨fun n => ?_, fun m => hf.page? m⟩
  rw [hf.line n id]
  exact ⟨rfl, rfl⟩

/-- A record switched away from is handed back to placing, and perhaps picked anew (R85). -/
theorem frameLeft_switches_dest {w : WireFrame} (hu : (s.link l).state = .up) (hw : (s.link l).wire = some w)
    (hrw : (s.link l).rewindPending = false) (hrole : w.role = .data (.dest j) off true false true)
    (hx : (s.link l).sending = some (.dest j)) (hsw : switches (sentTo l (.dest j) off true (wireFreed l s)) l (.dest j) = true)
    (hr : s.rec? j = some r) (hst : r.state = .sending) (hd : r.siteHasData = true) (hq : Unqueued s j) :
    ((frameLeft l s).link l).counters = ((wireFreed l s).link l).counters ∧ ∃ r', (frameLeft l s).rec? j = some r' ∧
      r'.line = r.line ∧ r'.attempts = r.attempts ∧ r'.acked = r.acked ∧ PlacedWithData s (s.recGen r) r' ∧
      (r'.state = .queued ∨ r'.state = .sending → r'.sent = r.acked ∧ (s.seqNext + 1 < 4294967295 → r'.seq = s.seqNext)) ∧
      (r'.state = .queued → ((frameLeft l s).link l).sending ≠ some (.dest j)) := by
  have hr5 := handed_rec (l := l) (off := off) hr
  obtain ⟨r1, h1, hb1, hs1⟩ := place_back hr5 (handed_unqueued (l := l) (off := off) hq)
  obtain ⟨r2, h2, hb2, hs2⟩ := hb1.later h1 hs1 (pick_picking l _) id False.elim
  have hkick := kick_sends l (pick l (place j (handed l j off s)))
  obtain ⟨b, h3⟩ := hkick.record j r2 h2
  have hgone : ¬ DestRec.Gone { r with sent := r.acked } := by
    unfold DestRec.Gone
    dsimp only
    rw [hst]
    exact fun c => c.elim nofun nofun
  have hgen : (handed l j off s).recGen { r with sent := r.acked } = s.recGen r := by
    unfold State.recGen
    rw [handed_frame.2]
  have hwd : PlacedWithData s (s.recGen r) r2 := by
    have h := hb2.with_data hd hgone
    rw [hgen] at h
    exact h.of_line (fun n => (handed_frame.1 n).1) fun n => (handed_frame.1 n).2
  have hwd' : PlacedWithData s (s.recGen r) { r2 with siteHasData := b } := hwd
  have hfin : ∀ n, Xfer.dest j = .dest n → ∃ q, (kick l (pick l (place j (handed l j off s)))).rec? n = some q ∧
      q.state.isFinal = false := fun n e => by cases e; exact ⟨_, h3, hwd'.live⟩
  have hcount : ((kick l (pick l (place j (handed l j off s)))).link l).counters = ((wireFreed l s).link l).counters := by
    have hacts : Acts anything (handed l j off s) (pick l (place j (handed l j off s))) :=
      pick_acts l (place_acts j trivial trivial (fun _ => trivial) (fun _ _ => trivial) trivial (.refl _))
    obtain ⟨_, _, _, _, hl⟩ := hkick.link
    rw [hl]
    exact (hacts.frame.link l).2.trans (handed_acts.frame.link l).2
  rw [frameLeft_data_eq hu hw hrw hrole hx, dataLeft_switches hsw, switchAway_dest hr, departedPage_live hfin]
  have hplaced : r2.state = .queued ∨ r2.state = .sending → placement (handed l j off s) { r with sent := r.acked } = .queued :=
    hb2.placement hgone
  refine ⟨hcount, _, h3, hb2.line, hb2.attempts, hb2.acked, hwd', fun hst2 => ⟨hb2.sent.elim id id, fun hlt => ?_⟩, fun hqd hsend => ?_⟩
  · have h := (hb2.queued (hplaced hst2)).2.2
    rw [handed_seqNext] at h
    exact h hlt
  · have htrue := (pick_picking l (place j (handed l j off s))).sendsTrue (l := l) (j := j) id
      (place_sendsTrue hr5 (hplaced (.inl hqd)) handed_link)
    obtain ⟨q, hq', hqs⟩ := (hkick.sendsTrue htrue) hsend
    cases hq'.symm.trans h3
    have hqd : r2.state = .queued := hqd
    have hqs : r2.state = .sending := hqs
    rw [hqd] at hqs
    cases hqs

theorem clearSending_line (l : LinkId) (m : LineId) (s : State) : (clearSending l s).line m = s.line m :=
  (schedMirror_still l (.refl (s.modLink l fun k => { k with
    sending := none, sendingSlack := 0, windowTimer := none, lastCkpt := none, openOwed := false, rewindPending := false }))).line m

/-- A slot switched away from returns to QUEUED with the next sequence, and perhaps is picked anew (R59, R85). -/
theorem frameLeft_switches_slot {w : WireFrame} (hu : (s.link l).state = .up) (hw : (s.link l).wire = some w)
    (hrw : (s.link l).rewindPending = false) (hrole : w.role = .data (.slot n) off true false true)
    (hx : (s.link l).sending = some (.slot n)) (hsw : switches (sentTo l (.slot n) off true (wireFreed l s)) l (.slot n) = true)
    (hs : (s.line n).slot = some sl) :
    ((frameLeft l s).link l).counters = ((wireFreed l s).link l).counters ∧ ∃ sl', ((frameLeft l s).line n).slot = some sl' ∧
      sl'.generation = sl.generation ∧ sl'.attempts = sl.attempts ∧ sl'.acked = sl.acked ∧ sl'.sent = sl.acked ∧
      (sl'.state = .queued ∨ sl'.state = .sending) ∧ (s.seqNext < 4294967295 → sl'.seq = s.seqNext) := by
  generalize hc : clearSending l (sentTo l (.slot n) off true (wireFreed l s)) = c
  have hcs : (c.line n).slot = some { sl with sent := off } := by
    have h := sentTo_slot (l := l) (s := wireFreed l s) (off := off) (k := true) hs
    rw [← hc, clearSending_line]
    exact h
  have hseq : c.seqNext = s.seqNext := by
    rw [← hc]; exact (schedMirror_seqNext _ _).trans sentTo_seqNext
  have hrun : Acts (only (.slot n)) (wireFreed l s) c := by
    rw [← hc]; exact clearSending_acts l (sentTo_acts rfl (.refl _))
  have e : switchAway l (.slot n) (sentTo l (.slot n) off true (wireFreed l s)) =
      pick l (requeueSlot n (fun sl => { sl with sent := sl.acked }) c) := by
    rw [← hc]; rfl
  have hkick := kick_sends l (pick l (requeueSlot n (fun sl => { sl with sent := sl.acked }) c))
  rw [frameLeft_data_eq hu hw hrw hrole hx, dataLeft_switches hsw, departedPage_live (x := .slot n) nofun, e]
  refine ⟨?_, ?_⟩
  · have hacts : Acts anything c (pick l (requeueSlot n (fun sl => { sl with sent := sl.acked }) c)) :=
      pick_acts l (requeueSlot_acts n _ trivial (.inl trivial) (.refl c))
    obtain ⟨_, _, _, _, hl⟩ := hkick.link
    rw [hl]
    exact (hacts.frame.link l).2.trans (hrun.frame.link l).2
  · obtain ⟨w1, b1, q, hq, h1⟩ := requeueSlot_slot (fun sl => { sl with sent := sl.acked }) hcs
    rw [hseq] at hq
    have final : ∀ sl2 : Slot, ((requeueSlot n (fun sl => { sl with sent := sl.acked }) c).line n).slot = some sl2 →
        sl2.generation = sl.generation → sl2.attempts = sl.attempts → sl2.acked = sl.acked → sl2.sent = sl.acked →
        sl2.state = .queued ∨ sl2.state = .sending → sl2.seq = q → ∃ sl', ((kick l (pick l (requeueSlot n
          (fun sl => { sl with sent := sl.acked }) c))).line n).slot = some sl' ∧ sl'.generation = sl.generation ∧
          sl'.attempts = sl.attempts ∧ sl'.acked = sl.acked ∧ sl'.sent = sl.acked ∧ (sl'.state = .queued ∨ sl'.state = .sending) ∧
          (s.seqNext < 4294967295 → sl'.seq = s.seqNext) := by
      intro sl2 h2 hg ha hk hse hst hsq
      obtain ⟨z, hz, hb⟩ := hkick.line n
      obtain h3 | h3 := picking_slot (pick_picking l _) h2
      · obtain ⟨b, hb⟩ := hb _ h3
        exact ⟨_, (congrArg Line.slot hz).trans hb, hg, ha, hk, hse, hst, fun hlt => hsq.trans (hq hlt)⟩
      · obtain ⟨b, hb⟩ := hb _ h3
        exact ⟨_, (congrArg Line.slot hz).trans hb, hg, ha, hk, hk, .inr rfl, fun hlt => hsq.trans (hq hlt)⟩
    obtain h1 | h1 := h1
    · exact final _ h1 rfl rfl rfl rfl (.inl rfl) rfl
    · exact final _ h1 rfl rfl rfl rfl (.inr rfl) rfl

/-! ### A rewind that waited (R83) -/

theorem frameLeft_rewinds {w : WireFrame} (hu : (s.link l).state = .up) (hw : (s.link l).wire = some w)
    (hrw : (s.link l).rewindPending = true) (hx : (s.link l).sending = some x) (hs : IsSending s x) (hv : xferInfo s x = some v)
    (hrole : ∀ y off k e, w.role = .data y off k e true → y = x) :
    frameLeft l s = rewind l (wireFreed l s) ∧ Rewound l x v (wireFreed l s) (frameLeft l s) := by
  have hx' : ((wireFreed l s).link l).sending = some x := by rw [wireFreed_link]; exact hx
  have hr := rewind_rewound hx' ((xferInfo_modLink _ _ _ _).trans hv)
  have hdep : departed l w.role (wireFreed l s) = rewind l (wireFreed l s) := if_pos (by rw [wireFreed_link]; exact hrw)
  have hlive : ∀ n, x = .dest n → ∃ r, (rewind l (wireFreed l s)).rec? n = some r ∧ r.state.isFinal = false := by
    rintro n rfl
    obtain ⟨r, hr, hst⟩ := hs
    have h := (rewind_light l (.refl (wireFreed l s))).rec? n
    rw [show (wireFreed l s).rec? n = some r from hr] at h
    obtain ⟨q, hq, hqv⟩ := Option.map_eq_some_iff.1 h
    refine ⟨q, hq, ?_⟩
    rw [show q.state = r.state from congrArg RecView.state hqv, hst]
    rfl
  have hpage : departedPage w.role (rewind l (wireFreed l s)) = rewind l (wireFreed l s) := by
    cases hwr : w.role with
    | data y off k e b =>
      cases b with
      | false => cases y <;> rfl
      | true =>
        obtain rfl := hrole y off k e hwr
        exact departedPage_live hlive
    | _ => rfl
  have e : frameLeft l s = rewind l (wireFreed l s) := by
    rw [frameLeft_eq hu hw, hdep, kick_busy (.inr (hr.wire (by rw [wireFreed_link]; exact hu))), hpage]
  exact ⟨e, e ▸ hr⟩

/-! ### The last frame (R28, R59, R86) -/

/-- Of a transfer that a run is not aimed at the acked offset stands. -/
theorem Acts.info_acked (h : Acts a s t) (hy : ¬ a.xfer y) (hn : ∀ n, ¬ a.line n) (hv : xferInfo s y = some v) :
    ∃ v', xferInfo t y = some v' ∧ v'.acked = v.acked := by
  cases y with
  | dest i =>
    obtain ⟨r, p, hr, hp, rfl⟩ := xferInfo_dest_iff.1 hv
    obtain ⟨r', hr', q, _, hheld⟩ := h.dest_held hy hr
    have hparent : r'.parent = r.parent := by obtain rfl | rfl := hheld <;> rfl
    have hacked : r'.acked = r.acked := by obtain rfl | rfl := hheld <;> rfl
    exact ⟨_, xferInfo_dest_iff.2 ⟨r', p, hr', by rw [hparent, h.frame.page?, hp], rfl⟩, hacked⟩
  | slot n =>
    obtain ⟨sl, e, hs, he, rfl⟩ := xferInfo_slot_iff.1 hv
    obtain ⟨sl', hs', w, b, q, _, _, hheld⟩ := h.slot_held hy hs
    have hgen : sl'.generation = sl.generation := by obtain rfl | rfl := hheld <;> rfl
    have hacked : sl'.acked = sl.acked := by obtain rfl | rfl := hheld <;> rfl
    have hent : (t.line n).entry sl'.generation = some e := by
      rw [hgen, h.frame.line n (hn n)]
      exact he
    exact ⟨_, xferInfo_slot_iff.2 ⟨sl', e, hs', hent, rfl⟩, hacked⟩

/-- A link without a transfer to send starts control frames only. -/
theorem kick_still_idle (h : (s.link l).sending = none) : Still s (kick l s) := by
  by_cases hb : (s.link l).state ≠ .up ∨ (s.link l).wire ≠ none
  · rw [kick_busy hb]; exact .refl s
  · obtain ⟨hu, hw⟩ := not_or.1 hb
    cases hc : (s.link l).control with
    | nil => rw [kick_nothing (not_not.1 hu) (not_not.1 hw) hc h]; exact .refl s
    | cons c cs => exact kick_still l (.inl (by rw [hc]; exact nofun)) (.refl s)

theorem kick_begin_wire {y : Xfer} (h : (t.link l).wire = none) (hu : (t.link l).state = .up) (hc : (t.link l).control = [])
    (hy : (t.link l).sending = some y) (ho : (t.link l).openOwed = true) (hv : xferInfo t y = some v) :
    ∃ f, ((kick l t).link l).wire = some ⟨f, .openFrame⟩ ∧ f.kind = 1 ∧ f.tag = BitVec.ofNat 16 y.tag ∧
      f.value = BitVec.ofNat 32 v.acked := by
  rw [kick_open hu h hc hy hv ho, startOpen, State.link_modLink_self]
  exact ⟨_, rfl, rfl, rfl, rfl⟩

/-- A transfer sent whole, before the link picks. -/
def wholeSent (l : LinkId) (x : Xfer) (off : Nat) (s : State) : State :=
  sentWhole x (clearSending l (setSent x off (wireFreed l s)))

theorem dataLeft_last : dataLeft l x off k true (wireFreed l s) = pick l (wholeSent l x off s) := rfl

theorem sentWhole_link (x : Xfer) (m : LinkId) (s : State) : (sentWhole x s).link m = s.link m := by
  cases x with
  | dest i => exact applyChange_link _ _ _ _
  | slot n => exact writeLineMirror_link _ _ _

theorem wholeSent_link : ∃ f z, (wholeSent l x off s).link l = { (wireFreed l s).link l with
    sending := none, sendingSlack := 0, windowTimer := none, lastCkpt := none, openOwed := false, rewindPending := false
    first := f, firstSlack := z } := by
  obtain ⟨f, z, h⟩ := clearSending_link l (setSent x off (wireFreed l s))
  refine ⟨f, z, ?_⟩
  rw [wholeSent, sentWhole_link, h, setSent_link]

theorem wholeSent_acts : Acts (only x) (wireFreed l s) (wholeSent l x off s) :=
  sentWhole_acts x rfl (clearSending_acts l (setSent_acts x off rfl (.refl _)))

theorem wholeSent_rec (hr : s.rec? j = some r) : (wholeSent l (.dest j) off s).rec? j =
    some { r with state := .receiptWait, sent := off, timer := .running 2000 } := by
  have h0 := rec_modRec_self (s := wireFreed l s) (fun r => { r with sent := off }) hr
  have h1 := (clearSending_rec l j _).trans h0
  have h2 := applyChange_rec_self (fun r => { r with state := .receiptWait, timer := .running Config.replyMs }) h1
  exact h2

theorem wholeSent_slot (hs : (s.line n).slot = some sl) : ((wholeSent l (.slot n) off s).line n).slot =
    some { sl with state := .confirmWait, sent := off, timer := some 2000 } := by
  have h0 := slot_modSlot (s := wireFreed l s) (fun sl => { sl with sent := off }) hs
  have h1 := (congrArg Line.slot (clearSending_line l n _)).trans h0
  have h2 := slot_modSlot (fun sl => { sl with state := .confirmWait, timer := some Config.replyMs }) h1
  exact (congrArg Line.slot ((writeLineMirror_still n (.refl _)).line n)).trans h2

theorem wholeSent_unqueued (hq : ∀ m, x ∉ (s.link m).queue) (m : LinkId) : x ∉ ((wholeSent l x off s).link m).queue := by
  have h0 : ((wholeSent l x off s).link m).queue = ((clearSending l (setSent x off (wireFreed l s))).link m).queue := by
    rw [wholeSent, sentWhole_link]
  rw [h0]
  intro c
  have h1 := ((clearSending_acts (a := picking) l (.refl _)).frame.queue m x c).resolve_right id
  rw [setSent_link, wireFreed, State.link_modLink] at h1
  split at h1
  · next e => subst e; exact hq m h1
  · exact hq m h1

/-- After the last frame the transfer waits for its answer, and the first entry whose line is READY is picked and opened. -/
structure LastLeft (s t : State) (l : LinkId) (x : Xfer) (off : Nat) (first : Option Xfer) : Prop where
  counters : (t.link l).counters = ((wireFreed l s).link l).counters
  sending : (t.link l).sending = first
  window : (t.link l).windowTimer = none
  queue : ∀ y, first = some y → (t.link l).queue = (s.link l).queue.filter fun z => z != y
  opens : ∀ y v, first = some y → xferInfo s y = some v → (s.link l).control = [] → ∃ f,
    (t.link l).wire = some ⟨f, .openFrame⟩ ∧ f.kind = 1 ∧ f.tag = BitVec.ofNat 16 y.tag ∧ f.value = BitVec.ofNat 32 v.acked
  dest : ∀ j r, x = .dest j → s.rec? j = some r → t.rec? j = some { r with state := .receiptWait, sent := off, timer := .running 2000 }
  slot : ∀ n sl, x = .slot n → (s.line n).slot = some sl →
    (t.line n).slot = some { sl with state := .confirmWait, sent := off, timer := some 2000 }

theorem picking_slot_unqueued (h : Acts picking s t) (hq : ∀ m, Xfer.slot n ∉ (s.link m).queue) (hs : (s.line n).slot = some sl) :
    (t.line n).slot = some sl := by
  obtain ⟨sl', hs', w, b, q, hk, hq, rfl⟩ := h.slot_kept id (.inl fun m _ => hq m) hs
  obtain ⟨rfl, rfl⟩ := hk.resolve_left id
  obtain rfl := hq.resolve_left id
  exact hs'

theorem kick_pick_whole (hu : (s.link l).state = .up) (hq : ∀ m, x ∉ (s.link m).queue) :
    LastLeft s (kick l (pick l (wholeSent l x off s))) l x off ((s.link l).queue.find? fun y => xferReady s y) := by
  obtain ⟨f, z, hl⟩ := wholeSent_link (l := l) (x := x) (off := off) (s := s)
  have hacts := wholeSent_acts (l := l) (x := x) (off := off) (s := s)
  have hun := wholeSent_unqueued (l := l) (off := off) hq
  have hrec := fun j r => wholeSent_rec (l := l) (off := off) (s := s) (j := j) (r := r)
  have hslot := fun n sl => wholeSent_slot (l := l) (off := off) (s := s) (n := n) (sl := sl)
  have hready : ∀ y, xferReady (wholeSent l x off s) y = xferReady s y := fun y =>
    (hacts.frame.xferReady (fun _ => id) y).trans (xferReady_modLink _ _ _ _)
  have hfirst : ((wholeSent l x off s).link l).queue.find? (fun y => xferReady (wholeSent l x off s) y) =
      (s.link l).queue.find? fun y => xferReady s y := by
    simp only [hready, hl, wireFreed_link]
  have hdest : ∀ j r, x = .dest j → s.rec? j = some r → (pick l (wholeSent l x off s)).rec? j =
      some { r with state := .receiptWait, sent := off, timer := .running 2000 } := fun j r e hr => by
    subst e
    exact pick_rec_unqueued l (hrec j r hr) fun m => hun m
  have hsl : ∀ n sl, x = .slot n → (s.line n).slot = some sl → ((pick l (wholeSent l x off s)).line n).slot =
      some { sl with state := .confirmWait, sent := off, timer := some 2000 } := fun n sl e hs => by
    subst e
    exact picking_slot_unqueued (pick_picking l _) hun (hslot n sl hs)
  have hq0 : ∀ y, ((s.link l).queue.find? fun y => xferReady s y) = some y → y ≠ x := fun y hy e =>
    hq l (e ▸ List.mem_of_find?_eq_some hy)
  clear hrec hslot
  generalize wholeSent l x off s = w at hl hacts hready hfirst hdest hsl
  cases hf : (s.link l).queue.find? fun y => xferReady s y with
  | none =>
    rw [hf] at hfirst
    have hp := pick_none hfirst
    rw [hp] at hdest hsl ⊢
    have hk := kick_still_idle (l := l) (s := w) (by rw [hl])
    obtain ⟨_, _, _, _, hlk⟩ := (kick_sends l w).link
    rw [hl] at hlk
    refine ⟨by rw [hlk], by rw [hlk], by rw [hlk], nofun, nofun, fun j r e hr => ?_, fun n sl e hs => ?_⟩
    · rw [hk.rec?]; exact hdest j r e hr
    · rw [hk.line]; exact hsl n sl e hs
  | some y =>
    rw [hf] at hfirst
    have hp := pick_some (by rw [hl, wireFreed_link]; exact hu) (by rw [hl]) hfirst
    obtain ⟨z1, f1, g1, hb⟩ := beginSending_link l y w
    rw [hl, wireFreed_link] at hb
    have hacts2 : Acts (only x) (wireFreed l s) (markSending y (takePicked l y w)) := hacts.step (.pick l y (by rw [hl, wireFreed_link]; exact hu)
      (List.mem_of_find?_eq_some hfirst) (List.find?_some hfirst))
    have hstill := beginSending_still l y w
    rw [hp, kick_kick, ← hp]
    obtain ⟨_, _, _, _, hlk⟩ := (kick_sends l (beginSending l y w)).link
    rw [hb, ← hp] at hlk
    refine ⟨by rw [hlk, wireFreed_link], by rw [hlk], by rw [hlk], fun y' e => ?_, fun y' v e hv hc => ?_, hdest, hsl⟩
    · cases e
      rw [hlk]
    · cases e
      obtain ⟨v', hv', hacked⟩ := hacts2.info_acked (y := y) (hq0 y hf) (fun _ => id) ((xferInfo_modLink _ _ _ _).trans hv)
      have h := kick_begin_wire (l := l) (t := beginSending l y w) (y := y) (by rw [hb]) (by rw [hb]; exact hu) (by rw [hb]; exact hc)
        (by rw [hb]) (by rw [hb]) ((hstill.xferInfo y).trans hv')
      rw [hacked, ← hp] at h
      exact h

/-- The last frame of a transfer has left. -/
theorem frameLeft_last {w : WireFrame} (hu : (s.link l).state = .up) (hw : (s.link l).wire = some w)
    (hrw : (s.link l).rewindPending = false) (hrole : w.role = .data x off k true true) (hx : (s.link l).sending = some x)
    (hs : IsSending s x) (hq : ∀ m, x ∉ (s.link m).queue) :
    LastLeft s (frameLeft l s) l x off ((s.link l).queue.find? fun y => xferReady s y) := by
  have h := kick_pick_whole (off := off) hu hq
  have hlive : ∀ n, x = .dest n → ∃ r, (kick l (pick l (wholeSent l x off s))).rec? n = some r ∧ r.state.isFinal = false := by
    rintro n rfl
    obtain ⟨r, hr, _⟩ := hs
    exact ⟨_, h.dest n r rfl hr, rfl⟩
  rw [frameLeft_data_eq hu hw hrw hrole hx, dataLeft_last, departedPage_live hlive]
  exact h

end Sys2Proof.Machine

namespace Sys2Proof.Delivery

open Sys2Proof Sys2Proof.Machine

/-- Settles O54: by the role of the frame that has left. -/
theorem frameLeaves : Obligations.FrameLeaves := by
  intro s l
  refine ⟨fun h => congrArg _ (frameLeft_dark h), fun w hu hw => ?_⟩
  have hfreed : ((wireFreed l s).link l).counters =
      { (s.link l).counters with framesSent := satInc (s.link l).counters.framesSent } := by rw [wireFreed_link]
  dsimp only
  rw [← hfreed]
  refine ⟨⟨_, rfl, ?_⟩, fun c cs hr hrole hc => ?_, fun x v off k hr hrole hx hs hv => ⟨fun hk => ?_, fun hk hl hlink => ?_⟩,
    fun x v off k hr hrole hx hs hv hq => ?_, fun x v hr hx hs hv hrole => ?_⟩
  · exact frameLeft_counted hu hw
  · have hk := kick_control (s := wireFreed l s) (c := c) (cs := cs) (by rw [wireFreed_link]; exact hu) (by rw [wireFreed_link])
      (by rw [wireFreed_link]; exact hc)
    have e : frameLeft l s = _ := (frameLeft_idle hu hw hrole hr).trans hk
    refine ⟨_, congrArg Host.Outcome.next e, ?_, rfl, fun m hm => ?_⟩
    · rw [State.link_modLink_self, wireFreed_link]
      rfl
    · rw [State.link_modLink, if_neg hm, wireFreed, State.link_modLink, if_neg hm]
  · have hsw := switches_iff (l := l) (off := off) (k := k) hv
    exact ⟨_, rfl, frameLeft_goesOn hu hw hr hrole hx hs hv (hk.imp_right fun h => Bool.eq_false_iff.2 fun c => h (hsw.1 c))⟩
  · subst hk
    have hsw := (switches_iff (l := l) (off := off) (k := true) hv).2 hl
    refine ⟨fun j r hj hrec hd hq => ?_, fun n sl hn hslot _ => ?_⟩
    · subst hj
      obtain ⟨r', hr', hst⟩ := hs
      cases hrec.symm.trans hr'
      exact ⟨_, rfl, frameLeft_switches_dest hu hw hr hrole hx hsw hrec hst hd hq⟩
    · subst hn
      exact ⟨_, rfl, frameLeft_switches_slot hu hw hr hrole hx hsw hslot⟩
  · obtain ⟨h1, h2, h3, h4, h5, h6, h7⟩ := frameLeft_last hu hw hr hrole hx hs hq
    exact ⟨_, rfl, h1, h2, h3, h4, h5, h6, h7⟩
  · obtain ⟨_, hrew⟩ := frameLeft_rewinds hu hw hr hx hs hv hrole
    obtain ⟨cs, w', o, hk⟩ := hrew.link
    have howes := hrew.owes
    have hopens := hrew.opens
    rw [wireFreed_link] at howes hopens
    refine ⟨_, rfl, ?_, ?_, ?_, ?_, fun hc => howes (.inr (.inr hc)), fun hc => hopens hu rfl hc, _, hrew.info, rfl, rfl⟩
    · rw [hk]; rfl
    · rw [hk]; rfl
    · rw [hk]; rfl
    · rw [hk, wireFreed_link]; rfl

end Sys2Proof.Delivery
end

section
/-! A link that comes UP or leaves UP: what it makes of its press lines, of the records of its lines and of the polls that are running
(R31, R32, R62, R88, R129, R139, R140, R159). -/

namespace Sys2Proof.Machine

variable {a : Aim} {b s t u : State} {l : LinkId} {i : Nat} {r r' : DestRec} {p : Page} {n m : LineId}

theorem mem_linesOn : n ∈ s.linesOn l ↔ (s.line n).enabled = true ∧ (s.line n).cfg.link = l := by
  unfold State.linesOn
  rw [List.mem_filter, Bool.and_eq_true, beq_iff_eq]
  exact and_iff_right (List.mem_finRange n)

theorem mem_recsOnLink (hr : s.rec? i = some r) (hl : s.linkOf r.line = l) : i ∈ s.recsOnLink l :=
  List.mem_map.2 ⟨(i, r), List.mem_filter.2 ⟨Table.mem_of_get hr, beq_iff_eq.2 hl⟩, rfl⟩

/-- A run over a list that has an element brings what that element brings, where the others neither hinder nor undo it. -/
theorem foldl_reaches {α : Type} {f : State → α → State} {P Q : State → Prop} {x : α} (xs : List α) (hx : x ∈ xs)
    (pre : ∀ s y, y ≠ x → P s → P (f s y)) (here : ∀ s, P s → Q (f s x)) (post : ∀ s y, Q s → Q (f s y)) (h : P s) :
    Q (xs.foldl f s) := by
  have after : ∀ (ys : List α) (s : State), Q s → Q (ys.foldl f s) := by
    intro ys
    induction ys with
    | nil => exact fun _ h => h
    | cons y ys ih => exact fun s h => ih _ (post s y h)
  induction xs generalizing s with
  | nil => cases hx
  | cons y ys ih =>
    by_cases e : y = x
    · subst e; exact after ys _ (here s h)
    · exact ih ((List.mem_cons.1 hx).resolve_left fun c => e c.symm) (pre s y e h)

theorem foldl_induct {α : Type} {f : State → α → State} {P : State → Prop} (xs : List α) (hf : ∀ s, ∀ x ∈ xs, P s → P (f s x)) (h : P s) :
    P (xs.foldl f s) := by
  induction xs generalizing s with
  | nil => exact h
  | cons x xs ih => exact ih (fun s y hy => hf s y (.tail _ hy)) (hf s x (.head _) h)

/-! ### Lines that enter a state without a pick (R129, R134) -/

/-- Some lines are in a state, counted; all else but what has been written and raised is as it was. -/
structure Enters (st : LineState) (ns : List LineId) (s t : State) : Prop where
  frame : t = { s with order := t.order, bus := t.bus, lines := t.lines }
  entered : ∀ n ∈ ns, ∃ z c, t.line n = { s.line n with state := st, requery := z, changeCount := c } ∧ (st ≠ .unknown → z = none)
  other : ∀ n, n ∉ ns → t.line n = s.line n

theorem settleLine_line (old : Line) (n m : LineId) (s : State) : (settleLine old n s).line m = if m = n then { s.line n with
    requery := requeryAfter (s.isUp (s.line n).cfg.link) old (s.line n)
    changeCount := if old.differs (s.line n) then satInc (s.line n).changeCount else (s.line n).changeCount } else s.line m := by
  unfold settleLine
  dsimp only
  split
  · rw [(writeLineMirror_still n (.refl _)).line, State.line_modLine]
  · rw [State.line_modLine]

theorem changeLine_line (n m : LineId) (f : Line → Line) (s : State) : ∃ z c, (changeLine n f s).line m =
    if m = n then { f (s.line n) with requery := z, changeCount := c } else s.line m := by
  unfold changeLine
  rw [settleLine_line, State.line_modLine, if_pos rfl, State.line_modLine]
  exact ⟨_, _, ite_congr rfl (fun _ => rfl) fun e => if_neg e⟩

theorem changeLine_requery {st : LineState} (h : st ≠ .unknown) (n : LineId) (s : State) :
    ((changeLine n (fun k => { k with state := st }) s).line n).requery = none := by
  unfold changeLine
  rw [settleLine_line, if_pos rfl, State.line_modLine, if_pos rfl]
  exact if_pos h

theorem settleLine_frame (old : Line) (n : LineId) (s : State) :
    settleLine old n s = { s with order := (settleLine old n s).order, bus := (settleLine old n s).bus, lines := (settleLine old n s).lines } := by
  have mirrored : ∀ (c : Bool) (t : State), Outward t (if c then writeLineMirror n t else t) := fun c t => by
    cases c
    · exact .refl t
    · exact deskWrite_outward _ _ t
  obtain ⟨o, w, e⟩ := mirrored _ (s.modLine n _)
  have e : settleLine old n s = _ := e
  rw [e]
  rfl

theorem enterLineState_enters {st : LineState} (h : st ≠ .ready) (n : LineId) (s : State) : Enters st [n] s (enterLineState s (n, st)) := by
  have hline := fun m => changeLine_line n m (fun k => { k with state := st }) s
  have e : enterLineState s (n, st) = changeLine n (fun k => { k with state := st }) s := by
    refine if_neg fun c => h ?_
    obtain ⟨z, k, hn⟩ := hline n
    rw [if_pos rfl] at hn
    rw [← c.1, hn]
  rw [e]
  refine ⟨settleLine_frame _ _ _, fun m hm => ?_, fun m hm => ?_⟩
  · obtain rfl := List.mem_singleton.1 hm
    obtain ⟨z, k, hn⟩ := hline m
    rw [if_pos rfl] at hn
    refine ⟨z, k, hn, fun hu => ?_⟩
    have := changeLine_requery hu m s
    rw [hn] at this
    exact this
  · obtain ⟨z, k, hn⟩ := hline m
    rw [hn, if_neg fun c => hm (List.mem_singleton.2 c)]

theorem Enters.refl (st : LineState) (s : State) : Enters st [] s s := ⟨rfl, nofun, fun _ _ => rfl⟩

theorem Enters.trans {st : LineState} {ns ms : List LineId} (h : Enters st ns s t) (k : Enters st ms t u) : Enters st (ns ++ ms) s u := by
  refine ⟨by rw [k.frame, h.frame], fun n hn => ?_, fun n hn => ?_⟩
  · by_cases hm : n ∈ ms
    · obtain ⟨z, c, e, hz⟩ := k.entered n hm
      by_cases hn' : n ∈ ns
      · obtain ⟨z', c', e', _⟩ := h.entered n hn'
        exact ⟨z, c, by rw [e, e'], hz⟩
      · exact ⟨z, c, by rw [e, h.other n hn'], hz⟩
    · obtain ⟨z, c, e, hz⟩ := h.entered n ((List.mem_append.1 hn).resolve_right hm)
      exact ⟨z, c, by rw [k.other n hm, e], hz⟩
  · rw [k.other n fun c => hn (List.mem_append.2 (.inr c)), h.other n fun c => hn (List.mem_append.2 (.inl c))]

theorem Outward.enters {st : LineState} (h : Outward s t) : Enters st [] s t := by
  obtain ⟨o, w, rfl⟩ := h
  exact ⟨rfl, nofun, fun _ _ => rfl⟩

theorem setLineStates_enters {st : LineState} (h : st ≠ .ready) (ns : List LineId) (s : State) :
    Enters st ns s (setLineStates (ns.map fun n => (n, st)) s) := by
  have hfold : ∀ (ns : List LineId) (s : State), Enters st ns s ((ns.map fun n => (n, st)).foldl enterLineState s) := by
    intro ns
    induction ns with
    | nil => exact fun s => .refl st s
    | cons n ns ih => exact fun s => (enterLineState_enters h n s).trans (ih _)
  have hr : Outward ((ns.map fun n => (n, st)).foldl enterLineState s) (setLineStates (ns.map fun n => (n, st)) s) := by
    unfold setLineStates raiseIfAnyChanged
    split
    · exact raise_outward _ _
    · exact .refl _
  have := (hfold ns s).trans hr.enters
  rwa [List.append_nil] at this

section

variable {st : LineState} {ns : List LineId}

theorem Enters.rec? (h : Enters st ns s t) (i : Nat) : t.rec? i = s.rec? i := by rw [h.frame]; rfl

theorem Enters.page? (h : Enters st ns s t) (i : Nat) : t.page? i = s.page? i := by rw [h.frame]; rfl

theorem Enters.link (h : Enters st ns s t) (l : LinkId) : t.link l = s.link l := by rw [h.frame]; rfl

theorem Enters.clock (h : Enters st ns s t) : t.clock = s.clock := by rw [h.frame]

/-- Of a line only the state, the re-query timer and the count of changes can differ. -/
theorem Enters.line (h : Enters st ns s t) (n : LineId) : ∃ st' z c, t.line n = { s.line n with state := st', requery := z, changeCount := c } := by
  by_cases hn : n ∈ ns
  · obtain ⟨z, c, e, _⟩ := h.entered n hn
    exact ⟨_, z, c, e⟩
  · exact ⟨_, _, _, h.other n hn⟩

theorem Enters.linkOf (h : Enters st ns s t) (n : LineId) : t.linkOf n = s.linkOf n := by
  obtain ⟨_, _, _, e⟩ := h.line n
  unfold State.linkOf
  rw [e]

end

/-! ### What the pool does for the records of a link (R31, R32) -/

/-- Of the records only some can have changed; pages, lines and the clock stand, and links but for what waits on them. -/
structure PoolOnly (A : Nat → Prop) (s t : State) : Prop where
  pages : t.pages = s.pages
  clock : t.clock = s.clock
  lines : t.lines = s.lines
  links : ∀ l, LinkStays (s.link l) (t.link l)
  others : ∀ i, ¬ A i → t.rec? i = s.rec? i

variable {A : Nat → Prop}

theorem PoolOnly.refl (s : State) : PoolOnly A s s := ⟨rfl, rfl, rfl, fun _ => .refl _, fun _ _ => rfl⟩

theorem PoolOnly.trans (h : PoolOnly A s t) (k : PoolOnly A t u) : PoolOnly A s u :=
  ⟨k.pages.trans h.pages, k.clock.trans h.clock, k.lines.trans h.lines, fun l => (h.links l).trans (k.links l),
    fun i hi => (k.others i hi).trans (h.others i hi)⟩

theorem PoolOnly.mono {B : Nat → Prop} (h : PoolOnly A s t) (k : ∀ i, A i → B i) : PoolOnly B s t :=
  { h with others := fun i hi => h.others i fun c => hi (k i c) }

theorem Still.poolOnly (h : Still s t) : PoolOnly A s t := ⟨h.pages, h.clock, h.lines, h.links, fun i _ => h.rec? i⟩

theorem PoolOnly.page? (h : PoolOnly A s t) (n : Nat) : t.page? n = s.page? n := by unfold State.page?; rw [h.pages]

theorem PoolOnly.line (h : PoolOnly A s t) (n : LineId) : t.line n = s.line n := by unfold State.line; rw [h.lines]

theorem PoolOnly.linkOf (h : PoolOnly A s t) (n : LineId) : t.linkOf n = s.linkOf n := by unfold State.linkOf; rw [h.line]

theorem PoolOnly.unqueued (h : PoolOnly A s t) (hu : Unqueued s i) : Unqueued t i := fun l c => hu l ((h.links l).queue ▸ c)

theorem PoolOnly.mayRelease (h : PoolOnly A s t) (hp : s.page? r.parent = some p) : mayRelease t r = mayRelease s r := by
  rw [Bool.eq_iff_iff, mayRelease_iff hp, mayRelease_iff ((h.page? _).trans hp), h.line, h.clock, h.linkOf, (h.links _).state]

theorem modRec_poolOnly (j : Nat) (f : DestRec → DestRec) (s : State) : PoolOnly (· = j) s (s.modRec j f) :=
  ⟨rfl, rfl, rfl, fun _ => .refl _, fun i hi => (rec_modRec s j i f).trans (if_neg hi)⟩

theorem applyChange_poolOnly (j : Nat) (f : DestRec → DestRec) (s : State) : PoolOnly (· = j) s (applyChange j f s) := by
  obtain ⟨w, d, h⟩ := applyChange_eq j f s
  refine (modRec_poolOnly j f s).trans ?_
  rw [h]
  exact ⟨rfl, rfl, rfl, fun _ => .refl _, fun _ _ => rfl⟩

theorem sendRelease_poolOnly (j : Nat) (s : State) : PoolOnly (· = j) s (sendRelease j s) := by
  unfold sendRelease
  split
  · exact .refl s
  · split
    · exact .refl s
    · exact (modRec_poolOnly j _ s).trans (offer_still _ _ (.refl _)).poolOnly

theorem sendWithdraw_poolOnly (j : Nat) (s : State) : PoolOnly (· = j) s (sendWithdraw j s) := by
  unfold sendWithdraw
  split
  · exact .refl s
  · split
    · exact .refl s
    · exact (modRec_poolOnly j _ s).trans (offer_still _ _ (.refl _)).poolOnly

theorem releaseCheck_poolOnly (j : Nat) (s : State) : PoolOnly (· = j) s (releaseCheck j s) := by
  unfold releaseCheck
  split
  · exact .refl s
  · split
    · exact (applyChange_poolOnly j _ s).trans (sendRelease_poolOnly j _)
    · exact .refl s

theorem recLinkUp_poolOnly (j : Nat) (s : State) : PoolOnly (· = j) s (recLinkUp j s) := by
  unfold recLinkUp
  split
  · exact .refl s
  · split
    · split
      · exact sendRelease_poolOnly j s
      · exact modRec_poolOnly j _ s
    · split
      · exact sendWithdraw_poolOnly j s
      · exact modRec_poolOnly j _ s
    · exact releaseCheck_poolOnly j s
    all_goals exact .refl s

theorem pauseTimer_poolOnly (j : Nat) (s : State) : PoolOnly (· = j) s (pauseTimer j s) := modRec_poolOnly j _ s

theorem foldl_poolOnly {f : State → Nat → State} (hf : ∀ s j, PoolOnly (· = j) s (f s j)) (js : List Nat) (s : State) :
    PoolOnly (· ∈ js) s (js.foldl f s) :=
  foldl_induct (P := fun t => PoolOnly (· ∈ js) s t) js (fun t j hj h => h.trans ((hf t j).mono fun _ e => e ▸ hj)) (.refl s)

theorem sendRelease_offers (hr : s.rec? i = some r) (hp : s.page? r.parent = some p) (hl : s.linkOf r.line = l)
    (hu : (s.link l).state = .up) : Offered (sendRelease i s) l (.release i r.line p.key p.version) := by
  rw [sendRelease_eq hr hp, hl]
  exact offer_offered hu

theorem sendWithdraw_offers (hr : s.rec? i = some r) (hp : s.page? r.parent = some p) (hl : s.linkOf r.line = l)
    (hu : (s.link l).state = .up) : Offered (sendWithdraw i s) l (.withdraw i r.line p.key p.version) := by
  rw [sendWithdraw_eq hr hp, hl]
  exact offer_offered hu

theorem releaseCheck_offers (hr : s.rec? i = some r) (hp : s.page? r.parent = some p) (hl : s.linkOf r.line = l)
    (hm : mayRelease s r = true) : Offered (releaseCheck i s) l (.release i r.line p.key p.version) := by
  have k := applyChange_poolOnly i (fun q => { q with state := .releasing, sendCount := 0 }) s
  have h1 : (enterReleasing i s).rec? i = some { r with state := .releasing, sendCount := 0 } := applyChange_rec_self _ hr
  rw [releaseCheck_passes hr hm]
  have h := sendRelease_offers (l := l) h1 ((k.page? r.parent).trans hp) ((k.linkOf r.line).trans hl)
    ((k.links l).state.trans (hl ▸ ((mayRelease_iff hp).1 hm).2.2.2))
  exact h

/-- The records that may change state of themselves as the pool goes over a link's records. -/
def aimedAt (j : Nat) : Aim where
  xfer x := x = .dest j
  line _ := False
  keys _ := False
  reseq := False

theorem recLinkUp_acts (j : Nat) (hf : a.frames) (ha : a.xfer (.dest j)) (h : Acts a b s) : Acts a b (recLinkUp j s) := by
  have hm := modRec_acts j (fun q : DestRec => { q with timer := q.timer.resume }) ha ⟨fun _ => rfl, fun _ => rfl, fun _ => rfl⟩ h
  unfold recLinkUp
  split
  · exact h
  · split
    · split
      · exact sendRelease_acts j hf ha h
      · exact hm
    · split
      · exact sendWithdraw_acts j hf ha h
      · exact hm
    · exact releaseCheck_acts j hf ha h
    all_goals exact h

/-- A RELEASING or WITHDRAWING record that has had a send has its timer resumed (R32). -/
theorem recLinkUp_sent (hr : s.rec? i = some r) (hs : r.state = .releasing ∨ r.state = .withdrawing) (hc : r.sendCount ≠ 0) :
    recLinkUp i s = s.modRec i fun q => { q with timer := q.timer.resume } := by
  unfold recLinkUp
  rw [hr]
  obtain hs | hs := hs <;> simp only [hs] <;> exact if_neg hc

theorem recLinkUp_unsent (hr : s.rec? i = some r) (hs : r.state = .withdrawing) (hc : r.sendCount = 0) :
    recLinkUp i s = sendWithdraw i s := by
  unfold recLinkUp
  rw [hr]
  simp only [hs]
  exact if_pos hc

theorem recLinkUp_releasing (hr : s.rec? i = some r) (hs : r.state = .releasing) (hc : r.sendCount = 0) :
    recLinkUp i s = sendRelease i s := by
  unfold recLinkUp
  rw [hr]
  simp only [hs]
  exact if_pos hc

theorem recLinkUp_delivered (hr : s.rec? i = some r) (hs : r.state = .delivered) : recLinkUp i s = releaseCheck i s := by
  unfold recLinkUp
  rw [hr]
  simp only [hs]

theorem ReplyTimer.resume_resume (k : ReplyTimer) : k.resume.resume = k.resume := by cases k <;> rfl

/-- A record that has had its send, with the frame of it offered. -/
structure Sent (i : Nat) (r : DestRec) (l : LinkId) (c : CtlFrame) (t : State) : Prop where
  record : t.rec? i = some r
  offered : Offered t l c

/-- The pool's further work on a link's records leaves a record that has had its send. -/
theorem Sent.recLinkUp {c : CtlFrame} (h : Sent i r l c s) (hs : r.state = .releasing ∨ r.state = .withdrawing) (hc : r.sendCount ≠ 0)
    (ht : r.timer.resume = r.timer) (hi : ∀ j ≠ i, ¬ (aimedAt j).drops c) (j : Nat) : Sent i r l c (recLinkUp j s) := by
  by_cases e : j = i
  · subst e
    rw [recLinkUp_sent h.record hs hc]
    refine ⟨(rec_modRec_self _ h.record).trans (congrArg some ?_), ?_⟩
    · rw [ht]
    · have ho := h.offered
      unfold Offered at ho ⊢
      rw [ctlFrame_congr (t := s.modRec j _) (s := s) fun _ => rfl]
      exact ho
  · exact ⟨((recLinkUp_poolOnly j s).others i fun c => e c.symm).trans h.record,
      (recLinkUp_acts j trivial (show (aimedAt j).xfer (.dest j) from rfl) (.refl s)).offered (hi j e) h.offered⟩

/-- What the pool's pass over the records of an UP link brings a record of it (R32). -/
theorem foldl_recLinkUp_sent {c : CtlFrame} {r0 : DestRec} {js : List Nat} (hi : i ∈ js) (hr : s.rec? i = some r0)
    (here : ∀ t, PoolOnly (· ≠ i) s t → t.rec? i = some r0 → Sent i r l c (recLinkUp i t))
    (hs : r.state = .releasing ∨ r.state = .withdrawing) (hc : r.sendCount ≠ 0)
    (ht : r.timer.resume = r.timer) (hd : ∀ j ≠ i, ¬ (aimedAt j).drops c) : Sent i r l c (js.foldl (fun s n => recLinkUp n s) s) :=
  foldl_reaches (P := fun t => PoolOnly (· ≠ i) s t ∧ t.rec? i = some r0) js hi
    (fun t j hj h => ⟨h.1.trans ((recLinkUp_poolOnly j t).mono fun k (e : k = j) => e.symm ▸ hj),
      ((recLinkUp_poolOnly j t).others i fun c => hj c.symm).trans h.2⟩)
    (fun t h => here t h.1 h.2) (fun _ j h => h.recLinkUp hs hc ht hd j) ⟨.refl s, hr⟩

theorem foldl_recLinkUp_resumed {js : List Nat} (hi : i ∈ js) (hr : s.rec? i = some r) (hs : r.state = .releasing ∨ r.state = .withdrawing)
    (hc : r.sendCount ≠ 0) : (js.foldl (fun s n => recLinkUp n s) s).rec? i = some { r with timer := r.timer.resume } := by
  have resumed : ∀ t (q : DestRec), t.rec? i = some q → q.state = r.state → q.sendCount = r.sendCount →
      (recLinkUp i t).rec? i = some { q with timer := q.timer.resume } := fun t q hq h1 h2 => by
    rw [recLinkUp_sent hq (by rw [h1]; exact hs) (by rw [h2]; exact hc)]
    exact rec_modRec_self _ hq
  have others : ∀ (t : State) (j : Nat), j ≠ i → (recLinkUp j t).rec? i = t.rec? i := fun t j hj =>
    (recLinkUp_poolOnly j t).others i fun c => hj c.symm
  refine foldl_reaches (P := fun t => t.rec? i = some r) (Q := fun t => t.rec? i = some { r with timer := r.timer.resume }) js hi
    (fun t j hj h => (others t j hj).trans h) (fun t h => resumed t r h rfl rfl) (fun t j h => ?_) hr
  by_cases e : j = i
  · subst e
    have := resumed t _ h rfl rfl
    dsimp only at this
    rwa [ReplyTimer.resume_resume] at this
  · exact (others t j e).trans h

/-! ### Polls (R153, R157, R159) -/

theorem sendOwedTarget_line (n m : LineId) (s : State) : ∃ o, (sendOwedTarget n s).line m = { s.line m with owed := o } ∧
    (m ≠ n → o = (s.line m).owed) ∧ ((s.line m).owed = none → o = none) := by
  unfold sendOwedTarget
  split
  · exact ⟨_, rfl, fun _ => rfl, id⟩
  · split
    · rw [(offer_still _ _ (.refl _)).line, State.line_modLine]
      split
      · next e => subst e; exact ⟨none, rfl, fun c => absurd rfl c, fun _ => rfl⟩
      · exact ⟨_, rfl, fun _ => rfl, id⟩
    · exact ⟨_, rfl, fun _ => rfl, id⟩

theorem sendOwedTarget_links (n : LineId) (s : State) (l : LinkId) : LinkStays (s.link l) ((sendOwedTarget n s).link l) := by
  unfold sendOwedTarget
  split
  · exact .refl _
  · split
    · exact (offer_still _ _ (.refl (s.modLine n _))).links l
    · exact .refl _

theorem same_targetWithdraw {d : CtlFrame} {g : U16} (ha : a.line n) (h : d.same (.targetWithdraw n g) = true) : a.drops d := by
  cases d with
  | targetWithdraw m k => exact beq_iff_eq.1 h ▸ ha
  | _ => cases h

theorem same_roll {d : CtlFrame} (h : d.same .roll = true) : a.drops d := by
  cases d with
  | roll => trivial
  | _ => cases h

theorem sendOwedTarget_acts (n : LineId) (hf : a.frames) (ha : a.line n) (h : Acts a b s) : Acts a b (sendOwedTarget n s) := by
  unfold sendOwedTarget
  split
  · exact h
  · split
    · exact offer_acts _ _ hf (fun _ => same_targetWithdraw ha) (h.step (.line n _ ha ⟨rfl, rfl, rfl⟩))
    · exact h

theorem openWindow_acts (l : LinkId) (as : List U64) (hf : a.frames) (h : Acts a b s) : Acts a b (openWindow l as s) :=
  offer_acts _ _ hf (fun _ => same_roll)
    (modLink_acts l _ (.quiet rfl rfl (fun _ hx => .inl hx) (.inl rfl) rfl rfl) h)

/-- A line of an UP link that owes a target withdrawal sends it (R62). -/
theorem foldl_sendOwedTarget_offers {g : U16} {ns : List LineId} (hn : n ∈ ns) (ho : (s.line n).owed = some g) (hl : s.linkOf n = l)
    (hu : (s.link l).state = .up) : ((ns.foldl (fun s n => sendOwedTarget n s) s).line n).owed = none ∧
      Offered (ns.foldl (fun s n => sendOwedTarget n s) s) l (.targetWithdraw n g) := by
  refine foldl_reaches (P := fun t => t.line n = s.line n ∧ (t.link l).state = .up)
    (Q := fun t => (t.line n).owed = none ∧ Offered t l (.targetWithdraw n g)) ns hn (fun t m hm h => ?_) (fun t h => ?_)
    (fun t m h => ?_) ⟨rfl, hu⟩
  · obtain ⟨o, e, he, _⟩ := sendOwedTarget_line m n t
    refine ⟨?_, (sendOwedTarget_links m t l).state.trans h.2⟩
    rw [e, he fun c => hm c.symm]
    exact h.1
  · have hlink : t.linkOf n = l := by unfold State.linkOf; rw [h.1]; exact hl
    have hup : t.isUp l = true := by unfold State.isUp; rw [h.2]; rfl
    have e : sendOwedTarget n t = offer l (.targetWithdraw n g) (t.modLine n fun k => { k with owed := none }) := by
      rw [sendOwedTarget, h.1, ho, hlink]
      exact if_pos hup
    rw [e, (offer_still _ _ (.refl _)).line, State.line_modLine, if_pos rfl]
    exact ⟨rfl, offer_offered h.2⟩
  · by_cases e : m = n
    · subst e
      have e : sendOwedTarget m t = t := by rw [sendOwedTarget, h.1]
      rw [e]
      exact h
    · obtain ⟨o, e', _, he⟩ := sendOwedTarget_line m n t
      refine ⟨by rw [e', he h.1], ?_⟩
      refine (sendOwedTarget_acts (a := { xfer := fun _ => False, line := (· = m) }) m trivial rfl (.refl t)).offered ?_ h.2
      exact fun c => e (show n = m from c).symm

end Sys2Proof.Machine
end

section
/-! CREDIT and ECHO (O56; R32, R33, R62, R139, R142, R146, R153). -/

namespace Sys2Proof.Machine

variable {a : Aim} {b s t u : State} {l : LinkId} {i : Nat} {r r' : DestRec} {p : Page} {n m : LineId} {f : InFrame}

/-! ### Frames from anyone and from a site (R148) -/

theorem receive_checked {k : Byte} (h : (s.link l).state = .up ∨ (s.link l).state = .connecting) :
    receive l k f s = checkFrame l k f (s.modLink l Link.received) := by
  unfold receive
  obtain h | h := h <;> rw [h] <;> rfl

theorem checkFrame_accepted {k : Byte} {src : Source} (hs : frameSound k f = true) (hd : f.dest = 0) (hk : inboundKind k = true)
    (hsrc : sourceOf s l k f = some src) :
    checkFrame l k f s = if (s.link l).state = .up then accepted l k f src s else acceptedConnecting l k s := by
  rw [checkFrame, if_neg (by rw [hs]; decide), if_neg (by rw [hk, hd]; decide), hsrc]

theorem received_state (l : LinkId) (s : State) : ((s.modLink l Link.received).link l).state = (s.link l).state := by
  rw [State.link_modLink_self]; rfl

theorem receive_credit_up (hs : frameSound 15 f = true) (hd : f.dest = 0) (hu : (s.link l).state = .up) :
    receive l kindCredit f s = grantCredit l (restartSilence l (s.modLink l Link.received)) := by
  rw [receive_checked (.inl hu), checkFrame_accepted (k := kindCredit) (src := .anyone) hs hd rfl rfl, if_pos ((received_state l s).trans hu)]
  rfl

theorem receive_credit_connecting (hs : frameSound 15 f = true) (hd : f.dest = 0) (hc : (s.link l).state = .connecting) :
    receive l kindCredit f s = linkUp l (s.modLink l Link.received) := by
  rw [receive_checked (.inr hc), checkFrame_accepted (k := kindCredit) (src := .anyone) hs hd rfl rfl,
    if_neg (by rw [received_state, hc]; decide)]
  exact if_pos rfl

theorem receive_echo (hs : frameSound 14 f = true) (hd : f.dest = 0) (hu : (s.link l).state = .up)
    (hn : ∃ n, (s.line n).enabled = true ∧ (s.line n).cfg.link = l ∧ (s.line n).cfg.primary = f.src >>> 3) :
    receive l kindEcho f s = echoReceived l (f.tag.toNat % 64) (restartSilence l (s.modLink l Link.received)) := by
  have hsite : sourceSite (s.modLink l Link.received) l f.src = true := by
    obtain ⟨n, he, hl, hp⟩ := hn
    exact List.any_eq_true.2 ⟨n, mem_linesOn.2 ⟨he, hl⟩, beq_iff_eq.2 hp⟩
  have hsrc : sourceOf (s.modLink l Link.received) l kindEcho f = some .site := by
    unfold sourceOf
    rw [if_neg (by decide), if_pos (.inl rfl), if_pos hsite]
  rw [receive_checked (.inl hu), checkFrame_accepted (k := kindEcho) hs hd rfl hsrc, if_pos ((received_state l s).trans hu)]
  rfl

/-- A stale ECHO is counted and raised (R146). -/
def countStaleEcho (l : LinkId) (s : State) : State :=
  raise .inbound (bumpLink l (fun c => { c with staleEcho := satInc c.staleEcho }) s)

theorem echoReceived_eq (l : LinkId) (k : Nat) (s : State) :
    echoReceived l k s = if echoValid (s.link l).markCount k then s else countStaleEcho l s := rfl

theorem countStaleEcho_counts (l : LinkId) (s : State) : ((countStaleEcho l s).link l = { s.link l with
      counters := { (s.link l).counters with staleEcho := satInc (s.link l).counters.staleEcho } }) ∧
    (countStaleEcho l s = { s with links := (countStaleEcho l s).links, order := (countStaleEcho l s).order, bus := (countStaleEcho l s).bus }) ∧
    Raised (countStaleEcho l s) .inbound := by
  have hframe : ∀ f, bumpLink l f s = { s with links := (bumpLink l f s).links, bus := (bumpLink l f s).bus } := fun f => by
    unfold bumpLink
    split
    · rfl
    · unfold writeLinkMirror deskWrite
      split <;> rfl
  obtain ⟨o, w, e⟩ := raise_outward .inbound (bumpLink l (fun c => { c with staleEcho := satInc c.staleEcho }) s)
  refine ⟨?_, ?_, Raised.raise _ _⟩
  · rw [countStaleEcho, e]
    exact (bumpLink_link s l l _).trans (if_pos rfl)
  · rw [countStaleEcho, e, hframe]

/-! ### CREDIT on an UP link (R142) -/

theorem satAdd_zero (c : U32) : satAdd c 0 = c := by
  apply BitVec.eq_of_toNat_eq
  have := c.isLt
  simp only [satAdd, BitVec.toNat_ofNat]
  omega

/-- Eight credits more, at most 64, what does not fit counted; on a free wire a frame may have started since. -/
theorem grantCredit_link (l : LinkId) (s : State) : ∃ c w k o, (grantCredit l s).link l = { s.link l with
    control := c, wire := w, credit := k, openOwed := o
    counters := { (s.link l).counters with
      creditOverflow := satAdd (s.link l).counters.creditOverflow ((s.link l).credit + 8 - 64) } } ∧
    ((s.link l).wire ≠ none → k = min ((s.link l).credit + 8) 64) := by
  have hlink : ∃ t, grantCredit l s = kick l t ∧ t.link l = { s.link l with
      credit := min ((s.link l).credit + 8) 64
      counters := { (s.link l).counters with
        creditOverflow := satAdd (s.link l).counters.creditOverflow ((s.link l).credit + 8 - 64) } } := by
    refine ⟨_, rfl, ?_⟩
    split
    · rw [bumpLink_link, if_pos rfl, State.link_modLink_self]
      rfl
    · next h =>
      have h0 : (s.link l).credit + 8 - 64 = 0 := Nat.sub_eq_zero_of_le (Nat.not_lt.1 h)
      rw [State.link_modLink_self, h0, satAdd_zero]
      rfl
  obtain ⟨t, e, ht⟩ := hlink
  obtain ⟨c, w, k, o, hk⟩ := (kick_sends l t).link
  rw [e, hk, ht]
  refine ⟨c, w, k, o, rfl, fun hw => ?_⟩
  have hbusy : kick l t = t := kick_busy (.inr (by rw [ht]; exact hw))
  rw [hbusy] at hk
  rw [show k = (t.link l).credit by rw [hk], ht]

/-! ### A link that comes UP (R139) -/

/-- A link UP with its first credit. -/
def risen (l : LinkId) (s : State) : State :=
  s.modLink l fun k => { k with state := .up, credit := Config.creditGrant, silence := some k.silenceLimit }

/-- The pool's part of a link's coming UP (R24, R32, R42). -/
def poolUp (l : LinkId) (s : State) : State :=
  (((releasable s l).foldl (fun s n => enterReleasing n s) s).recsOnLink l).foldl (fun s n => recLinkUp n s)
    ((releasable s l).foldl (fun s n => enterReleasing n s) s)

/-- The catalog's part (R62). -/
def catalogUp (l : LinkId) (s : State) : State := (s.linesOn l).foldl (fun s n => sendOwedTarget n s) s

theorem linkUp_eq (l : LinkId) (s : State) :
    linkUp l s = pick l (openWindow l [] (catalogUp l (poolUp l (linesUp l (linkChanged l (risen l s)))))) := rfl

theorem linkChanged_outward (l : LinkId) (s : State) : Outward s (linkChanged l s) :=
  (deskWrite_outward _ _ _).trans (raise_outward _ _)

/-- The lines of a link that comes UP are UNKNOWN; nothing else has changed but what shows it. -/
theorem linesUp_enters (l : LinkId) (s : State) : Enters .unknown (s.linesOn l) (risen l s) (linesUp l (linkChanged l (risen l s))) := by
  have e : (linkChanged l (risen l s)).linesOn l = s.linesOn l := by
    obtain ⟨o, w, h⟩ := linkChanged_outward l (risen l s)
    rw [h]
    rfl
  have h := (linkChanged_outward l (risen l s)).enters.trans
    (setLineStates_enters (st := .unknown) (by decide) ((linkChanged l (risen l s)).linesOn l) (linkChanged l (risen l s)))
  rw [List.nil_append, e] at h
  rw [linesUp, e]
  exact h

theorem foldl_enterReleasing_rec (js : List Nat) (hr : s.rec? i = some r) : (js.foldl (fun s n => enterReleasing n s) s).rec? i =
    some (if i ∈ js then { r with state := .releasing, sendCount := 0 } else r) := by
  induction js generalizing s r with
  | nil => exact hr
  | cons j js ih =>
    by_cases e : j = i
    · subst e
      have h1 : (enterReleasing j s).rec? j = some { r with state := .releasing, sendCount := 0 } := applyChange_rec_self _ hr
      rw [List.foldl_cons, ih h1, if_pos (List.mem_cons_self ..)]
      exact congrArg some (ite_self _)
    · have h1 : (enterReleasing j s).rec? i = some r :=
        ((applyChange_poolOnly j _ s).others i fun c => e c.symm).trans hr
      rw [List.foldl_cons, ih h1]
      exact congrArg some (if_congr ⟨.tail _, fun h => (List.mem_cons.1 h).resolve_left fun c => e c.symm⟩ rfl rfl)

theorem releasable_delivered (hr : s.rec? i = some r) (h : i ∈ releasable s l) : r.state = .delivered := by
  obtain ⟨e, _, hm⟩ := List.mem_flatMap.1 h
  have hq := (List.mem_filter.1 hm).2
  rw [hr] at hq
  exact mayRelease_delivered ((Bool.and_eq_true _ _).mp hq).2

/-- What the pool leaves of a link that has come UP but the records: all. -/
theorem poolUp_poolOnly (l : LinkId) (s : State) : PoolOnly (fun _ => True) s (poolUp l s) :=
  ((foldl_poolOnly (fun s j => applyChange_poolOnly j _ s) (releasable s l) s).mono fun _ _ => trivial).trans
    ((foldl_poolOnly (fun s j => recLinkUp_poolOnly j s) _ _).mono fun _ _ => trivial)

/-- A record whose release check the coming UP makes, or that it sends or resumes, in an arbitrary state of the pool (R32, R33). -/
structure Greeted (l : LinkId) (i : Nat) (r : DestRec) (p : Page) (s t : State) : Prop where
  withdraws : r.state = .withdrawing → r.sendCount = 0 →
    Sent i { r with sendCount := 1, timer := .running 2000 } l (.withdraw i r.line p.key p.version) t
  resumes : r.state = .withdrawing ∨ r.state = .releasing → r.sendCount ≠ 0 → t.rec? i = some { r with timer := r.timer.resume }
  releases : r.state = .delivered → mayRelease s r = true →
    Sent i { r with state := .releasing, sendCount := 1, timer := .running 2000 } l (.release i r.line p.key p.version) t

theorem not_drops_release {j : Nat} (k : LineId) (x : PageKey) (v : U16) (h : j ≠ i) : ¬ (aimedAt j).drops (.release i k x v) :=
  fun c => h (Xfer.dest.inj c).symm

theorem not_drops_withdraw {j : Nat} (k : LineId) (x : PageKey) (v : U16) (h : j ≠ i) : ¬ (aimedAt j).drops (.withdraw i k x v) :=
  fun c => h (Xfer.dest.inj c).symm

theorem poolUp_greeted (hr : s.rec? i = some r) (hp : s.page? r.parent = some p) (hl : s.linkOf r.line = l)
    (hu : (s.link l).state = .up) : Greeted l i r p s (poolUp l s) := by
  have h1 := foldl_enterReleasing_rec (releasable s l) hr
  have k1 := foldl_poolOnly (fun s j => applyChange_poolOnly j (fun r => { r with state := .releasing, sendCount := 0 }) s)
    (releasable s l) s
  unfold poolUp
  change PoolOnly _ s ((releasable s l).foldl (fun s n => enterReleasing n s) s) at k1
  generalize (releasable s l).foldl (fun s n => enterReleasing n s) s = u at h1 k1
  have hmem : i ∈ u.recsOnLink l := by
    refine mem_recsOnLink h1 ?_
    rw [k1.linkOf]
    split <;> exact hl
  have stays : r.state ≠ .delivered → u.rec? i = some r := fun hne => by
    rw [h1, if_neg fun c => hne (releasable_delivered hr c)]
  have hup : ∀ {A : Nat → Prop} {t : State}, PoolOnly A u t → (t.link l).state = .up := fun k =>
    (k.links l).state.trans ((k1.links l).state.trans hu)
  have hpg : ∀ {A : Nat → Prop} {t : State}, PoolOnly A u t → t.page? r.parent = some p := fun k =>
    (k.page? _).trans ((k1.page? _).trans hp)
  have hlk : ∀ {A : Nat → Prop} {t : State}, PoolOnly A u t → t.linkOf r.line = l := fun k =>
    (k.linkOf _).trans ((k1.linkOf _).trans hl)
  refine ⟨fun hs hc => ?_, fun hs hc => ?_, fun hs hm => ?_⟩
  · have h2 := stays (by rw [hs]; decide)
    refine foldl_recLinkUp_sent hmem h2 (fun t k ht => ?_) (.inr hs) (Nat.succ_ne_zero 0) rfl fun j hj => not_drops_withdraw _ _ _ hj
    rw [recLinkUp_unsent ht hs hc]
    refine ⟨(sendWithdraw_rec ht (hpg k)).trans ?_, sendWithdraw_offers ht (hpg k) (hlk k) (hup k)⟩
    rw [DestRec.sentOnce, hc]
    rfl
  · refine foldl_recLinkUp_resumed hmem (stays ?_) hs.symm hc
    obtain hs | hs := hs <;> rw [hs] <;> decide
  · refine foldl_recLinkUp_sent hmem h1 (fun t k ht => ?_) (.inl rfl) (Nat.succ_ne_zero 0) rfl fun j hj => not_drops_release _ _ _ hj
    by_cases hin : i ∈ releasable s l
    · rw [if_pos hin] at ht
      rw [recLinkUp_releasing ht rfl rfl]
      have h3 := sendRelease_rec ht (hpg k)
      have h4 := sendRelease_offers ht (hpg k) (hlk k) (hup k)
      exact ⟨h3, h4⟩
    · rw [if_neg hin] at ht
      have hmay : mayRelease t r = true := by rw [k.mayRelease ((k1.page? _).trans hp), k1.mayRelease hp]; exact hm
      rw [recLinkUp_delivered ht hs]
      exact ⟨releaseCheck_rec ht (hpg k) hmay, releaseCheck_offers ht (hpg k) (hlk k) hmay⟩

/-- Aimed at no transfer. -/
def calling : Aim where
  xfer _ := False
  keys _ := False
  reseq := False

/-- Aimed at no transfer and no line. -/
def rolling : Aim where
  xfer _ := False
  line _ := False
  keys _ := False
  reseq := False

theorem catalogUp_acts (l : LinkId) (s : State) : Acts calling s (catalogUp l s) :=
  foldl_acts _ _ (fun _ n _ h => sendOwedTarget_acts n trivial trivial h) (.refl s)

theorem catalogUp_line (l : LinkId) (n : LineId) (s : State) : ∃ o, (catalogUp l s).line n = { s.line n with owed := o } ∧
    ((s.line n).owed = none → o = none) :=
  foldl_induct (P := fun t => ∃ o, t.line n = { s.line n with owed := o } ∧ ((s.line n).owed = none → o = none)) _
    (fun t m _ ⟨o, e, h⟩ => by
      obtain ⟨o', e', _, h'⟩ := sendOwedTarget_line m n t
      exact ⟨o', by rw [e', e], fun c => h' (by rw [e]; exact h c)⟩) ⟨_, rfl, id⟩

/-- What a link that has come UP makes of its own state and timers and of the shown state (R139, R151). -/
theorem linkUp_link (l : LinkId) (s : State) : ((linkUp l s).link l).state = .up ∧
    ((linkUp l s).link l).silence = some (s.link l).silenceLimit ∧ ((linkUp l s).link l).roll = some ⟨250, 0, 0, []⟩ ∧
    Raised (linkUp l s) .linkChanged ∧ (s.order.deskBase ≠ 0 → Issued s (linkUp l s)
      (.write (s.order.deskBase + BitVec.ofNat 64 (0x100 + 64 * l.val)) (linkMirrorBytes { s.link l with state := .up, credit := 8 }))) := by
  have hrisen : (risen l s).link l = _ := State.link_modLink_self _ _ _
  have k1 := ownersUp_calm l (linesUp_calm l (Calm.refl (q := false) (linkChanged l (risen l s))))
  have k0 := linkChanged_calm l (Calm.refl (q := false) (risen l s))
  have hlk := k0.linkKeeps l |>.trans (k1.linkKeeps l)
  have hup := hlk.state.trans (by rw [hrisen])
  have k2 := pick_calm l (openWindow_calm l [] hup k1)
  have hall := (k0.linkKeeps l).trans (k2.linkKeeps l)
  refine ⟨hall.state.trans (by rw [hrisen]), hall.silence.trans (by rw [hrisen]), ?_, (Raised.raise _ _).calm k2, fun hb => ?_⟩
  · rw [linkUp_eq]
    generalize catalogUp l (poolUp l (linesUp l (linkChanged l (risen l s)))) = t
    have k3 := pick_calm l (offer_calm l .roll (Calm.refl (q := true) (t.modLink l fun k => { k with roll := some ⟨250, 0, 0, []⟩ })))
    refine ((k3.linkKeeps l).still rfl).trans ?_
    rw [State.link_modLink_self]
  · have hw : Issued s (writeLinkMirror l (risen l s)) (.write (s.order.deskBase + BitVec.ofNat 64 (0x100 + 64 * l.val))
        (linkMirrorBytes { s.link l with state := .up, credit := 8 })) := by
      have e : writeLinkMirror l (risen l s) = hostWrite (s.order.deskBase + BitVec.ofNat 64 (0x100 + 64 * l.val))
          (linkMirrorBytes ((risen l s).link l)) (risen l s) := if_neg hb
      rw [e, hrisen]
      exact ⟨[], [], rfl⟩
    exact (hw.calm (raise_calm .linkChanged (Calm.refl (q := false) _))).calm k2

/-- What follows the press-line table's step as a link comes UP (R139). -/
def upRest (l : LinkId) (s : State) : State := pick l (openWindow l [] (catalogUp l (poolUp l s)))

/-- A line of a link that has come UP is UNKNOWN and owes no target withdrawal, having offered what it owed (R62, R129). -/
theorem upRest_line (he : (s.line n).enabled = true) (hl : (s.line n).cfg.link = l) (hu : (s.link l).state = .up) :
    ((upRest l s).line n).state = (s.line n).state ∧ ((upRest l s).line n).owed = none ∧
      ∀ g, (s.line n).owed = some g → Offered (upRest l s) l (.targetWithdraw n g) := by
  have k := poolUp_poolOnly l s
  obtain ⟨o, e, ho⟩ := catalogUp_line l n (poolUp l s)
  have kr : Acts rolling (catalogUp l (poolUp l s)) (upRest l s) := pick_acts l (openWindow_acts l [] trivial (.refl _))
  have hline := kr.frame.line n id
  have offers : ∀ g, (s.line n).owed = some g → ((catalogUp l (poolUp l s)).line n).owed = none ∧
      Offered (catalogUp l (poolUp l s)) l (.targetWithdraw n g) := fun g hg =>
    foldl_sendOwedTarget_offers (mem_linesOn.2 ⟨by rw [k.line]; exact he, by rw [k.line]; exact hl⟩) (by rw [k.line]; exact hg)
      ((k.linkOf n).trans hl) ((k.links l).state.trans hu)
  rw [hline]
  refine ⟨by rw [e, k.line], ?_, fun g hg => kr.offered (show ¬ False from id) (offers g hg).2⟩
  cases hg : (s.line n).owed with
  | none => exact (congrArg Line.owed e).trans (ho (by rw [k.line]; exact hg))
  | some g => exact (offers g hg).1

/-- What the pool has brought a record of no queue as its link came UP stays. -/
theorem upRest_acts (l : LinkId) (s : State) : Acts calling (poolUp l s) (upRest l s) :=
  pick_acts l (openWindow_acts l [] trivial (catalogUp_acts l _))

theorem upRest_rec (hu : Unqueued s i) (hr : (poolUp l s).rec? i = some r) : (upRest l s).rec? i = some r := by
  obtain ⟨q, hq, h⟩ := (upRest_acts l s).dest_kept (i := i) id ((poolUp_poolOnly l s).unqueued hu).unpickable hr
  obtain rfl : q = r.seq := hq.resolve_left id
  exact h

theorem upRest_sent {c : CtlFrame} (hu : Unqueued s i) (h : Sent i r l c (poolUp l s)) (hc : ¬ calling.drops c) :
    (upRest l s).rec? i = some r ∧ Offered (upRest l s) l c :=
  ⟨upRest_rec hu h.record, (upRest_acts l s).offered hc h.offered⟩

end Sys2Proof.Machine

namespace Sys2Proof.Delivery

open Sys2Proof Sys2Proof.Machine

/-- Settles O56: what each pass over the link's records and lines brings stays through the passes after it. -/
theorem creditAndEcho : Obligations.CreditAndEcho := by
  intro s l f hd
  refine ⟨fun hs hu => ?_, fun hs hc => ?_, fun hs hu hn => ?_⟩
  · have h0 := restarted_link l s
    obtain ⟨c, w, k, o, hk, hkw⟩ := grantCredit_link l (restartSilence l (s.modLink l Link.received))
    refine ⟨_, congrArg Host.Outcome.next (receive_credit_up hs hd hu), ?_, fun hw => ?_, ?_⟩
    · rw [hk, h0]; rfl
    · rw [hk, hkw (by rw [h0]; exact hw), h0]; rfl
    · rw [hk, h0]; rfl
  · refine ⟨_, congrArg Host.Outcome.next (receive_credit_connecting hs hd hc), ?_⟩
    have hrec : (s.modLink l Link.received).link l = (s.link l).received := State.link_modLink_self _ _ _
    obtain ⟨h1, h2, h3, h4, h5⟩ := linkUp_link l (s.modLink l Link.received)
    rw [hrec] at h2 h5
    have hent := linesUp_enters l (s.modLink l Link.received)
    have e : linkUp l (s.modLink l Link.received) = upRest l (linesUp l (linkChanged l (risen l (s.modLink l Link.received)))) := rfl
    refine ⟨h1, h2, h4, h3, ?_⟩
    rw [e]
    rw [e] at h5
    generalize linesUp l (linkChanged l (risen l (s.modLink l Link.received))) = c at hent h5
    have hup : (c.link l).state = .up := by
      rw [hent.link, risen, State.link_modLink_self]
    refine ⟨fun n he hl => ?_, fun i r p hr hp hl hq => ?_, h5⟩
    · obtain ⟨z, k, hn, _⟩ := hent.entered n (mem_linesOn.2 ⟨he, hl⟩)
      have hline := upRest_line (s := c) (n := n) (by rw [hn]; exact he) (by rw [hn]; exact hl) hup
      rw [hn] at hline
      exact hline
    · have hr' : c.rec? i = some r := (hent.rec? i).trans hr
      have hp' : c.page? r.parent = some p := (hent.page? _).trans hp
      have hq' : Unqueued c i := fun m hm => hq m (by
        rw [hent.link, risen, State.link_modLink, State.link_modLink, State.link_modLink] at hm
        split at hm
        · next e => subst e; rw [if_pos rfl] at hm; exact hm
        · exact hm)
      have hg := poolUp_greeted hr' hp' ((hent.linkOf _).trans hl) hup
      refine ⟨fun hst hc => upRest_sent hq' (hg.withdraws hst hc) id, fun hst hc => ?_, fun hst hgen hrel => ?_⟩
      · refine (upRest_rec hq' (hg.resumes hst hc)).trans ?_
        cases r.timer <;> rfl
      · refine upRest_sent hq' (hg.releases hst ((mayRelease_iff hp').2 ⟨hst, ?_, ?_, ?_⟩)) id
        · obtain ⟨_, _, _, hn⟩ := hent.line r.line
          rw [hn]
          exact hgen
        · rw [hent.clock]
          exact hrel
        · rw [hent.linkOf]
          exact (congrArg (fun m => (c.link m).state) hl).trans hup
  · have h0 := restarted_link l s
    refine ⟨_, congrArg Host.Outcome.next (receive_echo hs hd hu hn), ?_⟩
    rw [echoReceived_eq, h0]
    refine ⟨fun hv => ?_, fun hv => ?_⟩
    · have hyes : echoValid (s.link l).heard.markCount (f.tag.toNat % 64) = true := by
        unfold echoValid
        rw [Bool.or_eq_true, beq_iff_eq, beq_iff_eq, Nat.mod_add_mod]
        exact hv
      rw [if_pos hyes]
      exact ⟨h0, rfl⟩
    · have hno : ¬ echoValid (s.link l).heard.markCount (f.tag.toNat % 64) = true := by
        unfold echoValid
        rw [Bool.or_eq_true, beq_iff_eq, beq_iff_eq, Nat.mod_add_mod]
        exact hv
      rw [if_neg hno]
      obtain ⟨hlink, hframe, hraised⟩ := countStaleEcho_counts l (restartSilence l (s.modLink l Link.received))
      refine ⟨?_, ?_, hraised, hframe⟩
      · rw [hlink, h0]; rfl
      · rw [hlink, h0]; rfl

end Sys2Proof.Delivery
end

section
/-! A link that leaves UP: what it hands back, what it leaves alone, and the polls that end with it (R31, R62, R88, R140, R156, R159). -/

namespace Sys2Proof.Machine

variable {a : Aim} {b s t u : State} {l : LinkId} {i j : Nat} {r r' : DestRec} {n m : LineId} {x : Xfer} {sl : Slot}

/-! ### Transfers that only a dark link's queue can hold -/

/-- A transfer stands in no queue but that of a link that is not UP. -/
structure Parked (l : LinkId) (x : Xfer) (t : State) : Prop where
  down : (t.link l).state ≠ .up
  away : ∀ m, m ≠ l → x ∉ (t.link m).queue

theorem Parked.unpickable (h : Parked l x s) : Unpickable a s x := .inl fun m hu => h.away m fun e => h.down (e ▸ hu)

theorem Parked.acts (h : Parked l x s) (k : Acts a s t) (hx : ¬ a.xfer x) : Parked l x t :=
  ⟨fun c => h.down ((k.frame.link l).1.symm.trans c), fun m hm c => h.away m hm ((k.frame.queue m x c).resolve_right hx)⟩

theorem Parked.of_links (h : Parked l x s) (hl : (t.link l).state = (s.link l).state)
    (hq : ∀ m, m ≠ l → (t.link m).queue = (s.link m).queue) : Parked l x t :=
  ⟨hl ▸ h.down, fun m hm => hq m hm ▸ h.away m hm⟩

theorem pick_dark (h : (s.link l).state ≠ .up) : pick l s = s := if_neg fun c => h c.1

theorem joinQueue_queue_ne {k m : LinkId} (hm : m ≠ k) (x : Xfer) (s : State) :
    ((joinQueue k x s).link m).queue = (s.link m).queue := by
  have hroom : (roomForSeq s).link m = s.link m := by
    unfold roomForSeq
    split
    · exact (renumberFrom_frame _ _ _).1 m
    · rfl
  have e : (takeSeq x s).link m = s.link m := (setSeq_link x _ m (roomForSeq s)).trans hroom
  rw [joinQueue_eq, ((schedMirror_still k (countLate_still _ _)).links m).queue, enqueue, State.link_modLink, if_neg hm, e]

theorem joinQueue_state (k m : LinkId) (x : Xfer) (s : State) : ((joinQueue k x s).link m).state = (s.link m).state :=
  ((joinQueue_acts (a := { xfer := fun _ => True }) k x trivial (.inl trivial) (.refl s)).frame.link m).1

theorem Parked.joinQueue (h : Parked l x s) (y : Xfer) : Parked l x (joinQueue l y s) :=
  h.of_links (joinQueue_state _ _ _ _) fun _ hm => joinQueue_queue_ne hm _ _

/-! ### Records handed back (R31) -/

/-- Placing sends to the queue a record whose generation its line holds, or that asks for none (R25). -/
theorem placement_held (h : s.recGen r = 0 ∨ (s.line r.line).held = s.recGen r) : placement s r = .queued := if_pos h

/-- A record back in the queue of a link that is not UP, from its acked offset on. -/
structure Returned (l : LinkId) (i : Nat) (r : DestRec) (t : State) : Prop where
  parked : Parked l (.dest i) t
  record : ∃ v q, t.rec? i = some { r with
    state := .queued, sent := r.acked, timer := .stopped, latestStart := v, seq := q }

theorem Returned.acts (h : Returned l i r s) (k : Acts a s t) (hi : ¬ a.xfer (.dest i)) : Returned l i r t := by
  obtain ⟨v, q, hr⟩ := h.record
  obtain ⟨q', _, hr'⟩ := k.dest_kept hi h.parked.unpickable hr
  exact ⟨h.parked.acts k hi, v, q', hr'⟩

theorem returnRec_returned (hr : s.rec? i = some r) (hl : s.linkOf r.line = l) (hp : Parked l (.dest i) s)
    (hg : s.recGen r = 0 ∨ (s.line r.line).held = s.recGen r) : Returned l i r (returnRec i s) := by
  have h0 := rec_modRec_self (fun r : DestRec => { r with sent := r.acked, timer := .stopped }) hr
  have hp0 : Parked l (.dest i) (s.modRec i fun r => { r with sent := r.acked, timer := .stopped }) := ⟨hp.down, hp.away⟩
  have hpl : placement (s.modRec i fun r => { r with sent := r.acked, timer := .stopped })
      { r with sent := r.acked, timer := .stopped } = .queued := placement_held (r := { r with sent := r.acked, timer := .stopped }) hg
  have hl' : (s.modRec i fun r => { r with sent := r.acked, timer := .stopped }).linkOf r.line = l := hl
  unfold returnRec
  generalize s.modRec i (fun r => { r with sent := r.acked, timer := .stopped }) = t at h0 hp0 hpl hl'
  have e : place i t = reexamine r.line (placeRaw i t) := by rw [place, h0]
  obtain ⟨v, q, _, h1⟩ := joined_rec (l := l) h0
  have hp1 : Parked l (.dest i) (applyChange i id (joinQueue l (.dest i)
      (updateL i (t.modRec i fun q => { q with state := .queued, timer := .stopped })))) := by
    refine Parked.of_links (Parked.joinQueue (s := updateL i (t.modRec i fun q => { q with state := .queued, timer := .stopped })) ?_ (.dest i))
      (congrArg Link.state (applyChange_link _ _ _ _)) fun m _ => congrArg Link.queue (applyChange_link _ _ _ _)
    exact hp0.of_links (congrArg Link.state (updateL_link _ _ _)) fun m _ => congrArg Link.queue (updateL_link _ _ _)
  have hraw : placeRaw i t = _ := placeRaw_queued h0 hpl
  dsimp only at hraw
  rw [hl', pick_dark hp1.down] at hraw
  rw [e, hraw]
  exact Returned.acts (r := r) ⟨hp1, v, q, h1⟩ (reexamine_loading r.line _) (loading_dest i)

theorem returnRec_acts (j : Nat) (hf : a.frames) (ha : a.xfer (.dest j)) (hk : ∀ n, a.keys n)
    (hx : ∀ n, (b.line n).slot = none → a.xfer (.slot n)) (hr : a.reseq) (h : Acts a b s) : Acts a b (returnRec j s) :=
  place_acts j hf ha hk hx hr (modRec_acts j _ ha ⟨fun _ => rfl, fun _ => rfl, fun _ => rfl⟩ h)

/-! ### Slots handed back (R62) -/

/-- A slot back in the queue of a link that is not UP, from its acked offset on. -/
structure SlotReturned (l : LinkId) (n : LineId) (sl : Slot) (t : State) : Prop where
  parked : Parked l (.slot n) t
  slot : ∃ v w q, (t.line n).slot = some { sl with
    state := .queued, sent := sl.acked, timer := none, latestStart := v, urgent := w, seq := q }

theorem SlotReturned.acts (h : SlotReturned l n sl s) (k : Acts a s t) (hn : ¬ a.xfer (.slot n)) : SlotReturned l n sl t := by
  obtain ⟨v, w, q, hs⟩ := h.slot
  obtain ⟨sl', hs', v', w', q', _, _, rfl⟩ := k.slot_kept hn h.parked.unpickable hs
  exact ⟨h.parked.acts k hn, v', w', q', hs'⟩

theorem returnSlot_returned (hs : (s.line n).slot = some sl) (hl : s.linkOf n = l) (hp : Parked l (.slot n) s) :
    SlotReturned l n sl (returnSlot n s) := by
  have h1 := slot_modSlot (requeued (slotLatestStart s n sl.generation) (slotUrgent s n sl.generation) fun sl => { sl with sent := sl.acked }) hs
  have e : returnSlot n s = requeueRest n (s.modSlot n (requeued (slotLatestStart s n sl.generation)
      (slotUrgent s n sl.generation) fun sl => { sl with sent := sl.acked })) := by
    rw [returnSlot, requeueSlot, hs]
    rfl
  rw [e, requeueRest]
  have hp1 : Parked l (.slot n) (s.modSlot n (requeued (slotLatestStart s n sl.generation)
      (slotUrgent s n sl.generation) fun sl => { sl with sent := sl.acked })) := ⟨hp.down, hp.away⟩
  have hl1 : (s.modSlot n (requeued (slotLatestStart s n sl.generation)
      (slotUrgent s n sl.generation) fun sl => { sl with sent := sl.acked })).linkOf n = l := by
    unfold State.linkOf State.modSlot
    rw [State.line_modLine, if_pos rfl]
    exact hl
  generalize s.modSlot n (requeued (slotLatestStart s n sl.generation)
      (slotUrgent s n sl.generation) fun sl => { sl with sent := sl.acked }) = t at h1 hp1 hl1
  have hw := writeLineMirror_still n (Still.refl t)
  have h2 : ((writeLineMirror n t).line n).slot = _ := (congrArg Line.slot (hw.line n)).trans h1
  have hp2 : Parked l (.slot n) (writeLineMirror n t) :=
    hp1.of_links (hw.links l).state fun m _ => (hw.links m).queue
  have hp3 := hp2.joinQueue (.slot n)
  rw [hl1, pick_dark hp3.down]
  exact ⟨hp3, _, _, _, joinQueue_slot l h2⟩

theorem returnSlot_acts (n : LineId) (hx : a.xfer (.slot n)) (hr : a.reseq) (h : Acts a b s) : Acts a b (returnSlot n s) :=
  requeueSlot_acts n _ hx (.inl hr) h

/-! ### Page ends (R18) -/

theorem freePage_lines (n : Nat) (p : Page) (s : State) : (freePage n p s).lines = s.lines := by
  have hdel : ∀ (ds : List Nat) (s : State), (ds.foldl (fun s i => s.delRec i) s).lines = s.lines := by
    intro ds
    induction ds with
    | nil => exact fun _ => rfl
    | cons d ds ih => exact fun s => ih (s.delRec d)
  unfold freePage
  dsimp only
  refine (hdel p.dests _).trans ?_
  obtain ⟨o, w, h⟩ := finalDisposition_outward p.orderAddr (pageOutcome (leaveVerify (.page n) s) p).1
    (pageOutcome (leaveVerify (.page n) s) p).2 (leaveVerify (.page n) s)
  rw [h]
  rfl

theorem pageEndCheck_lines (n : Nat) (s : State) : (pageEndCheck n s).lines = s.lines := by
  unfold pageEndCheck
  split
  · rfl
  · split
    · exact freePage_lines _ _ _
    · rfl

theorem sweepPages_line (n : LineId) (s : State) : (sweepPages s).line n = s.line n := by
  have h : (sweepPages s).lines = s.lines := by
    unfold sweepPages
    exact foldl_induct (P := fun t => t.lines = s.lines) _ (fun t n _ h => (pageEndCheck_lines n t).trans h) rfl
  unfold State.line
  rw [h]

/-! ### Polls that end (R156, R159) -/

theorem finishOrders_disposed {d : PollDetail} {as : List U64} {y : U64} (hy : y ∈ as) (s : State) :
    Disposed s (finishOrders d as s) y .done d.code :=
  foldl_reaches (P := fun t => Calm false s t) (Q := fun t => Disposed s t y .done d.code) as hy
    (fun _ z _ h => finalDisposition_calm z _ _ h) (fun t h => h.issued (finalDisposition_finished y .done d.code t).1)
    (fun t z h => Issued.calm h (finalDisposition_calm z _ _ (Calm.refl (q := false) t))) (.refl s)

theorem clearQuery_line (n m : LineId) (s : State) :
    (clearQuery n s).line m = if m = n then { s.line n with query := none } else s.line m := by
  unfold clearQuery
  rw [(releaseHold_still _ (dropControl_still _ (.refl _))).line, State.line_modLine]

theorem endQuery_line (n m : LineId) (s : State) :
    (endQuery n s).line m = if m = n then { s.line n with query := none } else s.line m := by
  unfold endQuery
  split
  · rw [(finishOrders_still _ _ (.refl _)).line, clearQuery_line]
  · next h =>
    split
    · next e =>
      subst e
      rw [← Option.not_isSome_iff_eq_none.1 h]
    · rfl

theorem endQuery_disposed {q : Query} {y : U64} (hq : (s.line n).query = some q) (hy : y ∈ q.pending) :
    Disposed s (endQuery n s) y .done 2 := by
  have e : endQuery n s = finishOrders .ended q.pending (clearQuery n s) := by
    unfold endQuery Line.queryOrders
    rw [hq]
    rfl
  rw [e]
  exact (clearQuery_calm n (Calm.refl (q := false) s)).issued (finishOrders_disposed (d := .ended) hy _)

theorem clearQuery_rec (n : LineId) (i : Nat) (s : State) : (clearQuery n s).rec? i = s.rec? i := by
  unfold clearQuery
  rw [(releaseHold_still _ (dropControl_still _ (.refl _))).rec?]
  rfl

theorem endQuery_rec (n : LineId) (i : Nat) (s : State) : (endQuery n s).rec? i = s.rec? i := by
  unfold endQuery
  split
  · rw [(finishOrders_still _ _ (.refl _)).rec?, clearQuery_rec]
  · rfl

/-- The queries of several lines end (R159). -/
theorem foldl_endQuery_line (ns : List LineId) (m : LineId) (s : State) : (ns.foldl (fun s n => endQuery n s) s).line m =
    if m ∈ ns then { s.line m with query := none } else s.line m := by
  induction ns generalizing s with
  | nil => rfl
  | cons n ns ih =>
    rw [List.foldl_cons, ih, endQuery_line]
    by_cases e : m = n
    · subst e
      rw [if_pos rfl, if_pos (List.mem_cons_self ..)]
      exact ite_self _
    · rw [if_neg e]
      exact if_congr ⟨.tail _, fun h => (List.mem_cons.1 h).resolve_left e⟩ rfl rfl

theorem foldl_endQuery_disposed {ns : List LineId} {q : Query} {y : U64} (hn : n ∈ ns) (hq : (s.line n).query = some q)
    (hy : y ∈ q.pending) : Disposed s (ns.foldl (fun s n => endQuery n s) s) y .done 2 :=
  foldl_reaches (P := fun t => Calm false s t ∧ (t.line n).query = some q) (Q := fun t => Disposed s t y .done 2) ns hn
    (fun t m hm h => ⟨endQuery_calm m h.1, by rw [endQuery_line, if_neg fun c => hm c.symm]; exact h.2⟩)
    (fun _ h => h.1.issued (endQuery_disposed h.2 hy))
    (fun t m h => Issued.calm h (endQuery_calm m (Calm.refl (q := false) t))) ⟨.refl s, hq⟩

/-- A link's window is closed without evaluation, its orders DONE, LINK_LOST (R156). -/
theorem loseWindow_disposed {w : RollWindow} {y : U64} (hw : (s.link l).roll = some w) (hy : y ∈ w.pending) :
    Disposed s (loseWindow l s) y .done 1 := by
  have e : loseWindow l s = finishOrders .linkLost w.pending (shutWindow l s) := by rw [loseWindow, hw]
  rw [e]
  exact (shutWindow_calm l (Calm.refl (q := false) s)).issued (finishOrders_disposed (d := .linkLost) hy _)

theorem shutWindow_roll (l : LinkId) (s : State) : ((shutWindow l s).link l).roll = none := by
  have e : (shutWindow l s).link l = (dropControlOn l isRoll (s.modLink l fun k => { k with roll := none })).link l := rfl
  rw [e, dropControlOn, State.link_modLink_self, State.link_modLink_self]

theorem loseWindow_roll (h : (s.link l).state ≠ .up) : ((loseWindow l s).link l).roll = none := by
  unfold loseWindow
  split
  · next w _ =>
    have k := (finishOrders_calm .linkLost w.pending (Calm.refl (q := false) (shutWindow l s))).linkKeeps l
    refine k.roll (fun c => h ?_) (shutWindow_roll l s)
    rw [← ((shutWindow_still l (.refl s)).links l).state]
    exact c
  · next h => exact h

end Sys2Proof.Machine
end

section
/-! A link that leaves UP, and its retry (O55; R31, R62, R88, R129, R137, R140, R156, R159). -/

namespace Sys2Proof.Machine

variable {a : Aim} {b s t u : State} {l : LinkId} {i j : Nat} {r r' : DestRec} {n m : LineId} {x : Xfer} {sl : Slot}

/-! ### Handing back (R31, R62, R88) -/

/-- Aimed at some transfers, and at what the catalog loads where a slot is idle. -/
def returning (X : Xfer → Prop) (s : State) : Aim where
  xfer x := X x ∨ ∃ n, x = .slot n ∧ (s.line n).slot = none
  line _ := False

theorem returning_dest {X : Xfer → Prop} (h : ¬ X (.dest i)) : ¬ (returning X s).xfer (.dest i) :=
  fun c => c.elim h fun ⟨_, e, _⟩ => Xfer.noConfusion e

theorem returning_slot {X : Xfer → Prop} (h : ¬ X (.slot n)) (hs : (s.line n).slot ≠ none) : ¬ (returning X s).xfer (.slot n) :=
  fun c => c.elim h fun ⟨m, e, hm⟩ => by cases e; exact hs hm

theorem returnRec_returning {X : Xfer → Prop} (j : Nat) (hj : X (.dest j)) (h : Acts (returning X b) b s) :
    Acts (returning X b) b (returnRec j s) :=
  returnRec_acts j trivial (.inl hj) (fun _ => trivial) (fun n e => .inr ⟨n, rfl, e⟩) trivial h

theorem returnSlot_returning {X : Xfer → Prop} (n : LineId) (hn : X (.slot n)) (h : Acts (returning X b) b s) :
    Acts (returning X b) b (returnSlot n s) := returnSlot_acts n (.inl hn) trivial h

theorem returnSending_none (h : (s.link l).sending = none) : returnSending l s = s := by rw [returnSending, h]

theorem returnSending_dest (h : (s.link l).sending = some (.dest i)) : returnSending l s = returnRec i (clearSending l s) := by
  rw [returnSending, h]

theorem returnSending_slot (h : (s.link l).sending = some (.slot n)) : returnSending l s = returnSlot n (clearSending l s) := by
  rw [returnSending, h]

/-- The transfer in the SENDING slot is all that its hand-back is aimed at. -/
theorem returnSending_returning (l : LinkId) (s : State) :
    Acts (returning (fun x => (s.link l).sending = some x) s) s (returnSending l s) := by
  cases h : (s.link l).sending with
  | none => rw [returnSending_none h]
  | some x =>
    have hc := clearSending_acts (a := returning (fun y => some x = some y) s) l (.refl s)
    cases x with
    | dest i => rw [returnSending_dest h]; exact returnRec_returning i rfl hc
    | slot n => rw [returnSending_slot h]; exact returnSlot_returning n rfl hc

theorem clearSending_sending (l : LinkId) (s : State) : ((clearSending l s).link l).sending = none := by
  obtain ⟨_, _, h⟩ := clearSending_link l s
  rw [h]

theorem returnSending_sending (hd : (s.link l).state ≠ .up) : ((returnSending l s).link l).sending = none := by
  have hd' : ((clearSending l s).link l).state ≠ .up := by
    obtain ⟨_, _, h⟩ := clearSending_link l s
    rw [h]
    exact hd
  cases h : (s.link l).sending with
  | none => rw [returnSending_none h]; exact h
  | some x =>
    cases x with
    | dest i =>
      rw [returnSending_dest h]
      exact ((returnRec_calm i (Calm.refl (q := false) (clearSending l s))).linkKeeps l).sending hd' (clearSending_sending l s)
    | slot n =>
      rw [returnSending_slot h]
      exact ((returnSlot_calm n (Calm.refl (q := false) (clearSending l s))).linkKeeps l).sending hd' (clearSending_sending l s)

/-- Records handed back, slots handed back: the first two of the owners' steps. -/
def recsBack (l : LinkId) (s : State) : State := (receiptWaiters s l).foldl (fun s n => returnRec n s) s

def slotsBack (l : LinkId) (s : State) : State := (confirmWaiters s l).foldl (fun s n => returnSlot n s) s

def timersPaused (l : LinkId) (s : State) : State := (s.recsOnLink l).foldl (fun s n => pauseTimer n s) s

theorem recsBack_returning (l : LinkId) (s : State) :
    Acts (returning (fun x => ∃ j ∈ receiptWaiters s l, x = .dest j) s) s (recsBack l s) :=
  foldl_acts _ _ (fun _ j hj h => returnRec_returning j ⟨j, hj, rfl⟩ h) (.refl s)

theorem slotsBack_returning (l : LinkId) (s : State) :
    Acts (returning (fun x => ∃ m ∈ confirmWaiters s l, x = .slot m) s) s (slotsBack l s) :=
  foldl_acts _ _ (fun _ m hm h => returnSlot_returning m ⟨m, hm, rfl⟩ h) (.refl s)

theorem timersPaused_poolOnly (l : LinkId) (s : State) : PoolOnly (fun _ => True) s (timersPaused l s) :=
  (foldl_poolOnly (fun s j => pauseTimer_poolOnly j s) _ s).mono fun _ _ => trivial

theorem mem_receiptWaiters (hr : s.rec? i = some r) : i ∈ receiptWaiters s l → r.state = .receiptWait := fun h => by
  have h := (List.mem_filter.1 h).2
  rw [hr] at h
  exact beq_iff_eq.1 h

theorem receiptWaiters_mem (hr : s.rec? i = some r) (hl : s.linkOf r.line = l) (hs : r.state = .receiptWait) : i ∈ receiptWaiters s l :=
  List.mem_filter.2 ⟨mem_recsOnLink hr hl, by rw [hr]; exact beq_iff_eq.2 hs⟩

theorem confirmWaiters_mem (hs : (s.line n).slot = some sl) (he : (s.line n).enabled = true) (hl : (s.line n).cfg.link = l)
    (hc : sl.state = .confirmWait) : n ∈ confirmWaiters s l :=
  List.mem_filter.2 ⟨mem_linesOn.2 ⟨he, hl⟩, by rw [hs]; exact beq_iff_eq.2 hc⟩

/-! ### A record on the way back -/

/-- What placing asks of a record's line and page, which a link's going down leaves. -/
structure Homed (l : LinkId) (r : DestRec) (s : State) : Prop where
  link : s.linkOf r.line = l
  holds : s.recGen r = 0 ∨ (s.line r.line).held = s.recGen r

theorem Homed.acts (h : Homed l r s) (k : Acts a s t) (ha : ¬ a.line r.line) : Homed l r t := by
  refine ⟨(k.frame.linkOf _).trans h.link, ?_⟩
  rw [k.frame.recGen rfl, k.frame.line _ ha]
  exact h.holds

/-- A record that a dark link is to hand back or has handed back. -/
inductive OnWay (l : LinkId) (i : Nat) (r : DestRec) (t : State) : Prop
  | waits (hp : Parked l (.dest i) t) (hs : r.state = .receiptWait) (hr : ∃ q, t.rec? i = some { r with seq := q })
  | returned (h : Returned l i r t)

theorem OnWay.acts (h : OnWay l i r s) (k : Acts a s t) (hi : ¬ a.xfer (.dest i)) : OnWay l i r t := by
  cases h with
  | waits hp hs hr =>
    obtain ⟨q, hr⟩ := hr
    obtain ⟨q', _, hr'⟩ := k.dest_kept hi hp.unpickable hr
    exact .waits (hp.acts k hi) hs ⟨q', hr'⟩
  | returned h => exact .returned (h.acts k hi)

theorem OnWay.returnRec_self (h : OnWay l i r s) (hh : Homed l r s) : Returned l i r (returnRec i s) := by
  cases h with
  | waits hp hs hr =>
    obtain ⟨q, hr⟩ := hr
    obtain ⟨hp', v, q', hr'⟩ := returnRec_returned hr hh.link hp hh.holds
    exact ⟨hp', v, q', hr'⟩
  | returned h =>
    obtain ⟨v, q, hr⟩ := h.record
    obtain ⟨hp', v', q', hr'⟩ := returnRec_returned hr hh.link h.parked hh.holds
    exact ⟨hp', v', q', hr'⟩

theorem returnRec_self_acts (j : Nat) (s : State) : Acts (returning (· = .dest j) s) s (returnRec j s) :=
  returnRec_returning j rfl (.refl s)

/-- After the receipt waiters have been handed back, so has the record. -/
theorem OnWay.recsBack (h : OnWay l i r s) (hh : Homed l r s) : Returned l i r (recsBack l s) := by
  have homed : ∀ t j, Homed l r t → Homed l r (returnRec j t) := fun t j k => k.acts (returnRec_self_acts j t) id
  have others : ∀ t j, j ≠ i → ¬ (returning (· = .dest j) t).xfer (.dest i) := fun t j hj =>
    returning_dest fun c => hj (Xfer.dest.inj c).symm
  have post : ∀ t j, Returned l i r t ∧ Homed l r t → Returned l i r (returnRec j t) ∧ Homed l r (returnRec j t) := fun t j k => by
    refine ⟨?_, homed t j k.2⟩
    by_cases e : j = i
    · subst e; exact (OnWay.returned k.1).returnRec_self k.2
    · exact k.1.acts (returnRec_self_acts j t) (others t j e)
  cases h with
  | returned h => exact (foldl_induct (P := fun t => Returned l i r t ∧ Homed l r t) _ (fun t j _ k => post t j k) ⟨h, hh⟩).1
  | waits hp hs hr =>
    obtain ⟨q, hr'⟩ := hr
    have hmem : i ∈ receiptWaiters s l := receiptWaiters_mem hr' hh.link hs
    exact (foldl_reaches (P := fun t => OnWay l i r t ∧ Homed l r t) (Q := fun t => Returned l i r t ∧ Homed l r t) _ hmem
      (fun t j hj k => ⟨k.1.acts (returnRec_self_acts j t) (others t j hj), homed t j k.2⟩)
      (fun t k => ⟨k.1.returnRec_self k.2, homed t i k.2⟩) post ⟨.waits hp hs ⟨q, hr'⟩, hh⟩).1

theorem Returned.slotsBack (h : Returned l i r s) : Returned l i r (slotsBack l s) :=
  h.acts (slotsBack_returning l s) (returning_dest fun ⟨_, _, e⟩ => Xfer.noConfusion e)

theorem Returned.record_paused (h : Returned l i r s) : ∃ v q, (timersPaused l s).rec? i = some { r with
    state := .queued, sent := r.acked, timer := .stopped, latestStart := v, seq := q } := by
  obtain ⟨v, q, hr⟩ := h.record
  refine ⟨v, q, foldl_induct (P := fun t => t.rec? i = some _) _ (fun t j _ k => ?_) hr⟩
  rw [pauseTimer, rec_modRec]
  split
  · next e => rw [← e, k]; rfl
  · exact k

/-! ### A record that stands nowhere -/

/-- A record that neither a queue nor a SENDING slot holds, as it is. -/
structure Aloof (i : Nat) (r : DestRec) (t : State) : Prop where
  idle : t.layout.Idle (.dest i)
  record : t.rec? i = some r

theorem Aloof.acts (h : Aloof i r s) (k : Acts a s t) (hi : ¬ a.xfer (.dest i)) : Aloof i r t :=
  ⟨k.idle hi h.idle, (k.dest_idle hi h.idle).trans h.record⟩

theorem Aloof.recsBack (h : Aloof i r s) (hs : r.state ≠ .receiptWait) : Aloof i r (recsBack l s) := by
  refine h.acts (recsBack_returning l s) (returning_dest fun ⟨j, hj, e⟩ => hs ?_)
  cases e
  exact mem_receiptWaiters h.record hj

theorem Aloof.slotsBack (h : Aloof i r s) : Aloof i r (slotsBack l s) :=
  h.acts (slotsBack_returning l s) (returning_dest fun ⟨_, _, e⟩ => Xfer.noConfusion e)

theorem timersPaused_other (hr : s.rec? i = some r) (hs : r.state ≠ .releasing ∧ r.state ≠ .withdrawing) :
    (timersPaused l s).rec? i = some r := by
  refine foldl_induct (P := fun t => t.rec? i = some r) _ (fun t j _ k => ?_) hr
  rw [pauseTimer, rec_modRec]
  split
  · next e =>
    rw [← e, k]
    exact congrArg some (if_neg (not_or.2 hs))
  · exact k

theorem ReplyTimer.pause_pause (k : ReplyTimer) : k.pause.pause = k.pause := by cases k <;> rfl

theorem timersPaused_waiting (hr : s.rec? i = some r) (hl : s.linkOf r.line = l) (hs : r.state = .releasing ∨ r.state = .withdrawing) :
    (timersPaused l s).rec? i = some { r with timer := r.timer.pause } := by
  have self : ∀ t (q : DestRec), t.rec? i = some q → q.state = r.state → (pauseTimer i t).rec? i = some { q with timer := q.timer.pause } :=
    fun t q hq e => (rec_modRec_self _ hq).trans (congrArg some (if_pos (by rw [e]; exact hs)))
  have other : ∀ t j, j ≠ i → (pauseTimer j t).rec? i = t.rec? i := fun t j hj => (rec_modRec t j i _).trans (if_neg fun c => hj c.symm)
  refine foldl_reaches (P := fun t => t.rec? i = some r) (Q := fun t => t.rec? i = some { r with timer := r.timer.pause }) _
    (mem_recsOnLink hr hl) (fun t j hj k => (other t j hj).trans k) (fun t k => self t r k rfl) (fun t j k => ?_) hr
  by_cases e : j = i
  · subst e
    have := self t _ k rfl
    rwa [ReplyTimer.pause_pause] at this
  · exact (other t j e).trans k

/-! ### A slot on the way back (R62) -/

/-- A slot that a dark link is to hand back or has handed back. -/
inductive SlotOnWay (l : LinkId) (n : LineId) (sl : Slot) (t : State) : Prop
  | waits (hp : Parked l (.slot n) t) (hs : sl.state = .confirmWait)
      (h : ∃ v w q, (t.line n).slot = some { sl with latestStart := v, urgent := w, seq := q })
  | returned (h : SlotReturned l n sl t)

theorem SlotOnWay.loaded (h : SlotOnWay l n sl s) : (s.line n).slot ≠ none := by
  cases h with
  | waits _ _ h => obtain ⟨_, _, _, h⟩ := h; rw [h]; exact nofun
  | returned h => obtain ⟨_, _, _, h⟩ := h.slot; rw [h]; exact nofun

theorem SlotOnWay.acts (h : SlotOnWay l n sl s) (k : Acts a s t) (hn : ¬ a.xfer (.slot n)) : SlotOnWay l n sl t := by
  cases h with
  | waits hp hs h =>
    obtain ⟨v, w, q, h⟩ := h
    obtain ⟨sl', hs', v', w', q', _, _, rfl⟩ := k.slot_kept hn hp.unpickable h
    exact .waits (hp.acts k hn) hs ⟨v', w', q', hs'⟩
  | returned h => exact .returned (h.acts k hn)

theorem SlotOnWay.returnSlot_self (h : SlotOnWay l n sl s) (hl : s.linkOf n = l) : SlotReturned l n sl (returnSlot n s) := by
  cases h with
  | waits hp hs h =>
    obtain ⟨v, w, q, h⟩ := h
    obtain ⟨hp', v', w', q', h'⟩ := returnSlot_returned h hl hp
    exact ⟨hp', v', w', q', h'⟩
  | returned h =>
    obtain ⟨v, w, q, h'⟩ := h.slot
    obtain ⟨hp', v', w', q', h'⟩ := returnSlot_returned h' hl h.parked
    exact ⟨hp', v', w', q', h'⟩

theorem SlotOnWay.recsBack (h : SlotOnWay l n sl s) : SlotOnWay l n sl (recsBack l s) :=
  h.acts (recsBack_returning l s) (returning_slot (fun ⟨_, _, e⟩ => Xfer.noConfusion e) h.loaded)

theorem returnSlot_self_acts (n : LineId) (s : State) : Acts (returning (· = .slot n) s) s (returnSlot n s) :=
  returnSlot_returning n rfl (.refl s)

theorem SlotOnWay.slotsBack (h : SlotOnWay l n sl s) (he : (s.line n).enabled = true) (hl : s.linkOf n = l) :
    SlotReturned l n sl (slotsBack l s) := by
  have homed : ∀ t m, t.linkOf n = l → (returnSlot m t).linkOf n = l := fun t m k => ((returnSlot_self_acts m t).frame.linkOf n).trans k
  have others : ∀ t m, m ≠ n → SlotOnWay l n sl t → ¬ (returning (· = .slot m) t).xfer (.slot n) := fun t m hm k =>
    returning_slot (fun c => hm (Xfer.slot.inj c).symm) k.loaded
  have post : ∀ t m, SlotReturned l n sl t ∧ t.linkOf n = l → SlotReturned l n sl (returnSlot m t) ∧ (returnSlot m t).linkOf n = l :=
    fun t m k => by
      refine ⟨?_, homed t m k.2⟩
      by_cases e : m = n
      · subst e; exact (SlotOnWay.returned k.1).returnSlot_self k.2
      · exact k.1.acts (returnSlot_self_acts m t) (others t m e (.returned k.1))
  cases h with
  | returned h =>
    exact (foldl_induct (P := fun t => SlotReturned l n sl t ∧ t.linkOf n = l) _ (fun t m _ k => post t m k) ⟨h, hl⟩).1
  | waits hp hs h =>
    obtain ⟨v, w, q, h⟩ := h
    have hmem : n ∈ confirmWaiters s l := confirmWaiters_mem h he hl hs
    exact (foldl_reaches (P := fun t => SlotOnWay l n sl t ∧ t.linkOf n = l)
      (Q := fun t => SlotReturned l n sl t ∧ t.linkOf n = l) _ hmem
      (fun t m hm k => ⟨k.1.acts (returnSlot_self_acts m t) (others t m hm k.1), homed t m k.2⟩)
      (fun t k => ⟨k.1.returnSlot_self k.2, homed t n k.2⟩) post ⟨.waits hp hs ⟨v, w, q, h⟩, hl⟩).1

/-! ### A link goes DOWN (R140) -/

/-- A link that has just left UP for DOWN, shown and raised. -/
def fallen (l : LinkId) (s : State) : State := linkChanged l (dropLink l .down s)

/-- The owners' part of a link's going down. -/
def ownersBack (l : LinkId) (s : State) : State := timersPaused l (slotsBack l (recsBack l (returnSending l s)))

theorem linkDown_eq (l : LinkId) (s : State) : linkDown l .down s = pollDown l (linesDown l (ownersBack l (fallen l s))) := rfl

theorem Outward.link (h : Outward s t) (l : LinkId) : t.link l = s.link l := by obtain ⟨o, w, rfl⟩ := h; rfl

theorem Outward.line (h : Outward s t) (n : LineId) : t.line n = s.line n := by obtain ⟨o, w, rfl⟩ := h; rfl

theorem Outward.rec? (h : Outward s t) (i : Nat) : t.rec? i = s.rec? i := by obtain ⟨o, w, rfl⟩ := h; rfl

theorem Outward.recGen (h : Outward s t) (r : DestRec) : t.recGen r = s.recGen r := by obtain ⟨o, w, rfl⟩ := h; rfl

theorem fallen_outward (l : LinkId) (s : State) : Outward (dropLink l .down s) (fallen l s) := linkChanged_outward l _

theorem fallen_link (l : LinkId) (s : State) : (fallen l s).link l = { s.link l with
    state := .down, credit := 0, silence := none, retry := some 1000, wire := none, control := [] } := by
  rw [(fallen_outward l s).link, dropLink, State.link_modLink_self]
  rfl

theorem fallen_issued {w : BusWrite} (h : Issued (fallen l s) t w) : Issued s t w := by
  have k : Calm false (dropLink l .down s) (fallen l s) := linkChanged_calm l (.refl _)
  have h : Issued (dropLink l .down s) t w := k.issued h
  exact h

theorem fallen_queue (l m : LinkId) (s : State) : ((fallen l s).link m).queue = (s.link m).queue ∧
    ((fallen l s).link m).sending = (s.link m).sending := by
  rw [(fallen_outward l s).link, dropLink, State.link_modLink]
  split
  · next e => subst e; exact ⟨rfl, rfl⟩
  · exact ⟨rfl, rfl⟩

theorem fallen_rec (l : LinkId) (i : Nat) (s : State) : (fallen l s).rec? i = s.rec? i := (fallen_outward l s).rec? i

theorem fallen_line (l : LinkId) (n : LineId) (s : State) : (fallen l s).line n = s.line n := (fallen_outward l s).line n

theorem fallen_recGen (l : LinkId) (r : DestRec) (s : State) : (fallen l s).recGen r = s.recGen r := (fallen_outward l s).recGen r

theorem fallen_down (l : LinkId) (s : State) : ((fallen l s).link l).state ≠ .up := by rw [fallen_link]; nofun

theorem fallen_parked (h : ∀ m, x ∉ (s.link m).queue) : Parked l x (fallen l s) :=
  ⟨fallen_down l s, fun m _ c => h m ((fallen_queue l m s).1 ▸ c)⟩

theorem fallen_homed (hl : s.linkOf r.line = l) (h : s.recGen r = 0 ∨ (s.line r.line).held = s.recGen r) : Homed l r (fallen l s) :=
  ⟨by unfold State.linkOf; rw [fallen_line]; exact hl, by rw [fallen_recGen, fallen_line]; exact h⟩

/-- The owners leave of a line all but its slot. -/
theorem ownersBack_line (l : LinkId) (n : LineId) (s : State) :
    (ownersBack l s).line n = { s.line n with slot := ((ownersBack l s).line n).slot } := by
  have h1 := (returnSending_returning l s).frame.line n id
  have h2 := (recsBack_returning l (returnSending l s)).frame.line n id
  have h3 := (slotsBack_returning l (recsBack l (returnSending l s))).frame.line n id
  rw [ownersBack, (timersPaused_poolOnly l _).line, h3, h2, h1]

theorem ownersBack_calm {q : Bool} (l : LinkId) (s : State) : Calm q s (ownersBack l s) :=
  ownersDown_calm l (returnSending_calm l (.refl s))

/-! ### Records and slots after a link's going down -/

theorem clearSending_parked (h : Parked l x s) : Parked l x (clearSending l s) := by
  refine h.of_links ?_ fun m _ => ?_
  · obtain ⟨_, _, e⟩ := clearSending_link l s
    rw [e]
  · rw [clearSending, ((schedMirror_still l (.refl _)).links m).queue, State.link_modLink]
    split
    · next e => subst e; rfl
    · rfl

theorem returnSending_onWay (hp : Parked l (.dest i) s) (hr : s.rec? i = some r) (hh : Homed l r s)
    (hs : r.state = .receiptWait ∨ r.state = .sending ∧ (s.link l).sending = some (.dest i)) : OnWay l i r (returnSending l s) := by
  by_cases hx : (s.link l).sending = some (.dest i)
  · have k := clearSending_acts (a := returning (fun _ => False) s) l (.refl s)
    have hh' := hh.acts k id
    rw [returnSending_dest hx]
    exact .returned (returnRec_returned ((clearSending_rec l i s).trans hr) hh'.link (clearSending_parked hp) hh'.holds)
  · exact OnWay.acts (.waits hp (hs.resolve_right fun c => hx c.2) ⟨r.seq, hr⟩) (returnSending_returning l s) (returning_dest hx)

theorem returnSending_slotOnWay (hp : Parked l (.slot n) s) (hs : (s.line n).slot = some sl) (hl : s.linkOf n = l)
    (hst : sl.state = .confirmWait ∨ sl.state = .sending ∧ (s.link l).sending = some (.slot n)) :
    SlotOnWay l n sl (returnSending l s) := by
  by_cases hx : (s.link l).sending = some (.slot n)
  · rw [returnSending_slot hx]
    exact .returned (returnSlot_returned ((congrArg Line.slot (clearSending_line l n s)).trans hs)
      (by unfold State.linkOf; rw [clearSending_line]; exact hl) (clearSending_parked hp))
  · have h0 : SlotOnWay l n sl s := .waits hp (hst.resolve_right fun c => hx c.2) ⟨sl.latestStart, sl.urgent, sl.seq, hs⟩
    exact h0.acts (returnSending_returning l s) (returning_slot hx h0.loaded)

/-- A record that waited for its receipt, or was SENDING, is QUEUED again from its acked offset (R31). -/
theorem ownersBack_queued (hp : Parked l (.dest i) s) (hr : s.rec? i = some r) (hh : Homed l r s)
    (hs : r.state = .receiptWait ∨ r.state = .sending ∧ (s.link l).sending = some (.dest i)) : ∃ v q,
      (ownersBack l s).rec? i = some { r with state := .queued, sent := r.acked, timer := .stopped, latestStart := v, seq := q } :=
  ((returnSending_onWay hp hr hh hs).recsBack (hh.acts (returnSending_returning l s) id)).slotsBack.record_paused

theorem ownersBack_aloof (h : Aloof i r s) (hx : (s.link l).sending ≠ some (.dest i)) (hs : r.state ≠ .receiptWait) :
    Aloof i r (slotsBack l (recsBack l (returnSending l s))) :=
  ((h.acts (returnSending_returning l s) (returning_dest hx)).recsBack hs).slotsBack

/-- The slot of a line that waited for its confirm, or was SENDING, is QUEUED again from its acked offset (R62). -/
theorem ownersBack_slot (hp : Parked l (.slot n) s) (hs : (s.line n).slot = some sl) (he : (s.line n).enabled = true) (hl : s.linkOf n = l)
    (hst : sl.state = .confirmWait ∨ sl.state = .sending ∧ (s.link l).sending = some (.slot n)) : ∃ v w q,
      ((ownersBack l s).line n).slot = some { sl with
        state := .queued, sent := sl.acked, timer := none, latestStart := v, urgent := w, seq := q } := by
  have k1 := (returnSending_returning l s).frame
  have k2 := (recsBack_returning l (returnSending l s)).frame
  have h := (returnSending_slotOnWay hp hs hl hst).recsBack.slotsBack ((k2.setup n).1.trans ((k1.setup n).1.trans he))
    ((k2.linkOf n).trans ((k1.linkOf n).trans hl))
  obtain ⟨v, w, q, h⟩ := h.slot
  exact ⟨v, w, q, (congrArg Line.slot ((timersPaused_poolOnly l _).line n)).trans h⟩

/-- What follows the owners as a link goes down: its lines, then its polls (R129, R140). -/
def downRest (l : LinkId) (s : State) : State := pollDown l (linesDown l s)

theorem linesDown_enters (l : LinkId) (s : State) : Enters .unreachable (s.linesOn l) s (linesDown l s) :=
  setLineStates_enters (by decide) _ s

theorem pollDown_rec (l : LinkId) (i : Nat) (s : State) : (pollDown l s).rec? i = s.rec? i := by
  unfold pollDown
  refine foldl_induct (P := fun t => t.rec? i = s.rec? i) _ (fun t n _ h => (endQuery_rec n i t).trans h) ?_
  exact (loseWindow_still l (.refl s)).rec? i

theorem pollDown_line (l : LinkId) (n : LineId) (s : State) :
    (pollDown l s).line n = if n ∈ s.linesOn l then { s.line n with query := none } else s.line n := by
  have h := loseWindow_still l (.refl s)
  have hl : (loseWindow l s).linesOn l = s.linesOn l := by unfold State.linesOn; simp only [h.line]
  unfold pollDown
  dsimp only
  rw [foldl_endQuery_line, hl, h.line]

theorem downRest_rec (l : LinkId) (i : Nat) (s : State) : (downRest l s).rec? i = s.rec? i :=
  (pollDown_rec l i _).trans ((linesDown_enters l s).rec? i)

theorem downRest_slot (l : LinkId) (n : LineId) (s : State) : ((downRest l s).line n).slot = (s.line n).slot := by
  obtain ⟨_, _, _, e⟩ := (linesDown_enters l s).line n
  rw [downRest, pollDown_line]
  split
  · rw [e]
  · rw [e]

theorem linesDown_linesOn (l : LinkId) (s : State) : (linesDown l s).linesOn l = s.linesOn l := by
  unfold State.linesOn
  refine List.filter_congr fun n _ => ?_
  obtain ⟨_, _, _, e⟩ := (linesDown_enters l s).line n
  rw [e]

/-- The lines of a link that goes down are UNREACHABLE and have no query (R129, R159, R160). -/
theorem downRest_line (h : n ∈ s.linesOn l) : ((downRest l s).line n).state = .unreachable ∧ ((downRest l s).line n).query = none ∧
    ((downRest l s).line n).requery = none := by
  obtain ⟨z, c, e, hz⟩ := (linesDown_enters l s).entered n h
  rw [downRest, pollDown_line, if_pos (by rw [linesDown_linesOn]; exact h), e, hz (by decide)]
  exact ⟨rfl, rfl, rfl⟩

theorem downRest_query {q : Query} {y : U64} (h : n ∈ s.linesOn l) (hq : (s.line n).query = some q) (hy : y ∈ q.pending) :
    Disposed s (downRest l s) y .done 2 := by
  obtain ⟨z, c, e, _⟩ := (linesDown_enters l s).entered n h
  have hw := loseWindow_still l (.refl (linesDown l s))
  have hmem : n ∈ (loseWindow l (linesDown l s)).linesOn l := by
    have e : (loseWindow l (linesDown l s)).linesOn l = (linesDown l s).linesOn l := by unfold State.linesOn; simp only [hw.line]
    rw [e, linesDown_linesOn]
    exact h
  have hd := foldl_endQuery_disposed hmem (q := q) (by rw [hw.line, e]; exact hq) hy
  exact (loseWindow_calm l (linesDown_calm l (Calm.refl (q := false) s))).issued hd

theorem downRest_roll {w : RollWindow} {y : U64} (hw : (s.link l).roll = some w) (hy : y ∈ w.pending) :
    Disposed s (downRest l s) y .done 1 := by
  have h := loseWindow_disposed (s := linesDown l s) (by rw [(linesDown_enters l s).link]; exact hw) hy
  refine (linesDown_calm l (Calm.refl (q := false) s)).issued (Issued.calm (q := false) h ?_)
  exact foldl_calm _ (fun _ n h => endQuery_calm n h) _ (.refl _)

theorem downRest_noRoll (h : (s.link l).state ≠ .up) : ((downRest l s).link l).roll = none := by
  have hd : ((linesDown l s).link l).state ≠ .up := by rw [(linesDown_enters l s).link]; exact h
  have k := foldl_calm _ (fun _ n h => endQuery_calm n h) ((loseWindow l (linesDown l s)).linesOn l)
    (Calm.refl (q := false) (loseWindow l (linesDown l s)))
  refine (k.linkKeeps l).roll (fun c => hd ?_) (loseWindow_roll hd)
  rw [← ((loseWindow_still l (.refl _)).links l).state]
  exact c

theorem downRest_calm (l : LinkId) (s : State) : Calm false s (downRest l s) := pollDown_calm l (linesDown_calm l (.refl s))

/-- The link itself and its polls (R137, R140, R156). -/
theorem linkDown_link (s : State) (l : LinkId) : 
    ((linkDown l .down s).link l).state = .down ∧ ((linkDown l .down s).link l).credit = 0 ∧
      ((linkDown l .down s).link l).silence = none ∧ ((linkDown l .down s).link l).retry = some 1000 ∧
      ((linkDown l .down s).link l).Dark ∧ Raised (linkDown l .down s) .linkChanged ∧
      ∀ w, (s.link l).roll = some w → ∀ x ∈ w.pending, Disposed s (linkDown l .down s) x .done 1 := by
  have hf := fallen_link l s
  have hdown := fallen_down l s
  have k1 : Calm false (fallen l s) (ownersBack l (fallen l s)) := ownersBack_calm l _
  have k : Calm false (fallen l s) (downRest l (ownersBack l (fallen l s))) := k1.trans (downRest_calm l _)
  have hk := k.linkKeeps l
  have hsend : ((linkDown l .down s).link l).sending = none := by
    have hs : ((returnSending l (fallen l s)).link l).state ≠ .up := by
      rw [((returnSending_calm l (Calm.refl (q := false) (fallen l s))).linkKeeps l).state]
      exact hdown
    have k2 : Calm false (returnSending l (fallen l s)) (downRest l (ownersBack l (fallen l s))) :=
      (ownersDown_calm l (Calm.refl (q := false) _)).trans (downRest_calm l _)
    exact (k2.linkKeeps l).sending hs (returnSending_sending hdown)
  have hroll : ((linkDown l .down s).link l).roll = none :=
    downRest_noRoll (s := ownersBack l (fallen l s)) (by rw [(k1.linkKeeps l).state]; exact hdown)
  rw [linkDown_eq]
  change LinkKeeps _ _ ((pollDown l (linesDown l (ownersBack l (fallen l s)))).link l) at hk
  refine ⟨hk.state.trans (by rw [hf]), Nat.le_zero.1 (hk.credit.trans_eq (by rw [hf])), hk.silence.trans (by rw [hf]),
    hk.retry.trans (by rw [hf]), ⟨hk.wire hdown (by rw [hf]), hk.control hdown (by rw [hf]), hsend, hroll⟩,
    Raised.calm (Raised.raise .linkChanged _) k, fun w hw x hx => ?_⟩
  have hr := ((ownersBack_calm (q := true) l (fallen l s)).linkKeeps l).still rfl
  have hd := downRest_roll (l := l) (hr.trans ((congrArg Link.roll hf).trans hw)) hx
  exact fallen_issued (k1.issued hd)

/-- A line of the link (R129, R159, R160). -/
theorem linkDown_line (he : (s.line n).enabled = true) (hl : (s.line n).cfg.link = l) :
    ((linkDown l .down s).line n).state = .unreachable ∧ ((linkDown l .down s).line n).query = none ∧
      ((linkDown l .down s).line n).requery = none ∧
      ∀ q, (s.line n).query = some q → ∀ x ∈ q.pending, Disposed s (linkDown l .down s) x .done 2 := by
  have hline := ownersBack_line l n (fallen l s)
  rw [fallen_line] at hline
  have hn : n ∈ (ownersBack l (fallen l s)).linesOn l := by
    rw [mem_linesOn, hline]
    exact ⟨he, hl⟩
  obtain ⟨h1, h2, h3⟩ := downRest_line hn
  refine ⟨h1, h2, h3, fun q hq x hx => fallen_issued ((ownersBack_calm (q := false) l (fallen l s)).issued ?_)⟩
  exact downRest_query hn (by rw [hline]; exact hq) hx

/-- A record that its link's fall sends back to the queue (R31). -/
theorem linkDown_queued (hr : s.rec? i = some r) (hl : s.linkOf r.line = l) (hi : InPlace s i r)
    (hs : r.state = .receiptWait ∨ r.state = .sending ∧ (s.link l).sending = some (.dest i))
    (hg : s.recGen r = 0 ∨ (s.line r.line).held = s.recGen r) : ∃ v q, (linkDown l .down s).rec? i = some { r with
      state := .queued, sent := r.acked, timer := .stopped, latestStart := v, seq := q } := by
  have hu : Unqueued s i := hi.unqueued (by obtain hs | ⟨hs, _⟩ := hs <;> rw [hs] <;> decide)
  obtain ⟨v, q, h⟩ := ownersBack_queued (fallen_parked hu) ((fallen_rec l i s).trans hr) (fallen_homed hl hg)
    (hs.imp_right fun h => ⟨h.1, ((fallen_queue l l s).2).trans h.2⟩)
  exact ⟨v, q, (downRest_rec l i _).trans h⟩

/-- A record that no SENDING slot holds and that neither is QUEUED nor waits for its receipt is where it was, its timer paused where it
waits for an acknowledgement (R31). -/
theorem linkDown_aloof (hr : s.rec? i = some r) (hi : InPlace s i r) (hx : ∀ m, (s.link m).sending ≠ some (.dest i))
    (hs : r.state ≠ .queued ∧ r.state ≠ .receiptWait) :
    (s.linkOf r.line = l → r.state = .releasing ∨ r.state = .withdrawing →
      (linkDown l .down s).rec? i = some { r with timer := r.timer.pause }) ∧
    (r.state ≠ .releasing ∧ r.state ≠ .withdrawing → (linkDown l .down s).rec? i = some r) := by
  have hidle : (fallen l s).layout.Idle (.dest i) := fun m =>
    ⟨fun c => hi.unqueued hs.1 m ((fallen_queue l m s).1 ▸ c), fun c => hx m ((fallen_queue l m s).2 ▸ c)⟩
  have h := ownersBack_aloof ⟨hidle, (fallen_rec l i s).trans hr⟩ (by rw [(fallen_queue l l s).2]; exact hx l) hs.2
  refine ⟨fun hl hst => ?_, fun hst => (downRest_rec l i _).trans (timersPaused_other h.record hst)⟩
  have k1 := (returnSending_returning l (fallen l s)).frame
  have k2 := (recsBack_returning l (returnSending l (fallen l s))).frame
  have k3 := (slotsBack_returning l (recsBack l (returnSending l (fallen l s)))).frame
  have hl' : (fallen l s).linkOf r.line = l := by unfold State.linkOf; rw [fallen_line]; exact hl
  exact (downRest_rec l i _).trans (timersPaused_waiting h.record
    ((k3.linkOf _).trans ((k2.linkOf _).trans ((k1.linkOf _).trans hl'))) hst)

/-- A slot that its link's fall sends back to the queue (R62). -/
theorem linkDown_slot (hs : (s.line n).slot = some sl) (he : (s.line n).enabled = true) (hl : (s.line n).cfg.link = l)
    (hq : ∀ m, Xfer.slot n ∉ (s.link m).queue)
    (hst : sl.state = .confirmWait ∨ sl.state = .sending ∧ (s.link l).sending = some (.slot n)) : ∃ v w q,
      ((linkDown l .down s).line n).slot = some { sl with
        state := .queued, sent := sl.acked, timer := none, latestStart := v, urgent := w, seq := q } := by
  obtain ⟨v, w, q, h⟩ := ownersBack_slot (fallen_parked hq) ((congrArg Line.slot (fallen_line l n s)).trans hs)
    (by rw [fallen_line]; exact he) (by unfold State.linkOf; rw [fallen_line]; exact hl)
    (hst.imp_right fun h => ⟨h.1, ((fallen_queue l l s).2).trans h.2⟩)
  exact ⟨v, w, q, (downRest_slot l n _).trans h⟩

theorem retryTimeout_due (h1 : (s.link l).state = .down) (h2 : (s.link l).retry = some 0) :
    retryTimeout l s = linkChanged l (s.modLink l fun k => { k with state := .connecting, retry := none }) := if_pos ⟨h1, h2⟩

end Sys2Proof.Machine

namespace Sys2Proof.Delivery

open Sys2Proof Sys2Proof.Machine

/-- Settles O55: what the owners hand back stays in the dark link's queue through the steps of the lines and the polls. -/
theorem linkGoesDown : Obligations.LinkGoesDown := by
  intro s l
  refine ⟨fun c hc hu hsil => ?_, fun h1 h2 => ?_, fun hu => ⟨?_, ?_⟩, fun hsil => ?_, fun h => ?_⟩
  · have hexec : exec c s = .next (sweepPages (linkDown l .down s)) := by
      simp only [List.mem_cons, List.not_mem_nil, or_false] at hc
      obtain rfl | rfl := hc
      · exact congrArg Host.Outcome.next (if_pos hu)
      · exact congrArg Host.Outcome.next (if_pos ⟨hu, hsil rfl⟩)
    have k := sweepPages_calm (Calm.refl (q := true) (linkDown l .down s))
    have hk := k.linkKeeps l
    obtain ⟨h1, h2, h3, h4, h5, h6, h7⟩ := linkDown_link s l
    have hdown : ((linkDown l .down s).link l).state ≠ .up := by rw [h1]; decide
    refine ⟨_, hexec, hk.state.trans h1, Nat.le_zero.1 (hk.credit.trans_eq h2), hk.silence.trans h3, hk.retry.trans h4,
      ⟨hk.wire hdown h5.wire, hk.control hdown h5.control, hk.sending hdown h5.sending, (hk.still rfl).trans h5.roll⟩, h6.calm k,
      fun n he hl => ?_, fun w hw x hx => Issued.calm (h7 w hw x hx) k, _, rfl, fun i r hr hl hi => ⟨fun hs hg => ?_, fun hs hx => ?_,
      fun hs hx => ?_⟩, fun n sl he hl hs hq hst => ?_⟩
    · obtain ⟨g1, g2, g3, g4⟩ := linkDown_line he hl
      rw [sweepPages_line]
      exact ⟨g1, g2, g3, fun q hq x hx => Issued.calm (g4 q hq x hx) k⟩
    · obtain ⟨v, q, h⟩ := linkDown_queued hr hl hi hs hg
      exact ⟨_, h, rfl, rfl, rfl, rfl, rfl⟩
    · have hne : r.state ≠ .queued ∧ r.state ≠ .receiptWait := by obtain hs | hs := hs <;> rw [hs] <;> decide
      refine ((linkDown_aloof hr hi hx hne).1 hl hs).trans ?_
      cases r.timer <;> rfl
    · have hne : (r.state ≠ .queued ∧ r.state ≠ .receiptWait) ∧ r.state ≠ .releasing ∧ r.state ≠ .withdrawing := by
        generalize r.state = st at hs
        cases st <;> simp at hs ⊢
      exact (linkDown_aloof hr hi hx hne.1).2 hne.2
    · obtain ⟨v, w, q, h⟩ := linkDown_slot hs he hl hq hst
      exact ⟨_, h, rfl, rfl, rfl, rfl, rfl, rfl, rfl⟩
  · refine ⟨_, congrArg Host.Outcome.next (retryTimeout_due h1 h2), ?_, Raised.raise _ _, ?_⟩
    · rw [(linkChanged_outward l _).link, State.link_modLink_self]
    · have e := (linkChanged_outward l (s.modLink l fun k => { k with state := .connecting, retry := none })).eq
      have hk : (linkChanged l (s.modLink l fun k => { k with state := .connecting, retry := none })).links =
          (s.modLink l fun k => { k with state := .connecting, retry := none }).links := by rw [e]
      rw [hk]
      exact e
  · exact congrArg Host.Outcome.next (if_neg hu)
  · exact congrArg Host.Outcome.next (if_neg fun c => hu c.1)
  · exact congrArg Host.Outcome.next (if_neg fun c => hsil c.2)
  · exact congrArg Host.Outcome.next (if_neg fun c => h.elim (fun h => h c.1) fun h => h c.2)

end Sys2Proof.Delivery
end

section
/-! A MISS that is due, its late policy and the fallback it may make (O47; R43, R98 to R103, R172). -/

namespace Sys2Proof.Machine

variable {a : Aim} {b s t u w : State} {i n : Nat} {r r' f : DestRec} {p : Page} {m : LineId} {rest : List Nat}

/-! ### Retraction alone, record by record -/

/-- What a retraction leaves of the record it is for: the catalog may have renumbered it since. -/
structure Dropped (i : Nat) (r r' : DestRec) (x : RetractEnd) (d : Detail) (t : State) : Prop where
  record : t.rec? i = some r'
  recast : ∃ st e y tm k q, r' = { r with state := st, detail := e, retract := y, timer := tm, sendCount := k, seq := q }
  retracted : Retracted r r' x d
  unqueued : Unqueued t i

theorem Dropped.acts {x : RetractEnd} {d : Detail} (h : Dropped i r r' x d s) (k : Acts a s t) (hi : ¬ a.xfer (.dest i)) :
    ∃ r'', Dropped i r r'' x d t := by
  obtain ⟨q, _, hr⟩ := k.dest_kept hi h.unqueued.unpickable h.record
  obtain ⟨st, e, y, tm, c, v, rfl⟩ := h.recast
  exact ⟨_, hr, ⟨st, e, y, tm, c, q, rfl⟩, h.retracted, fun l c => h.unqueued l ((k.frame.queue l _ c).resolve_right hi)⟩

theorem retractAlone_dropped {x : RetractEnd} {d : Detail} (hr : s.rec? i = some r) (hi : InPlace s i r) :
    ∃ r', Dropped i r r' x d (retractAlone i x d s) := by
  obtain ⟨r1, h1, ⟨st, e, y, tm, c, rfl⟩, hret, _, hu⟩ := retract_recast (x := x) (d := d) hr hi
  rw [retractAlone_eq hr]
  have h : Dropped i r _ x d (retract i x d s) := ⟨h1, ⟨st, e, y, tm, c, r.seq, rfl⟩, hret, hu⟩
  exact h.acts (reexamine_loading r.line _) (loading_dest i)

/-- Aimed at a record, and at what the catalog loads where a slot is idle. -/
def dropping (i : Nat) (s : State) : Aim := returning (· = .dest i) s

theorem retractAlone_acts (i : Nat) (x : RetractEnd) (d : Detail) (h : Acts (dropping i b) b s) :
    Acts (dropping i b) b (retractAlone i x d s) := by
  unfold retractAlone
  split
  · exact h
  · exact reexamine_acts _ trivial (fun h => .inr ⟨_, rfl, h⟩) (.inl trivial) (retract_acts i x d trivial (.inl rfl) h)

/-! ### Whether a fallback can be made (R102) -/

/-- A page has a destination on a line already. -/
def OnLine (s : State) (p : Page) (a : LineId) : Prop := ∃ j ∈ p.dests, ∃ q, s.rec? j = some q ∧ q.line = a

theorem ActFrame.onLine {A : Aim} {a : LineId} (h : ActFrame A s t) : OnLine t p a ↔ OnLine s p a := by
  refine exists_congr fun j => and_congr_right fun _ => ?_
  cases hr : s.rec? j with
  | none => rw [h.unused j hr]
  | some q =>
    obtain ⟨q', hq', hl, _⟩ := h.used j q hr
    rw [hq']
    refine ⟨fun ⟨_, e, hx⟩ => ⟨q, rfl, ?_⟩, fun ⟨_, e, hx⟩ => ⟨q', rfl, ?_⟩⟩
    · cases e; exact hl.symm.trans hx
    · cases e; exact hl.trans hx

section

variable {a : LineId}

theorem fallbackTarget_none (h : (s.line r.line).cfg.alternate = none) : fallbackTarget s r p = .inl .fallbackNone := by
  rw [fallbackTarget, h]

theorem fallbackTarget_unusable (h : (s.line r.line).cfg.alternate = some a) (he : (s.line a).enabled = false) :
    fallbackTarget s r p = .inl .fallbackLineUnusable := by
  rw [fallbackTarget, h]
  exact if_pos he

theorem fallbackTarget_already (h : (s.line r.line).cfg.alternate = some a) (he : (s.line a).enabled = true) (ho : OnLine s p a) :
    fallbackTarget s r p = .inl .fallbackAlreadyDestination := by
  obtain ⟨j, hj, q, hq, hl⟩ := ho
  rw [fallbackTarget, h]
  dsimp only
  rw [if_neg (by rw [he]; decide)]
  refine if_pos (List.any_eq_true.2 ⟨j, hj, ?_⟩)
  rw [hq]
  exact beq_iff_eq.2 hl

theorem fallbackTarget_elsewhere (h : (s.line r.line).cfg.alternate = some a) (he : (s.line a).enabled = true) (ho : ¬ OnLine s p a) :
    fallbackTarget s r p = if s.free = [] then .inl .fallbackPoolFull else .inr a := by
  rw [fallbackTarget, h]
  dsimp only
  rw [if_neg (by rw [he]; decide)]
  refine if_neg fun c => ho ?_
  obtain ⟨j, hj, hq⟩ := List.any_eq_true.1 c
  cases hr : s.rec? j with
  | none => rw [hr] at hq; cases hq
  | some q =>
    rw [hr] at hq
    exact ⟨j, hj, q, hr, beq_iff_eq.1 hq⟩

end

/-! ### Counters (R102, R172) -/

theorem bumpCounter_counters (c : DeskCounter) (s : State) : (bumpCounter c s).counters = s.counters.bump c := by
  unfold bumpCounter
  split
  · next h => exact h.symm
  · obtain ⟨o, w, h⟩ := deskWrite_outward 0xA00 (countersBytes (s.counters.bump c)) (s.setCounters (s.counters.bump c))
    exact congrArg State.counters h

theorem satInc_ne {c : U32} (h : c ≠ BitVec.allOnes 32) : satInc c ≠ c := fun e => h (by
  apply BitVec.eq_of_toNat_eq
  have h1 := congrArg BitVec.toNat e
  have h2 := c.isLt
  simp only [satInc, satAdd, BitVec.toNat_ofNat] at h1
  simp only [BitVec.toNat_allOnes]
  omega)

theorem Calm.deskBase {q : Bool} (h : Calm q s t) : t.order.deskBase = s.order.deskBase := by
  have h : t.order.core.deskBase = s.order.core.deskBase := by rw [h.orderKeeps.core]
  exact h

/-! ### A fallback that is made (R23, R25, R103) -/

/-- The record that a fallback takes into use. -/
def newFallback (i : Nat) (r : DestRec) (a : LineId) (s : State) : DestRec := fallbackRec i r a (s.line r.line).cfg.extension

/-- The fallback's record in use, with its WARN. -/
def fallbackEntered (i n : Nat) (r : DestRec) (a : LineId) (rest : List Nat) (s : State) : State :=
  addDeadline ⟨warnDue (newFallback i r a s).deadline (s.line a).cfg.warnLead, n, .warn⟩ (fallbackTaken i n r (newFallback i r a s) rest s)

/-- Its first place. -/
def fallbackPlaced (n : Nat) (p : Page) (s : State) : State := if p.state = .active then placeFallback n s else s

/-- The origin's entry and the counter. -/
def fallbackTold (i n : Nat) (s : State) : State := bumpCounter .fallbacksMade (monitor n (writeCreation i n s))

theorem makeFallback_eq {a : LineId} (h : s.free = n :: rest) : makeFallback i r p a s =
    reexamine a (pickIfQueued n (fallbackTold i n (fallbackPlaced n p (fallbackEntered i n r a rest s)))) := by
  rw [makeFallback, h]
  rfl

section

variable {a : LineId}

theorem fallbackEntered_new (hn : n ≠ i) : (fallbackEntered i n r a rest s).rec? n = some (newFallback i r a s) := by
  refine (rec_modRec _ i n _).trans ((if_neg hn).trans ?_)
  exact Table.get_put_self _ _ _

theorem fallbackEntered_origin {q : DestRec} (hn : n ≠ i) (hr : s.rec? i = some q) :
    (fallbackEntered i n r a rest s).rec? i = some { q with fallback := .made n } := by
  refine (rec_modRec _ i i _).trans ((if_pos rfl).trans ?_)
  have h : Table.get (Table.put s.recs n (newFallback i r a s)) i = some q := (Table.get_put_ne _ _ (Ne.symm hn)).trans hr
  exact congrArg (Option.map _) h

theorem fallbackEntered_page (hp : s.page? r.parent = some p) :
    (fallbackEntered i n r a rest s).page? r.parent = some { p with dests := p.dests ++ [n] } :=
  page_modPage_self (s := (s.setFree rest).putRec n (newFallback i r a s)) (fun e => { e with dests := e.dests ++ [n] }) hp

theorem fallbackEntered_calm : Calm false s (fallbackEntered i n r a rest s) :=
  addDeadline_calm _ (modRec_calm _ _ (modPage_calm _ _
    (fun _ => ⟨rfl, rfl, rfl, rfl, rfl, rfl, rfl, rfl, rfl, rfl, List.prefix_append _ _⟩) (putRec_calm _ _ (setFree_calm _ (.refl s)))))

theorem fallbackEntered_due : ⟨warnDue (newFallback i r a s).deadline (s.line a).cfg.warnLead, n, .warn⟩ ∈
    (fallbackEntered i n r a rest s).deadlines := (mem_insertDue _ _ _).2 (.inl rfl)

/-- What a record's first place changes of it. -/
def Seated (f f' : DestRec) : Prop := ∃ st d v q, f' = { f with state := st, detail := d, latestStart := v, seq := q }

theorem placeFallback_acts {A : Aim} (ha : A.xfer (.dest n)) (hr : A.reseq) (h : Acts A b s) : Acts A b (placeFallback n s) := by
  have moved := fun st => modRec_acts n (fun q : DestRec => { q with state := st }) ha ⟨fun _ => rfl, fun _ => rfl, fun _ => rfl⟩ h
  unfold placeFallback
  split
  · exact h
  · split
    · exact joinQueue_acts _ _ ha (.inl hr) (updateL_acts n ha (moved _))
    · exact updateL_acts n ha (moved _)
    · exact modRec_acts n _ ha ⟨fun _ => rfl, fun _ => rfl, fun _ => rfl⟩ h

theorem placeFallback_placed (hr : s.rec? n = some f) (hu : Unqueued s n) : ∃ f', (placeFallback n s).rec? n = some f' ∧
    Seated f f' ∧ Placed (placement s f) f' ∧ (f'.state = .queued ∨ Unqueued (placeFallback n s) n) := by
  rw [placeFallback, hr]
  dsimp only
  cases placement s f with
  | queued =>
    obtain ⟨v, hv⟩ := updateL_rec_latest (rec_modRec_self (fun q => { q with state := .queued }) hr)
    exact ⟨_, joinQueue_rec _ hv, ⟨.queued, f.detail, v, _, rfl⟩, .inl rfl, .inl rfl⟩
  | targetWait =>
    obtain ⟨v, hv⟩ := updateL_rec_latest (rec_modRec_self (fun q => { q with state := .targetWait }) hr)
    refine ⟨_, hv, ⟨.targetWait, f.detail, v, f.seq, rfl⟩, rfl, .inr fun l c => hu l ?_⟩
    rw [updateL_link] at c
    exact c
  | ended x d =>
    have h := rec_modRec_self (fun q => { q with state := x.state, detail := d }) hr
    exact ⟨_, h, ⟨x.state, d, f.latestStart, f.seq, rfl⟩, ⟨rfl, rfl⟩, .inr hu⟩

theorem pickIfQueued_acts {A : Aim} (n : Nat) (h : Acts A b s) : Acts A b (pickIfQueued n s) := by
  unfold pickIfQueued
  split
  · exact h
  · split
    · exact pick_acts _ h
    · exact h

theorem fallbackTold_still (i n : Nat) (s : State) : ∃ d, Still (s.setDeadlines d) (fallbackTold i n s) := by
  have h1 := writeCreation_still i n (Still.refl s)
  refine ⟨(monitor n (writeCreation i n s)).deadlines, ?_⟩
  refine Still.trans ?_ (bumpCounter_still .fallbacksMade (.refl _))
  rw [monitor_keeps]
  exact ⟨h1.clock, h1.pages, h1.verify, h1.recs, h1.free, rfl, h1.lines, h1.seqNext, h1.links⟩

theorem writeCreation_outward (i n : Nat) (s : State) : Outward s (writeCreation i n s) := by
  unfold writeCreation
  split
  · exact .refl s
  · exact hostWrite_outward _ _ _

theorem fallbackTold_counters (i n : Nat) (s : State) : (fallbackTold i n s).counters = s.counters.bump .fallbacksMade := by
  obtain ⟨o, w, h⟩ := writeCreation_outward i n s
  rw [fallbackTold, bumpCounter_counters, monitor_keeps, h]
  rfl

/-- The write that a fallback's creation makes in the origin's entry (R43, log entry 35). -/
theorem writeCreation_issued {q : DestRec} (hr : s.rec? i = some q) (hq : q.fallback = .made n) (hf : s.rec? n = some f) :
    Issued s (writeCreation i n s) (.write (q.entryAddr + 8) (leBytes 1 q.state.code ++ leBytes 1 q.detail.code ++ leBytes 1 q.attempts ++
      leBytes 1 (flagBit q.late 0 + flagBit q.missed 1 + flagBit q.siteHasData 2) ++ leBytes 1 f.line.val ++ leBytes 1 f.state.code ++
      [0, 0])) := by
  have hf' := rec_modRec_self (fun f => { f with detail := .none }) hf
  have hb : fallbackBytes (s.modRec n fun f => { f with detail := .none }) q.fallback =
      leBytes 1 f.line.val ++ leBytes 1 f.state.code ++ leBytes 1 Detail.none.code := by
    rw [hq, fallbackBytes]
    rw [hf']
  have e : writeCreation i n s = hostWrite (q.entryAddr + 8) (entryBytes (s.modRec n fun f => { f with detail := .none }) q) s := by
    rw [writeCreation, hr]
  have h := Issued.hostWrite (q.entryAddr + 8) (entryBytes (s.modRec n fun f => { f with detail := .none }) q) s
  rw [e]
  rw [entryBytes, hb] at h ⊢
  have hz : leBytes 1 Detail.none.code ++ leBytes 1 0 = [0, 0] := rfl
  simp only [List.append_assoc, hz] at h ⊢
  exact h

/-- The new fallback's record once all has been done for it. -/
structure FallbackStands (s : State) (p : Page) (f : DestRec) (first : DestState) (f' : DestRec) : Prop where
  line : f'.line = f.line
  parent : f'.parent = f.parent
  isFallback : f'.isFallback = f.isFallback
  origin : f'.origin = f.origin
  deadline : f'.deadline = f.deadline
  first : first = f'.state ∨ first = .queued ∧ f'.state = .sending
  unplaced : p.state ≠ .active → f'.state = f.state
  placed : p.state = .active → Placed (placement s f) f'

/-- After its first place a pick may make it SENDING. -/
theorem FallbackStands.of_held {g : DestRec} (hg : Seated f g) (hu : p.state ≠ .active → g.state = f.state)
    (hp : p.state = .active → Placed (placement s f) g) (hne : p.state ≠ .active → f.state ≠ .queued)
    (h : ∃ q, f' = { g with seq := q } ∨ g.state = .queued ∧ f' = { g with seq := q, state := .sending, sent := g.acked }) :
    FallbackStands s p f g.state f' := by
  obtain ⟨st, d, v, k, rfl⟩ := hg
  obtain ⟨q, rfl | ⟨hq, rfl⟩⟩ := h
  · exact ⟨rfl, rfl, rfl, rfl, rfl, .inl rfl, hu, hp⟩
  · refine ⟨rfl, rfl, rfl, rfl, rfl, .inr ⟨hq, rfl⟩, fun hn => absurd ((hu hn).symm.trans hq) (hne hn), fun ha => ?_⟩
    have h := hp ha
    cases hpl : placement s f with
    | queued => exact .inr rfl
    | targetWait => rw [hpl] at h; cases h.symm.trans hq
    | ended x e => rw [hpl] at h; cases x <;> cases h.1.symm.trans hq

/-- A record that is QUEUED, or stands in no queue, after a run that is not aimed at it. -/
theorem Acts.dest_seated {A : Aim} (h : Acts A s t) (hi : ¬ A.xfer (.dest n)) (hr : s.rec? n = some f)
    (hs : f.state = .queued ∨ Unqueued s n) : ∃ f', t.rec? n = some f' ∧ ∃ q, f' = { f with seq := q } ∨
      f.state = .queued ∧ f' = { f with seq := q, state := .sending, sent := f.acked } := by
  by_cases hq : f.state = .queued
  · obtain ⟨f', hf, q, _, he⟩ := h.dest_held hi hr
    exact ⟨f', hf, q, he.imp_right fun e => ⟨hq, e⟩⟩
  · obtain ⟨q, _, hf⟩ := h.dest_kept hi (hs.resolve_left hq).unpickable hr
    exact ⟨_, hf, q, .inl rfl⟩

/-- Aimed at one record. -/
def seating (n : Nat) : Aim where
  xfer x := x = .dest n
  line _ := False
  keys _ := False

theorem fallbackPlaced_acts (n : Nat) (p : Page) (s : State) : Acts (seating n) s (fallbackPlaced n p s) := by
  unfold fallbackPlaced
  split
  · exact placeFallback_acts rfl trivial (.refl s)
  · exact .refl s

theorem fallbackPlaced_calm (n : Nat) (p : Page) (s : State) : Calm false s (fallbackPlaced n p s) :=
  ite_calm (placeFallback_calm n (.refl s)) (.refl s)

theorem fallbackPlaced_new (hr : s.rec? n = some f) (hu : Unqueued s n) : ∃ g, (fallbackPlaced n p s).rec? n = some g ∧ Seated f g ∧
    (p.state ≠ .active → g.state = f.state) ∧ (p.state = .active → Placed (placement s f) g) ∧
    (g.state = .queued ∨ Unqueued (fallbackPlaced n p s) n) := by
  unfold fallbackPlaced
  split
  · next h =>
    obtain ⟨g, hg, hs, hp, hq⟩ := placeFallback_placed hr hu
    exact ⟨g, hg, hs, fun c => absurd h c, fun _ => hp, hq⟩
  · next h => exact ⟨f, hr, ⟨_, _, _, _, rfl⟩, fun _ => rfl, fun c => absurd c h, .inr hu⟩

/-- What follows the creation's writes is aimed at nothing but what the catalog loads (R24, R77). -/
theorem fallbackRest_acts (n : Nat) (a : LineId) (s : State) : Acts (loading s) s (reexamine a (pickIfQueued n s)) :=
  reexamine_acts a trivial (fun h => ⟨a, rfl, h⟩) (.inl trivial) (pickIfQueued_acts n (.refl s))

theorem monitor_verifying (hr : s.rec? n = some f) (hs : f.state = .verifyWait) : monitor n s = s := by
  rw [monitor, hr]
  dsimp only
  rw [hs]

/-- The counters area is written with the counter of fallbacks made (R102, R172). -/
theorem fallbackTold_counted (i n : Nat) (hb : s.order.deskBase ≠ 0) (hc : s.counters.bump .fallbacksMade ≠ s.counters) :
    Issued s (fallbackTold i n s) (.write (s.order.deskBase + 0xA00) (countersBytes (s.counters.bump .fallbacksMade))) := by
  have k : Calm false s (monitor n (writeCreation i n s)) := monitor_calm n (writeCreation_calm i n (.refl s))
  have e : (monitor n (writeCreation i n s)).counters = s.counters := by
    obtain ⟨o, w, h⟩ := writeCreation_outward i n s
    rw [monitor_keeps, h]
    rfl
  have h := bumpCounter_issued (s := monitor n (writeCreation i n s)) (c := .fallbacksMade) (by rw [e]; exact hc)
    (by rw [k.deskBase]; exact hb)
  rw [k.deskBase, e] at h
  exact k.issued h

theorem fallbackTold_due (i : Nat) (hr : s.rec? n = some f) (hs : f.state = .verifyWait) :
    (fallbackTold i n s).deadlines = s.deadlines := by
  have h := writeCreation_still i n (Still.refl s)
  rw [fallbackTold, (bumpCounter_still _ (.refl _)).deadlines, monitor_verifying ((h.rec? n).trans hr) hs, h.deadlines]

theorem fallbackTold_created {q : DestRec} (hr : s.rec? i = some q) (hq : q.fallback = .made n) (hf : s.rec? n = some f) :
    Issued s (fallbackTold i n s) (.write (q.entryAddr + 8) (leBytes 1 q.state.code ++ leBytes 1 q.detail.code ++ leBytes 1 q.attempts ++
      leBytes 1 (flagBit q.late 0 + flagBit q.missed 1 + flagBit q.siteHasData 2) ++ leBytes 1 f.line.val ++ leBytes 1 f.state.code ++
      [0, 0])) :=
  (writeCreation_issued hr hq hf).calm (q := false) (bumpCounter_calm _ (monitor_calm n (.refl _)))

/-- A fallback's creation once its record is in use and its WARN in the list. -/
def fallbackRun (i n : Nat) (p : Page) (a : LineId) (s : State) : State :=
  reexamine a (pickIfQueued n (fallbackTold i n (fallbackPlaced n p s)))

theorem fallbackRun_acts (i n : Nat) (p : Page) (a : LineId) (s : State) :
    Acts (loading (fallbackTold i n (fallbackPlaced n p s))) (fallbackTold i n (fallbackPlaced n p s)) (fallbackRun i n p a s) :=
  fallbackRest_acts n a _

theorem fallbackTold_rec (i n j : Nat) (s : State) : (fallbackTold i n s).rec? j = s.rec? j := by
  obtain ⟨d, h⟩ := fallbackTold_still i n s
  exact h.rec? j

theorem fallbackTold_unqueued {j : Nat} (i n : Nat) (h : Unqueued s j) : Unqueued (fallbackTold i n s) j := by
  obtain ⟨d, k⟩ := fallbackTold_still i n s
  exact fun l c => h l ((k.links l).queue ▸ c)

/-- The origin, in its place, keeps all but its sequence. -/
theorem fallbackRun_origin (hn : n ≠ i) (hr : s.rec? i = some r) (hu : Unqueued s i) :
    (∃ v, (fallbackPlaced n p s).rec? i = some { r with seq := v }) ∧ ∃ v, (fallbackRun i n p a s).rec? i = some { r with seq := v } := by
  have k := fallbackPlaced_acts n p s
  have hi : ¬ (seating n).xfer (.dest i) := fun c => hn (Xfer.dest.inj c).symm
  obtain ⟨v, _, h1⟩ := k.dest_kept hi hu.unpickable hr
  have hu1 : Unqueued (fallbackPlaced n p s) i := fun l c => hu l ((k.frame.queue l _ c).resolve_right hi)
  obtain ⟨v', _, h2⟩ := (fallbackRun_acts i n p a s).dest_kept (loading_dest i) (fallbackTold_unqueued i n hu1).unpickable
    ((fallbackTold_rec i n i _).trans h1)
  exact ⟨⟨v, h1⟩, v', h2⟩

theorem fallbackRun_pool (i n : Nat) (p : Page) (a : LineId) (s : State) : (fallbackRun i n p a s).free = s.free ∧
    ∀ j, (fallbackRun i n p a s).page? j = s.page? j := by
  have k1 := (fallbackPlaced_acts n p s).frame
  have k3 := (fallbackRun_acts i n p a s).frame
  obtain ⟨d, k2⟩ := fallbackTold_still i n (fallbackPlaced n p s)
  exact ⟨k3.free.trans (k2.free.trans k1.free), fun j => (k3.page? j).trans ((k2.page? j).trans (k1.page? j))⟩

/-- The counters of desk and their write (R102, R172). -/
theorem fallbackRun_counters (i n : Nat) (p : Page) (a : LineId) (s : State) : ∃ v v', (fallbackRun i n p a s).counters =
      { s.counters with predictedLates := v', fallbacksMade := satInc s.counters.fallbacksMade } ∧
    (s.order.deskBase ≠ 0 → s.counters.fallbacksMade ≠ BitVec.allOnes 32 → Issued s (fallbackRun i n p a s)
      (.write (s.order.deskBase + 0xA00)
        (countersBytes { s.counters with predictedLates := v, fallbacksMade := satInc s.counters.fallbacksMade }))) := by
  obtain ⟨v, _, h1⟩ := (fallbackPlaced_acts n p s).frame.counters
  obtain ⟨v', _, h3⟩ := (fallbackRun_acts i n p a s).frame.counters
  have h2 := fallbackTold_counters i n (fallbackPlaced n p s)
  refine ⟨v, v', by rw [h3, h2, h1]; rfl, fun hb hne => ?_⟩
  have k := fallbackPlaced_calm n p s
  have k4 : Calm false (fallbackTold i n (fallbackPlaced n p s)) (fallbackRun i n p a s) := reexamine_calm a (pickIfQueued_calm n (.refl _))
  have h := fallbackTold_counted i n (s := fallbackPlaced n p s) (by rw [k.deskBase]; exact hb) (by
    rw [h1]
    exact fun c => satInc_ne hne (congrArg DeskCounters.fallbacksMade c))
  rw [k.deskBase, h1] at h
  exact (k.issued h).calm k4

/-- The fallback's own record, and what is written of it in its origin's entry (R43, R103). -/
theorem fallbackRun_stands {e : DeadlineEntry} (hn : n ≠ i) (hr : s.rec? i = some r) (hu : Unqueued s i) (hm : r.fallback = .made n)
    (hf : s.rec? n = some f) (hs : f.state = .verifyWait) (hun : Unqueued s n) (he : e ∈ s.deadlines) (hd : e.dest = n) :
    ∃ f' first, (fallbackRun i n p a s).rec? n = some f' ∧ FallbackStands s p f first f' ∧
      (p.state ≠ .active → e ∈ (fallbackRun i n p a s).deadlines) ∧
      Issued s (fallbackRun i n p a s) (.write (r.entryAddr + 8) (leBytes 1 r.state.code ++ leBytes 1 r.detail.code ++
        leBytes 1 r.attempts ++ leBytes 1 (flagBit r.late 0 + flagBit r.missed 1 + flagBit r.siteHasData 2) ++
        leBytes 1 f.line.val ++ leBytes 1 first.code ++ [0, 0])) := by
  obtain ⟨g, hg, hseat, hst, hact, hq⟩ := fallbackPlaced_new (p := p) hf hun
  have k := fallbackRun_acts i n p a s
  obtain ⟨f', hf', hv⟩ := k.dest_seated (loading_dest n) ((fallbackTold_rec i n n _).trans hg) (hq.imp_right (fallbackTold_unqueued i n))
  refine ⟨f', g.state, hf', .of_held hseat hst hact (fun _ c => by rw [hs] at c; cases c) hv, fun ha => ?_, ?_⟩
  · have hfil := k.frame.due n (loading_dest n)
    have hplaced : fallbackPlaced n p s = s := if_neg ha
    rw [fallbackTold_due i hg ((hst ha).trans hs), hplaced] at hfil
    have hmem : e ∈ s.deadlines.filter fun e => e.dest == n := List.mem_filter.2 ⟨he, beq_iff_eq.2 hd⟩
    rw [← hfil] at hmem
    exact (List.mem_filter.1 hmem).1
  · obtain ⟨⟨v, h1⟩, _⟩ := fallbackRun_origin (p := p) (a := a) hn hr hu
    have h := fallbackTold_created h1 hm hg
    have hline : g.line = f.line := by obtain ⟨_, _, _, _, rfl⟩ := hseat; rfl
    have k4 : Calm false (fallbackTold i n (fallbackPlaced n p s)) (fallbackRun i n p a s) := reexamine_calm a (pickIfQueued_calm n (.refl _))
    rw [hline] at h
    exact ((fallbackPlaced_calm n p s).issued h).calm k4

/-- What the creation of a fallback leaves (R23, R43, R102, R103). -/
structure FallbackMade (s u : State) (i n : Nat) (a : LineId) (r : DestRec) (p : Page) (rest : List Nat) : Prop where
  origin : ∃ v, u.rec? i = some { r with fallback := .made n, seq := v }
  free : u.free = rest
  counters : ∃ v v', u.counters = { s.counters with predictedLates := v', fallbacksMade := satInc s.counters.fallbacksMade } ∧
    (s.order.deskBase ≠ 0 → s.counters.fallbacksMade ≠ BitVec.allOnes 32 → Issued s u (.write (s.order.deskBase + 0xA00)
      (countersBytes { s.counters with predictedLates := v, fallbacksMade := satInc s.counters.fallbacksMade })))
  page : u.page? r.parent = some { p with dests := p.dests ++ [n] }
  stands : Unqueued s n → ∃ f first, u.rec? n = some f ∧
    FallbackStands (fallbackEntered i n r a rest s) p (newFallback i r a s) first f ∧
    (p.state ≠ .active → ⟨warnDue (newFallback i r a s).deadline (s.line a).cfg.warnLead, n, .warn⟩ ∈ u.deadlines) ∧
    Issued s u (.write (r.entryAddr + 8) (leBytes 1 r.state.code ++ leBytes 1 r.detail.code ++ leBytes 1 r.attempts ++
      leBytes 1 (flagBit r.late 0 + flagBit r.missed 1 + flagBit r.siteHasData 2) ++ leBytes 1 a.val ++ leBytes 1 first.code ++ [0, 0]))

theorem makeFallback_made (hn : n ≠ i) (hr : s.rec? i = some r) (hu : Unqueued s i) (hp : s.page? r.parent = some p)
    (hfree : s.free = n :: rest) : FallbackMade s (makeFallback i r p a s) i n a r p rest := by
  have e : makeFallback i r p a s = fallbackRun i n p a (fallbackEntered i n r a rest s) := makeFallback_eq hfree
  have h1 := fallbackEntered_origin (r := r) (a := a) (rest := rest) hn hr
  have k : Calm false s (fallbackEntered i n r a rest s) := fallbackEntered_calm
  obtain ⟨hpool, hpages⟩ := fallbackRun_pool i n p a (fallbackEntered i n r a rest s)
  obtain ⟨v, v', hc, hw⟩ := fallbackRun_counters i n p a (fallbackEntered i n r a rest s)
  rw [e]
  refine ⟨(fallbackRun_origin hn h1 hu).2, hpool, ⟨v, v', hc, fun hb hne => k.issued (hw hb hne)⟩,
    (hpages _).trans (fallbackEntered_page hp), fun hun => ?_⟩
  obtain ⟨f, first, hf, hst, hdue, hi⟩ := fallbackRun_stands (p := p) (a := a) hn h1 hu rfl (fallbackEntered_new hn) rfl hun
    fallbackEntered_due rfl
  exact ⟨f, first, hf, hst, hdue, k.issued hi⟩

end

/-! ### A fallback that is not made (R102) -/

/-- What the refusal of a fallback leaves (R43, R102). -/
structure FallbackFailed (s u : State) (i : Nat) (r : DestRec) (why : Detail) : Prop where
  origin : u.rec? i = some { r with fallback := .failed why }
  free : u.free = s.free
  counters : u.counters = { s.counters with fallbacksFailed := satInc s.counters.fallbacksFailed }
  counted : s.order.deskBase ≠ 0 → s.counters.fallbacksFailed ≠ BitVec.allOnes 32 → Issued s u (.write (s.order.deskBase + 0xA00)
    (countersBytes { s.counters with fallbacksFailed := satInc s.counters.fallbacksFailed }))
  shown : r.origin = none → Issued s u (.write (r.entryAddr + 8) (leBytes 1 r.state.code ++ leBytes 1 r.detail.code ++
    leBytes 1 r.attempts ++ leBytes 1 (flagBit r.late 0 + flagBit r.missed 1 + flagBit r.siteHasData 2) ++ [255, 0] ++
    leBytes 1 why.code ++ [0]))

/-- The origin's entry with the reason, and the counter. -/
def refuseFallback (i : Nat) (why : Detail) (s : State) : State :=
  bumpCounter .fallbacksFailed (writeEntry i (s.modRec i fun q => { q with fallback := .failed why }))

theorem refuseFallback_failed (hr : s.rec? i = some r) (why : Detail) : FallbackFailed s (refuseFallback i why s) i r why := by
  have h1 := rec_modRec_self (fun q => { q with fallback := .failed why }) hr
  have hw := writeEntry_writes i (s.modRec i fun q => { q with fallback := .failed why })
  have hst := writeEntry_still i (.refl (s.modRec i fun q => { q with fallback := .failed why }))
  have hb := bumpCounter_still .fallbacksFailed (.refl (writeEntry i (s.modRec i fun q => { q with fallback := .failed why })))
  have kw : Calm false s (writeEntry i (s.modRec i fun q => { q with fallback := .failed why })) := writeEntry_calm i (modRec_calm _ _ (.refl s))
  have hc : (writeEntry i (s.modRec i fun q => { q with fallback := .failed why })).counters = s.counters := by
    obtain ⟨w, h⟩ := hw
    rw [h]
    rfl
  unfold refuseFallback
  refine ⟨(hb.rec? i).trans ((hst.rec? i).trans h1), hb.free.trans hst.free, ?_, fun hd hne => ?_, fun ho => ?_⟩
  · rw [bumpCounter_counters, hc]
    rfl
  · have h := bumpCounter_issued (s := writeEntry i (s.modRec i fun q => { q with fallback := .failed why })) (c := .fallbacksFailed)
      (by rw [hc]; exact fun c => satInc_ne hne (congrArg DeskCounters.fallbacksFailed c)) (by rw [kw.deskBase]; exact hd)
    rw [kw.deskBase, hc] at h
    exact kw.issued h
  · have h := writeEntry_issued h1 ho
    have k0 : Calm false s (s.modRec i fun q => { q with fallback := .failed why }) := modRec_calm _ _ (.refl s)
    refine (k0.issued ?_).calm (q := false) (bumpCounter_calm _ (.refl _))
    have e : entryBytes (s.modRec i fun q => { q with fallback := .failed why }) { r with fallback := .failed why } =
        leBytes 1 r.state.code ++ leBytes 1 r.detail.code ++ leBytes 1 r.attempts ++
          leBytes 1 (flagBit r.late 0 + flagBit r.missed 1 + flagBit r.siteHasData 2) ++ [255, 0] ++ leBytes 1 why.code ++ [0] := by
      simp only [entryBytes, fallbackBytes, List.append_assoc]
      rfl
    rw [e] at h
    exact h

/-! ### The firing (R98, R101) -/

/-- MISSED set in the record and its entry, and raised (R98). -/
def missNoted (i : Nat) (s : State) : State := raise .missed (writeEntry i (s.modRec i fun q => { q with missed := true }))

/-- The record of a MISS retracted, before a fallback is asked for (R100, R101). -/
def missDropped (i : Nat) (s : State) : State := retractAlone i .missed .none (missNoted i s)

theorem missNoted_still (i : Nat) (s : State) : Still (s.modRec i fun q => { q with missed := true }) (missNoted i s) :=
  raise_still _ (writeEntry_still i (.refl _))

theorem missNoted_rec (hr : s.rec? i = some r) : (missNoted i s).rec? i = some { r with missed := true } :=
  ((missNoted_still i s).rec? i).trans (rec_modRec_self _ hr)

theorem missNoted_page (i j : Nat) (s : State) : (missNoted i s).page? j = s.page? j := (missNoted_still i s).page? j

theorem missNoted_inPlace (h : InPlace s i r) : InPlace (missNoted i s) i { r with missed := true } := fun l c => by
  rw [((missNoted_still i s).links l).queue] at c
  rw [(missNoted_still i s).linkOf]
  exact h l c

theorem missNoted_acts (i : Nat) (s : State) : Acts (dropping i s) s (missNoted i s) :=
  raise_acts _ (writeEntry_acts i (modRec_acts i _ (.inl rfl) ⟨fun _ => rfl, fun _ => rfl, fun _ => rfl⟩ (.refl s)))

theorem missNoted_calm (i : Nat) (s : State) : Calm false s (missNoted i s) := raise_calm _ (writeEntry_calm i (modRec_calm _ _ (.refl s)))

theorem recPolicy_eq (hp : s.page? r.parent = some p) : recPolicy s r = if r.isFallback then .continue_ else p.policy := by
  rw [recPolicy, hp]

theorem fireMiss_awaiting (hr : s.rec? i = some r) (hw : r.state.awaiting = true) (hp : s.page? r.parent = some p) :
    (r.isFallback = true ∨ p.policy = .continue_ → fireMiss i s = missNoted i s) ∧
    (r.isFallback = false → p.policy = .drop → fireMiss i s = missDropped i s) ∧
    (r.isFallback = false → p.policy = .fallback → fireMiss i s = askFallback i (missDropped i s)) := by
  have hpol : recPolicy (missNoted i s) r = if r.isFallback then .continue_ else p.policy := recPolicy_eq ((missNoted_page i _ s).trans hp)
  rw [fireMiss, hr]
  dsimp only
  rw [if_pos hw]
  change recPolicy (raise .missed (writeEntry i (s.modRec i fun q => { q with missed := true }))) r = _ at hpol
  rw [hpol]
  refine ⟨fun h => ?_, fun h1 h2 => ?_, fun h1 h2 => ?_⟩
  · have e : (if r.isFallback then LatePolicy.continue_ else p.policy) = .continue_ := by
      split
      · rfl
      · next hf => exact h.resolve_left hf
    rw [e]
    rfl
  · rw [h1, if_neg Bool.false_ne_true, h2]
    rfl
  · rw [h1, if_neg Bool.false_ne_true, h2]
    rfl

theorem fireMiss_withdrawing (hr : s.rec? i = some r) (hs : r.state = .withdrawing) :
    fireMiss i s = writeEntry i (s.modRec i fun q => { q with missed := true }) := by
  rw [fireMiss, hr]
  dsimp only
  rw [if_neg (by rw [hs]; decide), if_pos hs]

theorem fireMiss_idle (hr : s.rec? i = some r) (hs : r.state = .delivered ∨ r.state = .releasing ∨ r.state.isFinal = true) :
    fireMiss i s = s := by
  have h : ¬ r.state.awaiting = true ∧ r.state ≠ .withdrawing := by
    generalize r.state = st at hs
    revert hs
    cases st <;> decide
  rw [fireMiss, hr]
  dsimp only
  rw [if_neg h.1, if_neg h.2]

theorem askFallback_eq (hr : s.rec? i = some r) (hp : s.page? r.parent = some p) : (∀ why, fallbackTarget s r p = .inl why →
      askFallback i s = refuseFallback i why s) ∧ ∀ a, fallbackTarget s r p = .inr a → askFallback i s = makeFallback i r p a s := by
  refine ⟨fun why h => ?_, fun a h => ?_⟩
  · rw [askFallback, hr]
    dsimp only
    rw [hp]
    dsimp only
    rw [h]
    rfl
  · rw [askFallback, hr]
    dsimp only
    rw [hp]
    dsimp only
    rw [h]

theorem fallbackTarget_free {a : LineId} (h : fallbackTarget s r p = .inr a) : s.free ≠ [] ∧ (s.line r.line).cfg.alternate = some a := by
  have halt : (s.line r.line).cfg.alternate ≠ none := fun c => by rw [fallbackTarget_none c] at h; cases h
  obtain ⟨m, hm⟩ := Option.ne_none_iff_exists'.1 halt
  have he : (s.line m).enabled = true := by
    by_contra c
    rw [fallbackTarget_unusable hm (Bool.eq_false_iff.2 c)] at h
    cases h
  have ho : ¬ OnLine s p m := fun c => by rw [fallbackTarget_already hm he c] at h; cases h
  rw [fallbackTarget_elsewhere hm he ho] at h
  split at h
  · cases h
  · next hf => cases h; exact ⟨hf, hm⟩

theorem missDropped_acts (i : Nat) (s : State) : Acts (dropping i s) s (missDropped i s) := retractAlone_acts i _ _ (missNoted_acts i s)

theorem missDropped_calm (i : Nat) (s : State) : Calm false s (missDropped i s) := retractAlone_calm i _ _ (missNoted_calm i s)

theorem missDropped_dropped (hr : s.rec? i = some r) (hi : InPlace s i r) :
    ∃ r', Dropped i { r with missed := true } r' .missed .none (missDropped i s) :=
  retractAlone_dropped (missNoted_rec hr) (missNoted_inPlace hi)

/-- Of the alternate line a retraction leaves what placing reads (R25). -/
theorem missDropped_line (i : Nat) (m : LineId) (s : State) : LineStays (s.line m) ((missDropped i s).line m) := by
  rw [(missDropped_acts i s).frame.line m id]
  exact ⟨rfl, rfl, rfl, rfl⟩

theorem fireMiss_raised (hr : s.rec? i = some r) (hw : r.state.awaiting = true) (hp : s.page? r.parent = some p) :
    Raised (fireMiss i s) .missed := by
  have h : Raised (missNoted i s) .missed := Raised.raise _ _
  have hd : Raised (missDropped i s) .missed := h.calm (q := false) (retractAlone_calm i _ _ (.refl _))
  obtain ⟨h1, h2, h3⟩ := fireMiss_awaiting hr hw hp
  cases hf : r.isFallback with
  | true => rw [h1 (.inl hf)]; exact h
  | false =>
    cases hpol : p.policy with
    | continue_ => rw [h1 (.inr hpol)]; exact h
    | drop => rw [h2 hf hpol]; exact hd
    | fallback => rw [h3 hf hpol]; exact hd.calm (q := false) (askFallback_calm i (.refl _))

/-- The new fallback as the page's state has it (R25, R103). -/
theorem FallbackStands.placedBy {a : LineId} {first : DestState} {q : DestRec} (h : FallbackStands (fallbackEntered i n q a rest t) p (newFallback i q a t) first f)
    (hp : t.page? q.parent = some p) (hl : ∀ m, LineStays (s.line m) (t.line m)) (ha : p.state = .active) : PlacedBy s p.generation f := by
  have hg : (fallbackEntered i n q a rest t).recGen (newFallback i q a t) = p.generation := by
    unfold State.recGen
    rw [show (newFallback i q a t).parent = q.parent from rfl, fallbackEntered_page hp]
  rw [← hg]
  exact ((h.placed ha).by_table h.line).of_line (hl f.line)

/-- The fields of an origin's entry before those of its fallback (R42). -/
def originBytes (r : DestRec) : List Byte :=
  leBytes 1 r.state.code ++ leBytes 1 r.detail.code ++ leBytes 1 r.attempts ++
    leBytes 1 (flagBit r.late 0 + flagBit r.missed 1 + flagBit r.siteHasData 2)

/-- The record of a MISS under FALLBACK, retracted MISSED. -/
structure MissRetracted (u : State) (i : Nat) (r r' : DestRec) : Prop where
  record : u.rec? i = some r'
  missed : r'.missed = true
  retracted : Retracted r r' .missed .none

/-- No fallback is made of it (R43, R102). -/
structure MissRefused (s u : State) (i : Nat) (r r' : DestRec) (why : Detail) : Prop extends MissRetracted u i r r' where
  failed : r'.fallback = .failed why
  free : u.free = s.free
  counters : ∃ v, u.counters = { s.counters with predictedLates := v, fallbacksFailed := satInc s.counters.fallbacksFailed }
  counted : s.order.deskBase ≠ 0 → s.counters.fallbacksFailed ≠ BitVec.allOnes 32 → ∃ v, Issued s u (.write (s.order.deskBase + 0xA00)
    (countersBytes { s.counters with predictedLates := v, fallbacksFailed := satInc s.counters.fallbacksFailed }))
  shown : r.origin = none → Issued s u (.write (r.entryAddr + 8) (originBytes r' ++ [255, 0] ++ leBytes 1 why.code ++ [0]))

/-- A fallback is made of it on an alternate line (R43, R102, R103). -/
structure MissFellBack (s u : State) (i n : Nat) (a : LineId) (r r' : DestRec) (p : Page) (rest : List Nat) : Prop
    extends MissRetracted u i r r' where
  made : r'.fallback = .made n
  free : u.free = rest
  counters : ∃ v, u.counters = { s.counters with predictedLates := v, fallbacksMade := satInc s.counters.fallbacksMade }
  counted : s.order.deskBase ≠ 0 → s.counters.fallbacksMade ≠ BitVec.allOnes 32 → ∃ v, Issued s u (.write (s.order.deskBase + 0xA00)
    (countersBytes { s.counters with predictedLates := v, fallbacksMade := satInc s.counters.fallbacksMade }))
  page : u.page? r.parent = some { p with dests := p.dests ++ [n] }
  stands : Unqueued s n → ∃ f first, u.rec? n = some f ∧ f.line = a ∧ f.parent = r.parent ∧ f.isFallback = true ∧ f.origin = some i ∧
    f.deadline = min (r.deadline + (s.line r.line).cfg.extension) 4294967295 ∧
    (p.state ≠ .active → f.state = .verifyWait ∧ ⟨f.deadline - (s.line a).cfg.warnLead, n, .warn⟩ ∈ u.deadlines) ∧
    (p.state = .active → PlacedBy s p.generation f) ∧ (first = f.state ∨ first = .queued ∧ f.state = .sending) ∧
    Issued s u (.write (r.entryAddr + 8) (originBytes r' ++ leBytes 1 a.val ++ leBytes 1 first.code ++ [0, 0]))

theorem missDropped_target (hr1 : r'.line = r.line) : fallbackTarget (missDropped i s) r' p = fallbackTarget s r p := by
  have k := (missDropped_acts i s).frame
  cases h : (s.line r.line).cfg.alternate with
  | none => rw [fallbackTarget_none h, fallbackTarget_none (by rw [hr1, (k.setup _).2]; exact h)]
  | some a =>
    have h' : ((missDropped i s).line r'.line).cfg.alternate = some a := by rw [hr1, (k.setup _).2]; exact h
    cases he : (s.line a).enabled with
    | false => rw [fallbackTarget_unusable h he, fallbackTarget_unusable h' ((k.setup a).1.trans he)]
    | true =>
      have he' := (k.setup a).1.trans he
      by_cases ho : OnLine s p a
      · rw [fallbackTarget_already h he ho, fallbackTarget_already h' he' (k.onLine.2 ho)]
      · rw [fallbackTarget_elsewhere h he ho, fallbackTarget_elsewhere h' he' (fun c => ho (k.onLine.1 c)), k.free]

/-- The first condition of R102 that fails keeps the fallback from being made. -/
theorem miss_refused {why : Detail} (hr : s.rec? i = some r) (hp : s.page? r.parent = some p) (hi : InPlace s i r)
    (h : fallbackTarget s r p = .inl why) : ∃ r', MissRefused s (askFallback i (missDropped i s)) i r r' why := by
  obtain ⟨r1, hd⟩ := missDropped_dropped hr hi
  have k := (missDropped_acts i s).frame
  have kc := missDropped_calm i s
  obtain ⟨st, e, y, tm, c, q, rfl⟩ := hd.recast
  have hp1 := (k.page? r.parent).trans hp
  have ht := (missDropped_target (i := i) (r' := { r with missed := true, state := st, detail := e, retract := y, timer := tm, sendCount := c, seq := q }) rfl).trans h
  have hask := (askFallback_eq hd.record hp1).1 why ht
  have hf := refuseFallback_failed hd.record why
  obtain ⟨v, _, hv⟩ := k.counters
  have hcnt := hf.counters
  have hissue := hf.counted
  rw [hv] at hcnt hissue
  rw [kc.deskBase] at hissue
  rw [hask]
  exact ⟨_, ⟨hf.origin, rfl, hd.retracted⟩, rfl, hf.free.trans k.free, ⟨v, hcnt⟩, fun hb hne => ⟨v, kc.issued (hissue hb hne)⟩,
    fun ho => kc.issued (hf.shown ho)⟩

/-- Where all its conditions hold a fallback is made. -/
theorem miss_fellBack {a : LineId} (hr : s.rec? i = some r) (hp : s.page? r.parent = some p) (hi : InPlace s i r) (hni : i ∉ s.free)
    (h : fallbackTarget s r p = .inr a) (hfree : s.free = n :: rest) :
    ∃ r', MissFellBack s (askFallback i (missDropped i s)) i n a r r' p rest := by
  obtain ⟨r1, hd⟩ := missDropped_dropped hr hi
  have k := (missDropped_acts i s).frame
  have kc := missDropped_calm i s
  obtain ⟨st, e, y, tm, c, q, rfl⟩ := hd.recast
  have hp1 := (k.page? r.parent).trans hp
  have hne : n ≠ i := fun c => hni (by rw [hfree, c]; exact .head _)
  have ht := (missDropped_target (i := i) (r' := { r with missed := true, state := st, detail := e, retract := y, timer := tm, sendCount := c, seq := q }) rfl).trans h
  have hask := (askFallback_eq hd.record hp1).2 a ht
  have hm := makeFallback_made (a := a) (rest := rest) hne hd.record hd.unqueued hp1 (k.free.trans hfree)
  obtain ⟨v, _, hv⟩ := k.counters
  obtain ⟨v1, hrec⟩ := hm.origin
  obtain ⟨v2, v3, hcnt, hissue⟩ := hm.counters
  rw [hv] at hcnt hissue
  rw [kc.deskBase] at hissue
  rw [hask]
  refine ⟨_, ⟨hrec, rfl, hd.retracted⟩, rfl, hm.free, ⟨v3, hcnt⟩, fun hb hne => ⟨v2, kc.issued (hissue hb hne)⟩, hm.page, fun hun => ?_⟩
  have hun1 : Unqueued (missDropped i s) n := fun l c => hun l ((k.queue l _ c).resolve_right (returning_dest fun c => hne (Xfer.dest.inj c)))
  obtain ⟨f, first, hf, hst, hdue, hi⟩ := hm.stands hun1
  have hcfg := fun m => (k.setup m).2
  refine ⟨f, first, hf, hst.line, hst.parent, hst.isFallback, hst.origin, ?_, fun ha => ⟨hst.unplaced ha, ?_⟩,
    fun ha => hst.placedBy hp1 (fun m => missDropped_line i m s) ha, hst.first, kc.issued hi⟩
  · refine hst.deadline.trans ?_
    show min (r.deadline + ((missDropped i s).line r.line).cfg.extension) Config.maxU32 = _
    rw [hcfg]
    rfl
  · have := hdue ha
    rw [hcfg, warnDue, ← hst.deadline] at this
    exact this

end Sys2Proof.Machine

namespace Sys2Proof.Delivery

open Sys2Proof Sys2Proof.Machine

/-- Settles O47: MISSED is noted, the policy applied; a fallback asked for is made or refused by the first condition of R102 that fails. -/
theorem missFires : Obligations.MissFires := by
  intro s d ds r p hd hk ht hr hp
  have hr0 : (s.setDeadlines ds).rec? d.dest = some r := hr
  have hp0 : (s.setDeadlines ds).page? r.parent = some p := hp
  have hfire : fireEntry d (s.setDeadlines ds) = pageEndOf d.dest (fireMiss d.dest (s.setDeadlines ds)) := by rw [fireEntry, hk]
  have hexec : exec .missFiring s = .next (fireRun startVerify (4 * ds.length + 3) (startVerify (pageEndOf d.dest
      (fireMiss d.dest (s.setDeadlines ds))))) := by
    rw [← hfire]
    exact congrArg _ (fireKind_head hd hk ht)
  refine ⟨_, hexec, fun hs => ?_, fun hs => fireMiss_idle hr0 hs, fun hs => ?_⟩
  · rw [fireMiss_withdrawing hr0 hs]
    obtain ⟨w, h⟩ := writeEntry_writes d.dest ((s.setDeadlines ds).modRec d.dest fun q => { q with missed := true })
    rw [h]
    have h1 := rec_modRec_self (fun q => { q with missed := true }) hr0
    exact ⟨h1, rfl, rfl⟩
  · have haw : r.state.awaiting = true := by
      generalize r.state = st at hs
      revert hs
      cases st <;> decide
    obtain ⟨hcont, hdrop, hfall⟩ := fireMiss_awaiting hr0 haw hp0
    refine ⟨fireMiss_raised hr0 haw hp0, fun h => ?_, fun hf hpol hi => ?_, fun hf hpol hi hfree => ?_⟩
    · rw [hcont h]
      exact ⟨missNoted_rec hr0, (missNoted_still _ _).deadlines⟩
    · obtain ⟨r', hd⟩ := missDropped_dropped hr0 hi
      obtain ⟨_, _, _, _, _, _, e⟩ := hd.recast
      rw [hdrop hf hpol]
      exact ⟨r', hd.record, by rw [e], hd.retracted⟩
    · rw [hfall hf hpol]
      have onLine : ∀ a, ¬ (∀ j ∈ p.dests, ∀ q, s.rec? j = some q → q.line ≠ a) → OnLine (s.setDeadlines ds) p a := fun a h => by
        by_contra c
        exact h fun j hj q hq hl => c ⟨j, hj, q, hq, hl⟩
      have elsewhere : ∀ a, (∀ j ∈ p.dests, ∀ q, s.rec? j = some q → q.line ≠ a) → ¬ OnLine (s.setDeadlines ds) p a :=
        fun a h ⟨j, hj, q, hq, hl⟩ => h j hj q hq hl
      cases htarget : fallbackTarget (s.setDeadlines ds) r p with
      | inl why =>
        obtain ⟨r', h⟩ := miss_refused hr0 hp0 hi htarget
        obtain ⟨v, hv⟩ := h.counters
        have because : ∀ w, fallbackTarget (s.setDeadlines ds) r p = .inl w → r'.fallback = .failed w := fun w hw => by
          rw [htarget] at hw
          cases hw
          exact h.failed
        have notMade : ∀ n, r'.fallback ≠ .made n := fun n c => by rw [h.failed] at c; cases c
        refine ⟨r', h.record, h.missed, h.retracted, ⟨fun _ _ => by rw [hv]; exact ⟨rfl, rfl⟩, fun n c => absurd c (notMade n)⟩,
          fun hb _ h2 => ?_, fun w hw ho => ?_, fun hn => ⟨because _ (fallbackTarget_none hn), h.free⟩, fun a ha =>
          ⟨fun he => ⟨because _ (fallbackTarget_unusable ha he), h.free⟩,
            fun he ho => ⟨because _ (fallbackTarget_already ha he (onLine a ho)), h.free⟩, fun he ho hf => because _ ?_,
            fun n rest he ho hf _ _ => ?_⟩⟩
        · obtain ⟨v', hw⟩ := h.counted hb h2
          exact ⟨{ s.counters with predictedLates := v', fallbacksFailed := satInc s.counters.fallbacksFailed },
            ⟨fun _ _ => ⟨rfl, rfl⟩, fun n c => absurd c (notMade n)⟩, hw⟩
        · rw [h.failed] at hw
          cases hw
          exact h.shown ho
        · exact (fallbackTarget_elsewhere (s := s.setDeadlines ds) ha he (elsewhere a ho)).trans (if_pos hf)
        · have hto := fallbackTarget_elsewhere (s := s.setDeadlines ds) ha he (elsewhere a ho)
          rw [htarget, if_neg (by rw [show (s.setDeadlines ds).free = n :: rest from hf]; nofun)] at hto
          cases hto
      | inr a =>
        obtain ⟨hne, halt⟩ := fallbackTarget_free htarget
        obtain ⟨n, rest, hnr⟩ := List.exists_cons_of_ne_nil hne
        obtain ⟨r', h⟩ := miss_fellBack hr0 hp0 hi hfree htarget hnr
        obtain ⟨v, hv⟩ := h.counters
        have notFailed : ∀ w, r'.fallback ≠ .failed w := fun w c => by rw [h.made] at c; cases c
        have absurdly : ∀ {w} {P : Prop}, fallbackTarget (s.setDeadlines ds) r p = .inl w → P := fun hw => by
          rw [htarget] at hw
          cases hw
        refine ⟨r', h.record, h.missed, h.retracted, ⟨fun w c => absurd c (notFailed w), fun _ _ => by rw [hv]; exact ⟨rfl, rfl⟩⟩,
          fun hb h1 _ => ?_, fun w c => absurd c (notFailed w), fun hn => absurdly (fallbackTarget_none hn), fun b hb =>
          ⟨fun he => absurdly (fallbackTarget_unusable hb he), fun he ho => absurdly (fallbackTarget_already hb he (onLine b ho)),
            fun _ _ hf => absurd hf hne, fun m rest' he ho hf _ hun => ?_⟩⟩
        · obtain ⟨v', hw⟩ := h.counted hb h1
          exact ⟨{ s.counters with predictedLates := v', fallbacksMade := satInc s.counters.fallbacksMade },
            ⟨fun w c => absurd c (notFailed w), fun _ _ => ⟨rfl, rfl⟩⟩, hw⟩
        · obtain rfl : a = b := Option.some.inj (halt.symm.trans hb)
          obtain ⟨rfl, rfl⟩ : n = m ∧ rest = rest' := List.cons.inj (hnr.symm.trans hf)
          obtain ⟨f, first, h1, h2, h3, h4, h5, h6, h7, h8, h9, h10⟩ := h.stands hun
          exact ⟨h.made, h.free, ⟨_, h.page, rfl⟩, f, h1, h2, h3, h4, h5, h6, h7, h8, first, h9, h10⟩

end Sys2Proof.Delivery
end

section
/-! SET PRESS LINE disables a line (O29; R39, R67, R125, R128, R159). -/

namespace Sys2Proof.Machine

variable {a : Aim} {b s t u : State} {i j : Nat} {r r' : DestRec} {n m : LineId}

/-! ### Order progress of the catalog (R53) -/

/-- Of the tables and lines only what entries of a catalog tell apart from their generation can differ. -/
structure Relabels (s t : State) : Prop where
  recs : t.recs = s.recs
  line : ∀ n, ∃ c, t.line n = { s.line n with catalog := c } ∧
    c.map (fun e => e.generation) = (s.line n).catalog.map fun e => e.generation

theorem Relabels.refl (s : State) : Relabels s s := ⟨rfl, fun _ => ⟨_, rfl, rfl⟩⟩

theorem Relabels.trans (h : Relabels s t) (k : Relabels t u) : Relabels s u := by
  refine ⟨k.recs.trans h.recs, fun n => ?_⟩
  obtain ⟨c, hc, hg⟩ := h.line n
  obtain ⟨d, hd, hg'⟩ := k.line n
  rw [hc] at hd hg'
  exact ⟨d, hd, hg'.trans hg⟩

theorem Outward.relabels (h : Outward s t) : Relabels s t := by
  obtain ⟨o, w, rfl⟩ := h
  exact ⟨rfl, fun _ => ⟨_, rfl, rfl⟩⟩

theorem mapCatalog_relabels (n : LineId) {f : CatEntry → CatEntry} (hf : ∀ e, (f e).generation = e.generation) (s : State) :
    Relabels s (s.modLine n fun k => { k with catalog := k.catalog.map f }) := by
  refine ⟨rfl, fun m => ?_⟩
  rw [State.line_modLine]
  split
  · next e =>
    subst e
    exact ⟨_, rfl, (List.map_map ..).trans (List.map_congr_left fun e _ => hf e)⟩
  · exact ⟨_, rfl, rfl⟩

theorem forgetOrder_relabels (k : Nat) (s : State) : Relabels s (forgetOrder k s) := by
  refine foldl_induct (P := fun t => Relabels s t) allLines (fun t n _ h => h.trans (mapCatalog_relabels n (fun e => ?_) t)) (.refl s)
  split <;> rfl

theorem setTargetOrders_relabels (ts : List TargetOrder) (s : State) : Relabels s (s.setTargetOrders ts) := ⟨rfl, fun _ => ⟨_, rfl, rfl⟩⟩

theorem targetProgress_relabels (e : CatEntry) (d f : Nat) (s : State) : Relabels s (targetProgress e d f s) := by
  have ended : ∀ t s, Relabels s (endTargetOrder t s) := fun t s => by
    unfold endTargetOrder
    split
    · exact (setTargetOrders_relabels _ s).trans ((finalDisposition_outward _ _ _ _).relabels.trans (forgetOrder_relabels _ _))
    · exact .refl s
  unfold targetProgress
  split
  · exact .refl s
  · split
    · exact .refl s
    · exact (setTargetOrders_relabels _ s).trans (ended _ _)

theorem reportEntry_outward (e : CatEntry) (st d : Nat) (s : State) : Outward s (reportEntry e st d s) := by
  unfold reportEntry
  split
  · exact .refl s
  · exact hostWrite_outward _ _ _

/-! ### A catalog is cleared (R67) -/

/-- Some entries have left the catalog of a line; of the other catalogs only order progress can differ. -/
structure Emptied (n : LineId) (gs : List U16) (s t : State) : Prop where
  recs : t.recs = s.recs
  line : ∀ m, ∃ c, t.line m = { s.line m with catalog := c }
  left : ∀ e ∈ (t.line n).catalog, e.generation ∈ (s.line n).catalog.map (fun e => e.generation) ∧ e.generation ∉ gs

theorem Emptied.trans {gs hs : List U16} (h : Emptied n gs s t) (k : Emptied n hs t u) : Emptied n (gs ++ hs) s u := by
  refine ⟨k.recs.trans h.recs, fun m => ?_, fun e he => ?_⟩
  · obtain ⟨c, hc⟩ := h.line m
    obtain ⟨d, hd⟩ := k.line m
    exact ⟨d, by rw [hd, hc]⟩
  · obtain ⟨hin, hnot⟩ := k.left e he
    obtain ⟨e', he', hg⟩ := List.mem_map.1 hin
    obtain ⟨hin', hnot'⟩ := h.left e' he'
    rw [hg] at hin' hnot'
    exact ⟨hin', fun c => (List.mem_append.1 c).elim hnot' hnot⟩

theorem dropEntry_emptied (n : LineId) (e : CatEntry) (s : State) : Emptied n [e.generation] s (dropEntry n e s) := by
  have h0 : ∀ m, ((leaveVerify (.target n e.generation) s).modLine n fun k =>
      { k with catalog := k.catalog.filter fun d => d.generation != e.generation }).line m = if m = n then { s.line n with
        catalog := (s.line n).catalog.filter fun d => d.generation != e.generation } else s.line m :=
    fun m => State.line_modLine _ _ _ _
  have k : Relabels ((leaveVerify (.target n e.generation) s).modLine n fun k =>
      { k with catalog := k.catalog.filter fun d => d.generation != e.generation }) (dropEntry n e s) :=
    (reportEntry_outward e droppedCode 0 _).relabels.trans (targetProgress_relabels e _ 0 _)
  refine ⟨k.recs, fun m => ?_, fun d hd => ?_⟩
  · obtain ⟨c, hc, _⟩ := k.line m
    rw [hc, h0]
    split
    · next e => subst e; exact ⟨c, rfl⟩
    · exact ⟨c, rfl⟩
  · obtain ⟨c, hc, hg⟩ := k.line n
    rw [hc] at hd
    have hin : d.generation ∈ c.map fun e => e.generation := List.mem_map.2 ⟨d, hd, rfl⟩
    rw [hg, h0, if_pos rfl] at hin
    obtain ⟨d', hd', hg'⟩ := List.mem_map.1 hin
    obtain ⟨hmem, hne⟩ := List.mem_filter.1 hd'
    rw [← hg']
    exact ⟨List.mem_map.2 ⟨d', hmem, rfl⟩, fun c => bne_iff_ne.1 hne (List.mem_singleton.1 c)⟩

theorem foldl_dropEntry_emptied (n : LineId) (es : List CatEntry) (s : State) :
    Emptied n (es.map fun e => e.generation) s (es.foldl (fun s e => dropEntry n e s) s) := by
  induction es generalizing s with
  | nil => exact ⟨rfl, fun _ => ⟨_, rfl⟩, fun e he => ⟨List.mem_map.2 ⟨e, he, rfl⟩, List.not_mem_nil⟩⟩
  | cons e es ih => exact (dropEntry_emptied n e s).trans (ih _)

/-- The catalog of the line is empty, and its slot, its owed withdrawal and its held generation are clear; of another line only
order progress in the catalog can differ. -/
theorem clearCatalog_line (n m : LineId) (s : State) : ∃ c, (clearCatalog n s).line m = if m = n then
    { s.line n with catalog := [], slot := none, owed := none, held := 0 } else { s.line m with catalog := c } := by
  have h := foldl_dropEntry_emptied n (s.line n).catalog s
  have he : ∀ m, (clearCatalog n s).line m = if m = n then { ((s.line n).catalog.foldl (fun s e => dropEntry n e s) s).line n with
      slot := none, owed := none, held := 0 } else ((s.line n).catalog.foldl (fun s e => dropEntry n e s) s).line m := fun m => by
    unfold clearCatalog
    dsimp only
    rw [(writeLineMirror_still n (.refl _)).line, State.line_modLine, (dropControl_still _ (.refl _)).line, detachSlot_line,
      (dropControl_still _ (.refl _)).line, detachSlot_line]
  generalize (s.line n).catalog.foldl (fun s e => dropEntry n e s) s = t at h he
  have hnil : (t.line n).catalog = [] := List.eq_nil_iff_forall_not_mem.2 fun e he => (h.left e he).2 (h.left e he).1
  obtain ⟨c, hc⟩ := h.line m
  rw [he m]
  split
  · next e =>
    subst e
    rw [hc] at hnil ⊢
    exact ⟨c, by rw [show c = [] from hnil]⟩
  · exact ⟨c, hc⟩

theorem clearCatalog_rec? (n : LineId) (i : Nat) (s : State) : (clearCatalog n s).rec? i = s.rec? i := by
  rw [clearCatalog_rec]
  unfold State.rec?
  rw [(foldl_dropEntry_emptied n _ s).recs]

/-! ### The live records of the line are lost (R39) -/

/-- Aimed at any record, at no slot and no line. -/
def losing : Aim where
  xfer x := ∃ i, x = .dest i
  line _ := False
  keys _ := False
  reseq := False

theorem loseRec_acts (j : Nat) (h : Acts losing b s) : Acts losing b (loseRec s j) := by
  unfold loseRec
  split
  · exact h
  · split
    · exact h
    · exact finish_acts (a := losing) j .failed .lineGone trivial ⟨j, rfl⟩ (detachRec_acts j h)

theorem loseRec_other (h : i ≠ j) (s : State) : (loseRec s j).rec? i = s.rec? i := by
  unfold loseRec
  split
  · rfl
  · split
    · rfl
    · rw [finish_rec, if_neg h, detachRec_rec]

theorem loseRec_live (hr : s.rec? i = some r) (hf : r.state.isFinal = false) :
    (loseRec s i).rec? i = some { r with state := .failed, detail := .lineGone, timer := .stopped } := by
  rw [loseRec, hr]
  dsimp only
  rw [hf, if_neg (by decide), finish_rec, if_pos rfl, detachRec_rec, hr]
  rfl

theorem loseRec_ended (hr : s.rec? i = some r) (hf : r.state.isFinal = true) (j : Nat) : (loseRec s j).rec? i = some r := by
  by_cases e : i = j
  · subst e
    rw [loseRec, hr]
    dsimp only
    rw [hf, if_pos rfl, hr]
  · rw [loseRec_other e, hr]

theorem foldl_loseRec_live (hr : s.rec? i = some r) (hl : r.line = n) (hf : r.state.isFinal = false) :
    ((s.recsOf n).foldl loseRec s).rec? i = some { r with state := .failed, detail := .lineGone, timer := .stopped } :=
  foldl_reaches (P := fun t => t.rec? i = some r)
    (Q := fun t => t.rec? i = some { r with state := .failed, detail := .lineGone, timer := .stopped }) (s.recsOf n)
    (List.mem_map.2 ⟨(i, r), List.mem_filter.2 ⟨Table.mem_of_get hr, beq_iff_eq.2 hl⟩, rfl⟩)
    (fun t _ e h => (loseRec_other e.symm t).trans h) (fun _ h => loseRec_live h hf) (fun _ j h => loseRec_ended h rfl j) hr

theorem foldl_loseRec_line (n m : LineId) (s : State) :
    ∃ sl, ((s.recsOf n).foldl loseRec s).line m = { s.line m with slot := sl } :=
  ⟨_, (foldl_acts (a := losing) loseRec (s.recsOf n) (fun _ j _ h => loseRec_acts j h) (.refl s)).frame.line m id⟩

/-! ### The line leaves the net (R128) -/

/-- Steps 1 to 3 of R128. -/
def disrouted (n : LineId) (s : State) : State :=
  endQuery n (clearCatalog n (sweepPages ((s.recsOf n).foldl loseRec s)))

/-- Step 4 of R128 with its LINE_CHANGED. -/
def unconfigure (n : LineId) (s : State) : State :=
  raiseIfChanged (s.line n) n (changeLine n
    (fun k => { k with enabled := false, state := .unconfigured, statusByte := 0, timeouts := 0 }) s)

theorem disableLine_eq (n : LineId) (s : State) : ∃ l, disableLine n s = pick l (unconfigure n (disrouted n s)) := by
  unfold disableLine unconfigure disrouted
  dsimp only
  exact ⟨_, rfl⟩

theorem raiseIfChanged_outward (old : Line) (n : LineId) (s : State) : Outward s (raiseIfChanged old n s) := by
  unfold raiseIfChanged
  split
  · exact raise_outward _ _
  · exact .refl s

theorem disrouted_line (n m : LineId) (s : State) : ∃ c sl, (disrouted n s).line m = if m = n then
    { s.line n with catalog := [], slot := none, owed := none, held := 0, query := none }
    else { s.line m with catalog := c, slot := sl } := by
  obtain ⟨sl, h1⟩ := foldl_loseRec_line n m s
  obtain ⟨sl', h1'⟩ := foldl_loseRec_line n n s
  obtain ⟨c, h2⟩ := clearCatalog_line n m (sweepPages ((s.recsOf n).foldl loseRec s))
  obtain ⟨c', h2'⟩ := clearCatalog_line n n (sweepPages ((s.recsOf n).foldl loseRec s))
  rw [sweepPages_line, sweepPages_line, h1, h1'] at h2
  rw [if_pos rfl, sweepPages_line, h1'] at h2'
  refine ⟨c, sl, ?_⟩
  rw [disrouted, endQuery_line, h2, h2']
  split <;> rfl

theorem disrouted_rec (n : LineId) (i : Nat) (s : State) :
    (disrouted n s).rec? i = (sweepPages ((s.recsOf n).foldl loseRec s)).rec? i := by
  rw [disrouted, endQuery_rec, clearCatalog_rec?]

theorem disrouted_calm (n : LineId) (s : State) : Calm false s (disrouted n s) :=
  endQuery_calm n (clearCatalog_calm n (sweepPages_calm (foldl_calm (b := s) _ (fun _ i h => loseRec_calm i h) _ (.refl s))))

theorem disrouted_disposed {q : Query} {y : U64} (hq : (s.line n).query = some q) (hy : y ∈ q.pending) :
    Disposed s (disrouted n s) y .done 2 := by
  obtain ⟨sl, h1⟩ := foldl_loseRec_line n n s
  obtain ⟨c, h2⟩ := clearCatalog_line n n (sweepPages ((s.recsOf n).foldl loseRec s))
  rw [if_pos rfl, sweepPages_line, h1] at h2
  have k : Calm false s (clearCatalog n (sweepPages ((s.recsOf n).foldl loseRec s))) :=
    clearCatalog_calm n (sweepPages_calm (foldl_calm (b := s) _ (fun _ i h => loseRec_calm i h) _ (.refl s)))
  exact k.issued (endQuery_disposed (by rw [h2]; exact hq) hy)

theorem unconfigure_line (n m : LineId) (s : State) : ∃ c, (unconfigure n s).line m = if m = n then { s.line n with
    enabled := false, state := .unconfigured, statusByte := 0, timeouts := 0, requery := none, changeCount := c } else s.line m := by
  rw [unconfigure, (raiseIfChanged_outward _ _ _).line, changeLine, settleLine_line, State.line_modLine, if_pos rfl, State.line_modLine]
  exact ⟨_, ite_congr rfl (fun _ => rfl) fun e => if_neg e⟩

theorem unconfigure_rec (n : LineId) (i : Nat) (s : State) : (unconfigure n s).rec? i = s.rec? i := by
  rw [unconfigure, (raiseIfChanged_outward _ _ _).rec?, changeLine, settleLine_frame]
  rfl

theorem unconfigure_calm (n : LineId) (s : State) : Calm false (s.modLine n
    fun k => { k with enabled := false, state := .unconfigured, statusByte := 0, timeouts := 0 }) (unconfigure n s) :=
  raiseIfChanged_calm _ _ (settleLine_calm _ n (.refl _))

/-- A pick leaves an idle slot idle. -/
theorem pick_slot_none (l : LinkId) (h : (s.line n).slot = none) : ((pick l s).line n).slot = none := by
  unfold pick
  dsimp only
  split
  · split
    · next x _ =>
      rw [(kick_still l (.inr (beginSending_openOwed l x s)) (.refl _)).line, (beginSending_still l x s).line]
      cases x with
      | dest i => exact h
      | slot m =>
        refine (modSlot_slot _ m n _).trans ?_
        split
        · next e => subst e; exact Option.map_eq_none_iff.2 h
        · exact h
    · exact h
  · exact h

theorem disableLine_line_self (n : LineId) (s : State) : ∃ c, (disableLine n s).line n = { s.line n with
    enabled := false, state := .unconfigured, statusByte := 0, timeouts := 0, held := 0, catalog := [], slot := none, owed := none,
    query := none, requery := none, changeCount := c } := by
  obtain ⟨c', sl, h1⟩ := disrouted_line n n s
  obtain ⟨c, h2⟩ := unconfigure_line n n (disrouted n s)
  rw [if_pos rfl] at h1 h2
  rw [h1] at h2
  obtain ⟨l, e⟩ := disableLine_eq n s
  have hslot := pick_slot_none (n := n) l (by rw [h2] : ((unconfigure n (disrouted n s)).line n).slot = none)
  refine ⟨c, ?_⟩
  rw [e, (pick_picking _ _).frame.line n id, hslot, h2]

theorem disableLine_line_ne (h : m ≠ n) (s : State) :
    ∃ c sl, (disableLine n s).line m = { s.line m with catalog := c, slot := sl } := by
  obtain ⟨c, sl, h1⟩ := disrouted_line n m s
  obtain ⟨_, h2⟩ := unconfigure_line n m (disrouted n s)
  rw [if_neg h] at h1 h2
  rw [h1] at h2
  obtain ⟨l, e⟩ := disableLine_eq n s
  refine ⟨c, ((pick l (unconfigure n (disrouted n s))).line m).slot, ?_⟩
  rw [e, (pick_picking _ _).frame.line m id, h2]

theorem disableLine_used (hr : (disableLine n s).rec? i = some r) :
    ∃ q, (sweepPages ((s.recsOf n).foldl loseRec s)).rec? i = some q ∧ q.line = r.line := by
  obtain ⟨l, e⟩ := disableLine_eq n s
  rw [e] at hr
  have k := (pick_picking l (unconfigure n (disrouted n s))).frame
  rw [← disrouted_rec, ← unconfigure_rec n]
  cases hq : (unconfigure n (disrouted n s)).rec? i with
  | none => rw [k.unused i hq] at hr; cases hr
  | some q =>
    obtain ⟨q', hq', hline, _⟩ := k.used i q hq
    obtain rfl : q' = r := Option.some.inj (hq'.symm.trans hr)
    exact ⟨q, rfl, hline.symm⟩

/-- No pick takes a record of a line that is not READY. -/
theorem pick_rec_unready (l : LinkId) (hr : s.rec? i = some r) (h : (s.line r.line).state ≠ .ready) : (pick l s).rec? i = some r := by
  have hline : xferLine s (.dest i) = some r.line := congrArg (Option.map DestRec.line) hr
  have hun : Unpickable picking s (.dest i) := .inr fun m hm => ⟨Option.some.inj (hline.symm.trans hm) ▸ h, id⟩
  obtain ⟨v, hv, hv'⟩ := (pick_picking l s).dest_kept (i := i) id hun hr
  obtain rfl : v = r.seq := hv.resolve_left id
  exact hv'

/-- The pick that ends the disabling takes no record of the line. -/
theorem disableLine_rec (hr : (disableLine n s).rec? i = some r) (hl : r.line = n) :
    (sweepPages ((s.recsOf n).foldl loseRec s)).rec? i = some r := by
  obtain ⟨q, hq, hline⟩ := disableLine_used hr
  obtain ⟨l, e⟩ := disableLine_eq n s
  obtain ⟨c, h2⟩ := unconfigure_line n n (disrouted n s)
  rw [if_pos rfl] at h2
  have hun : ((unconfigure n (disrouted n s)).line q.line).state ≠ .ready := by
    rw [hline, hl, h2]
    exact nofun
  have h := pick_rec_unready l ((unconfigure_rec n i _).trans ((disrouted_rec n i s).trans hq)) hun
  rw [← e, hr] at h
  rw [hq, h]

theorem disableLine_noLive (n : LineId) (s : State) : NoLive n (disableLine n s) :=
  fun i r hr hl => loseRecs_noLive n s i r (disableLine_rec hr hl) hl

theorem disableLine_lost (hr : s.rec? i = some r) (hl : r.line = n) (hf : r.state.isFinal = false)
    (hu : (disableLine n s).rec? i = some r') : r' = { r with state := .failed, detail := .lineGone, timer := .stopped } := by
  have h1 := foldl_loseRec_live hr hl hf
  obtain ⟨q, hq, hline⟩ := disableLine_used hu
  obtain rfl : { r with state := .failed, detail := .lineGone, timer := .stopped } = q :=
    Option.some.inj (h1.symm.trans (sweepPages_rec hq))
  exact Option.some.inj ((disableLine_rec hu (hline.symm.trans hl)).symm.trans hq)

/-! ### The order unit through a disabling -/

/-- The disabling is calm but for the change of the line's own fields. -/
theorem disableLine_calm (n : LineId) (s : State) : Calm false ((disrouted n s).modLine n
    fun k => { k with enabled := false, state := .unconfigured, statusByte := 0, timeouts := 0 }) (disableLine n s) := by
  obtain ⟨l, e⟩ := disableLine_eq n s
  rw [e]
  exact pick_calm l (unconfigure_calm n (disrouted n s))

theorem Calm.cursor {q : Bool} (h : Calm q s t) : t.order.cursor = s.order.cursor := by
  have h : t.order.core.cursor = s.order.core.cursor := by rw [h.orderKeeps.core]
  exact h

theorem modLine_order (n : LineId) (f : Line → Line) (s : State) : (s.modLine n f).order = s.order := rfl

theorem modLine_bus (n : LineId) (f : Line → Line) (s : State) : (s.modLine n f).bus = s.bus := rfl

theorem disableLine_cursor (n : LineId) (s : State) : (disableLine n s).order.cursor = s.order.cursor := by
  rw [(disableLine_calm n s).cursor, modLine_order, (disrouted_calm n s).cursor]

theorem disableLine_completions (n : LineId) (s : State) :
    s.order.completions.toNat ≤ (disableLine n s).order.completions.toNat := by
  have h := (disableLine_calm n s).orderKeeps.completions
  rw [modLine_order] at h
  exact (disrouted_calm n s).orderKeeps.completions.trans h

theorem disableLine_bus (n : LineId) (s : State) : ∃ w, (disableLine n s).bus = w ++ s.bus := by
  obtain ⟨w, hw⟩ := (disrouted_calm n s).bus
  obtain ⟨v, hv⟩ := (disableLine_calm n s).bus
  rw [modLine_bus, hw, ← List.append_assoc] at hv
  exact ⟨_, hv⟩

theorem disableLine_disposed {q : Query} {y : U64} (hq : (s.line n).query = some q) (hy : y ∈ q.pending) :
    Disposed s (disableLine n s) y .done 2 := by
  have h := disrouted_disposed hq hy
  unfold Disposed Issued at h
  rw [← modLine_bus n (fun k => { k with enabled := false, state := .unconfigured, statusByte := 0, timeouts := 0 })] at h
  exact Issued.calm h (disableLine_calm n s)

/-! ### The order (R125) -/

theorem setPressLine_exec {x : U64} {w : SetLineBody} (s : State) :
    exec (.setPressLine x w) s = .next (afterTake (takeSetLine x w (markTaken x s))) := rfl

theorem applySetLine_disable {w : SetLineBody} (hn : lineOf w.line = n) (he : w.enable = false) (s : State) :
    applySetLine w s = if (s.line n).enabled = true then disableLine n s else s := by
  unfold applySetLine
  dsimp only
  rw [hn, he]
  cases (s.line n).enabled with
  | false => rw [if_neg Bool.false_ne_true]
  | true => rw [if_pos rfl]

theorem takeSetLine_disable {x : U64} {w : SetLineBody} (hn : w.line.toNat = n.val) (he : w.enable = false) (s : State) :
    takeSetLine x w s = finalDisposition x .done 0 (if (s.line n).enabled = true then disableLine n s else s) := by
  have hlt := n.isLt
  have hline : lineOf w.line = n := Fin.ext ((lineOf_val (by omega)).symm.trans hn)
  have hc : setLineCheck s w = none := by
    unfold setLineCheck
    dsimp only
    rw [if_neg (by omega), if_pos he]
  rw [takeSetLine, hc, ← applySetLine_disable hline he, he]
  rfl

/-- What a finished take leaves of what it has done. -/
theorem take_finished {x : U64} {d : Disposition} {k : Nat} (hb : ∃ w, t.bus = w ++ s.bus)
    (hc : s.order.completions.toNat ≤ t.order.completions.toNat) : Finished s (finalDisposition x d k t) x d k :=
  (finalDisposition_finished x d k t).before hb hc

theorem finalDisposition_cursor (x : U64) (d : Disposition) (k : Nat) (s : State) :
    (finalDisposition x d k s).order.cursor = s.order.cursor :=
  Calm.cursor (finalDisposition_calm (q := false) x d k (.refl s))

end Sys2Proof.Machine

namespace Sys2Proof.Delivery

open Sys2Proof Sys2Proof.Machine

/-- Settles O29: the steps of R128 in turn, each with what it leaves of the line, its records and its query. -/
theorem setLineDisables : Obligations.SetLineDisables := by
  unfold Obligations.SetLineDisables
  intro s x w n hn he
  refine ⟨fun hen hs => ?_, fun hen => ?_⟩
  · have ho : Outward s (finalDisposition x .done 0 (markTaken x s)) := (modOrder_outward _ s).trans (finalDisposition_outward _ _ _ _)
    have h : takeSetLine x w (markTaken x s) = finalDisposition x .done 0 (markTaken x s) := by
      rw [takeSetLine_disable hn he, if_neg (show ((markTaken x s).line n).enabled ≠ true from fun c =>
        Bool.false_ne_true (hen.symm.trans c))]
    refine ⟨finalDisposition x .done 0 (markTaken x s), ?_, take_finished ⟨[], rfl⟩ le_rfl, finalDisposition_cursor _ _ _ _, ho.eq⟩
    rw [setPressLine_exec, h, afterTake_outward ho hs]
  · have h : takeSetLine x w (markTaken x s) = finalDisposition x .done 0 (disableLine n (markTaken x s)) := by
      rw [takeSetLine_disable hn he, if_pos (show ((markTaken x s).line n).enabled = true from hen)]
    have ho := finalDisposition_outward x .done 0 (disableLine n (markTaken x s))
    obtain ⟨c, hline⟩ := disableLine_line_self n (markTaken x s)
    rw [← ho.line n] at hline
    refine ⟨finalDisposition x .done 0 (disableLine n (markTaken x s)), by rw [setPressLine_exec, h], ?_⟩
    rw [hline]
    refine ⟨rfl, rfl, rfl, rfl, rfl, rfl, rfl, rfl, rfl, rfl, fun i r hr hl => ?_, fun i r r' hr hl hf hr' => ?_,
      fun q hq y hy => ?_, ?_, ?_, fun m hm => ?_⟩
    · exact disableLine_noLive n (markTaken x s) i r (ho.rec? i ▸ hr) hl
    · obtain rfl := disableLine_lost (s := markTaken x s) hr hl hf ((ho.rec? i).symm.trans hr')
      exact ⟨rfl, rfl⟩
    · exact Issued.calm (disableLine_disposed (s := markTaken x s) hq hy) (finalDisposition_calm (q := false) x .done 0 (.refl _))
    · exact take_finished (disableLine_bus n (markTaken x s)) (disableLine_completions n (markTaken x s))
    · exact (finalDisposition_cursor _ _ _ _).trans (disableLine_cursor n _)
    · obtain ⟨_, _, hother⟩ := disableLine_line_ne hm (markTaken x s)
      rw [ho.line m, hother]
      exact ⟨rfl, rfl⟩

end Sys2Proof.Delivery
end

section
/-! SET PRESS LINE on an enabled line: when it is accepted, what it stores, and its steps in turn (R125, R127). -/

namespace Sys2Proof.Machine

variable {b s t u : State} {n m : LineId} {w : SetLineBody} {c : LineConfig} {i j : Nat} {r : DestRec}

/-! ### The checks (R125) -/

theorem linkOf_val {x : Byte} (h : x.toNat ≤ 3) : (linkOf x).val = x.toNat := by
  simp only [linkOf, Fin.val_ofNat]
  omega

theorem lineFieldsOk_of_inRange (h : LineInRange w) : lineFieldsOk w = true := by
  have halt : (match w.alternate with
      | some a => decide (a.toNat ≤ 63) && a != w.line
      | none => true) = true := by
    cases ha : w.alternate with
    | none => rfl
    | some a => simpa using h.alternate a ha
  have hhop : w.hops.all (fun x => decide (1 ≤ x.toNat) && decide (x.toNat ≤ 254)) = true := by
    simpa using h.hop
  unfold lineFieldsOk
  rw [hhop]
  simp only [h.primary, h.secondary, h.link, h.count, h.rollBit, h.sense, decide_true, Bool.and_true, Bool.true_and]
  exact halt

theorem cfgOf_configured (h : LineInRange w) : Configured (cfgOf w) w where
  primary := rfl
  secondary := rfl
  link := linkOf_val h.link
  path := rfl
  rollBit := by
    have hb := h.rollBit
    simp only [cfgOf, Fin.val_ofNat]
    omega
  sense := beq_iff_eq
  warnLead := rfl
  alternate := by
    show (w.alternate.map lineOf).map _ = _
    cases ha : w.alternate with
    | none => rfl
    | some x => exact congrArg some (lineOf_val (h.alternate x ha).1).symm
  extension := rfl

theorem addressTaken_of_free (hl : w.link.toNat ≤ 3) (h : AddressFree s n w) : addressTaken s n (cfgOf w) = false := by
  refine Bool.eq_false_iff.2 fun c => ?_
  obtain ⟨m, -, hm⟩ := List.any_eq_true.1 c
  simp only [Bool.and_eq_true, bne_iff_ne, beq_iff_eq] at hm
  obtain ⟨⟨⟨⟨hne, hen⟩, hlink⟩, hp⟩, hs⟩ := hm
  exact h m hne hen ⟨(congrArg Fin.val hlink).trans (linkOf_val hl), hp, hs⟩

theorem routeChanged_iff (hl : w.link.toNat ≤ 3) : routeChanged c (cfgOf w) = true ↔ RouteChanges c w := by
  have e : c.link ≠ linkOf w.link ↔ c.link.val ≠ w.link.toNat := by
    rw [← linkOf_val hl]
    exact not_congr Fin.ext_iff
  simp only [routeChanged, RouteChanges, Bool.or_eq_true, bne_iff_ne, cfgOf, e, or_assoc]

theorem lineBusy_iff : lineBusy s n = true ↔ LineBusy s n := by
  unfold lineBusy LineBusy
  rw [Bool.or_eq_true]
  refine or_congr ?_ ?_
  · simp only [List.any_eq_true, Bool.and_eq_true, Bool.or_eq_true, beq_iff_eq]
    exact ⟨fun ⟨⟨i, r⟩, he, hl, hs⟩ => ⟨i, r, he, hl, hs⟩, fun ⟨i, r, he, hl, hs⟩ => ⟨(i, r), he, hl, hs⟩⟩
  · cases (s.line n).slot with
    | none => simp
    | some sl => simp

theorem setLineCheck_accepts (hn : w.line.toNat = n.val) (hr : LineInRange w) (ha : AddressFree s n w)
    (hb : RouteChanges (s.line n).cfg w → ¬ LineBusy s n) : setLineCheck s w = none := by
  have hlt := n.isLt
  have hline : lineOf w.line = n := Fin.ext ((lineOf_val (by omega)).symm.trans hn)
  have hbusy : ((s.line n).enabled && routeChanged (s.line n).cfg (cfgOf w) && lineBusy s n) = false := by
    refine Bool.eq_false_iff.2 fun c => ?_
    simp only [Bool.and_eq_true] at c
    exact hb ((routeChanged_iff hr.link).1 c.1.2) (lineBusy_iff.1 c.2)
  unfold setLineCheck
  dsimp only
  rw [hline, addressTaken_of_free hr.link ha, lineFieldsOk_of_inRange hr, hbusy, if_neg (by omega)]
  simp

theorem lineClamped_eq (w : SetLineBody) : (if lineClamped w then Disposition.adjusted else .done) =
    if w.warnLead.toNat ≤ 3600000 ∧ w.extension.toNat ≤ 3600000 then .done else .adjusted := by
  have h : lineClamped w = true ↔ ¬ (w.warnLead.toNat ≤ 3600000 ∧ w.extension.toNat ≤ 3600000) := by
    unfold lineClamped leadMax
    rw [Bool.or_eq_true, decide_eq_true_eq, decide_eq_true_eq]
    omega
  by_cases e : w.warnLead.toNat ≤ 3600000 ∧ w.extension.toNat ≤ 3600000
  · rw [if_pos e, if_neg fun c => h.1 c e]
  · rw [if_neg e, if_pos (h.2 e)]

/-- An accepted SET PRESS LINE of an enabled line. -/
theorem takeSetLine_reconfigure {x : U64} (hn : w.line.toNat = n.val) (he : w.enable = true) (hen : (s.line n).enabled = true)
    (hc : setLineCheck s w = none) : takeSetLine x w s = finalDisposition x
      (if w.warnLead.toNat ≤ 3600000 ∧ w.extension.toNat ≤ 3600000 then .done else .adjusted) 0 (reconfigureLine n (cfgOf w) s) := by
  have hlt := n.isLt
  have hline : lineOf w.line = n := Fin.ext ((lineOf_val (by omega)).symm.trans hn)
  have hap : applySetLine w s = reconfigureLine n (cfgOf w) s := by
    unfold applySetLine
    dsimp only
    rw [hline, he, hen]
  rw [takeSetLine, hc, hap, he, Bool.true_and, lineClamped_eq]

/-! ### The steps of R127 -/

/-- The line has its new configuration. -/
def configure (n : LineId) (c : LineConfig) (s : State) : State := s.modLine n fun k => { k with cfg := c }

/-- Step 2 of R127, where the route changes. -/
def routed (n : LineId) (c : LineConfig) (s : State) : State :=
  if routeChanged (s.line n).cfg c then reroute n c.link (configure n c s) else configure n c s

/-- Steps 3 and 4 of R127, each where it applies. -/
def relinked (n : LineId) (c : LineConfig) (s : State) : State :=
  if (s.line n).cfg.link ≠ c.link then moveLink n (s.line n).cfg.link c.link (routed n c s) else routed n c s

def repathed (n : LineId) (c : LineConfig) (s : State) : State :=
  if (s.line n).cfg.path ≠ c.path then repath n (relinked n c s) else relinked n c s

theorem reconfigureLine_eq (n : LineId) (c : LineConfig) (s : State) : reconfigureLine n c s =
    if (s.line n).cfg.warnLead ≠ c.warnLead then retime n c.warnLead (repathed n c s) else repathed n c s := by
  unfold reconfigureLine repathed relinked routed configure
  rfl

theorem repathed_calm (n : LineId) (c : LineConfig) (s : State) : Calm true (routed n c s) (repathed n c s) := by
  have h1 : Calm true (routed n c s) (relinked n c s) :=
    ite_calm (moveLink_calm n _ c.link (.refl _)) (.refl _)
  exact ite_calm (repath_calm n h1) h1

theorem reconfigured_calm (n : LineId) (c : LineConfig) (s : State) : Calm true (routed n c s) (reconfigureLine n c s) := by
  rw [reconfigureLine_eq]
  exact ite_calm (retime_calm n c.warnLead (repathed_calm n c s)) (repathed_calm n c s)

/-! ### Step 2: the query and the state (R127, R159) -/

theorem setLineState_line (n m : LineId) (st : LineState) (s : State) : ∃ z k, (setLineState n st s).line m =
    if m = n then { s.line n with state := st, requery := z, changeCount := k } else s.line m := by
  obtain ⟨z, k, h⟩ := changeLine_line n m (fun k => { k with state := st }) s
  exact ⟨z, k, by rw [setLineState, (raiseIfChanged_outward _ _ _).line, h]⟩

theorem askQuery_line (n m : LineId) (s : State) : ∃ z, (askQuery n s).line m = if m = n then { s.line n with
    query := (if (s.line n).query = none ∧ s.isUp (s.linkOf n) = true then some ⟨500, []⟩ else (s.line n).query)
    requery := z } else s.line m := by
  unfold askQuery sendQuery
  split
  · rw [(offer_still _ _ (.refl _)).line, State.line_modLine]
    exact ⟨none, rfl⟩
  · refine ⟨(s.line n).requery, ?_⟩
    split
    · next e => rw [e]
    · rfl

theorem configure_line (n m : LineId) (c : LineConfig) (s : State) :
    (configure n c s).line m = if m = n then { s.line n with cfg := c } else s.line m := State.line_modLine _ _ _ _

theorem Calm.isUp {q : Bool} (h : Calm q s t) (l : LinkId) : t.isUp l = s.isUp l := by
  unfold State.isUp
  rw [(h.linkKeeps l).state]

theorem Calm.linkOf {q : Bool} (h : Calm q s t) (n : LineId) : t.linkOf n = s.linkOf n := by
  unfold State.linkOf
  rw [(h.lineKeeps n).cfg]

/-- The state that the line takes from its route, and the query that asks for it (R127). -/
theorem reroute_line (n m : LineId) (l : LinkId) (s : State) (hl : s.linkOf n = l) : ∃ z k, (reroute n l s).line m = if m = n then
    { s.line n with state := routeState s l, query := (if s.isUp l = true then some ⟨500, []⟩ else none), requery := z, changeCount := k }
    else s.line m := by
  have k : Calm false s (setLineState n (routeState s l) (endQuery n s)) := setLineState_calm n _ (endQuery_calm n (.refl s))
  obtain ⟨z, h1⟩ := askQuery_line n m (setLineState n (routeState s l) (endQuery n s))
  obtain ⟨y, v, h2⟩ := setLineState_line n n (routeState s l) (endQuery n s)
  obtain ⟨y', v', h2'⟩ := setLineState_line n m (routeState s l) (endQuery n s)
  rw [if_pos rfl, endQuery_line, if_pos rfl] at h2
  rw [k.isUp, k.linkOf, hl, h2] at h1
  refine ⟨z, v, h1.trans ?_⟩
  by_cases e : m = n
  · rw [if_pos e, if_pos e]
    by_cases hu : s.isUp l = true
    · rw [if_pos ⟨rfl, hu⟩, if_pos hu]
    · rw [if_neg fun c => hu c.2, if_neg hu]
  · rw [if_neg e, if_neg e, h2', if_neg e, endQuery_line, if_neg e]

theorem reroute_disposed {q : Query} {y : U64} {l : LinkId} (hq : (s.line n).query = some q) (hy : y ∈ q.pending) :
    Disposed s (reroute n l s) y .done 2 :=
  Issued.calm (endQuery_disposed hq hy) (askQuery_calm n (setLineState_calm n _ (Calm.refl (q := false) (endQuery n s))))

theorem routed_same (h : routeChanged (s.line n).cfg c = false) : routed n c s = configure n c s := by rw [routed, h]; rfl

theorem routed_changed (h : routeChanged (s.line n).cfg c = true) : routed n c s = reroute n c.link (configure n c s) := if_pos h

theorem configure_linkOf (n : LineId) (c : LineConfig) (s : State) : (configure n c s).linkOf n = c.link := by
  unfold State.linkOf
  rw [configure_line, if_pos rfl]

theorem routed_line_of_change (h : routeChanged (s.line n).cfg c = true) : ∃ z k, (routed n c s).line n = { s.line n with
    cfg := c, state := routeState s c.link, query := (if s.isUp c.link = true then some ⟨500, []⟩ else none),
    requery := z, changeCount := k } := by
  obtain ⟨z, k, e⟩ := reroute_line n n c.link (configure n c s) (configure_linkOf n c s)
  rw [if_pos rfl, configure_line, if_pos rfl] at e
  exact ⟨z, k, by rw [routed_changed h, e]; rfl⟩

/-- After a change of route the line is not READY. -/
theorem routed_unready (h : routeChanged (s.line n).cfg c = true) : ((routed n c s).line n).state ≠ .ready := by
  obtain ⟨z, k, e⟩ := routed_line_of_change h
  rw [e]
  unfold routeState
  dsimp only
  split <;> exact nofun

/-! ### What an accepted order leaves in any case -/

theorem routed_calm (n : LineId) (c : LineConfig) (s : State) : Calm false (configure n c s) (routed n c s) :=
  ite_calm (reroute_calm n c.link (.refl _)) (.refl _)

theorem reconfigureLine_cursor (n : LineId) (c : LineConfig) (s : State) : (reconfigureLine n c s).order.cursor = s.order.cursor :=
  (reconfigureLine_calm n c s).cursor

theorem reconfigureLine_finished {x : U64} {d : Disposition} {k : Nat} (n : LineId) (c : LineConfig) (s : State) :
    Finished s (finalDisposition x d k (reconfigureLine n c s)) x d k :=
  take_finished (t := reconfigureLine n c s) (reconfigureLine_calm n c s).bus (reconfigureLine_calm n c s).orderKeeps.completions

end Sys2Proof.Machine
end

section
/-! What a new route leaves: the tables, the queues and the counters (R127 step 2); what the prices of transfers rest on (R70, R71, R56). -/

namespace Sys2Proof.Machine

variable {a : Aim} {b s t u : State} {n m : LineId} {c : LineConfig} {i j : Nat} {r r' : DestRec} {l : LinkId} {x : Xfer} {g : U16}

/-! ### Offers change their link alone (R143) -/

theorem offer_links (l : LinkId) (f : CtlFrame) (s : State) : offer l f s = { s with links := (offer l f s).links } := by
  unfold offer
  split
  · generalize ht : (s.modLink l fun k => { k with control := joinControl f k.control }) = t
    have hs : t = { s with links := t.links } := by rw [← ht]; rfl
    have hc : (t.link l).control ≠ [] := by rw [← ht, State.link_modLink_self]; exact joinControl_ne_nil _ _
    have hk : kick l t = { t with links := (kick l t).links } := by
      by_cases hb : (t.link l).state ≠ .up ∨ (t.link l).wire ≠ none
      · rw [kick_busy hb]
      · obtain ⟨hu, hw⟩ := not_or.1 hb
        obtain ⟨d, ds, hd⟩ := List.exists_cons_of_ne_nil hc
        rw [kick_control (not_not.1 hu) (not_not.1 hw) hd]
        rfl
    rw [hk, hs]
  · rfl

theorem offer_counters (l : LinkId) (f : CtlFrame) (s : State) : (offer l f s).counters = s.counters := by rw [offer_links]

/-! ### What re-routing a line leaves (R127 step 2) -/

/-- All that the press-line table and the poll unit have no part in is as it was. -/
structure Repolled (s t : State) : Prop where
  recs : t.recs = s.recs
  pages : t.pages = s.pages
  deadlines : t.deadlines = s.deadlines
  clock : t.clock = s.clock
  seqNext : t.seqNext = s.seqNext
  counters : t.counters = s.counters
  line : ∀ m, ∃ st q z k, t.line m = { s.line m with state := st, query := q, requery := z, changeCount := k }
  link : ∀ l, LinkStays (s.link l) (t.link l)

theorem Repolled.refl (s : State) : Repolled s s := ⟨rfl, rfl, rfl, rfl, rfl, rfl, fun _ => ⟨_, _, _, _, rfl⟩, fun _ => .refl _⟩

theorem Repolled.trans (h : Repolled s t) (k : Repolled t u) : Repolled s u where
  recs := k.recs.trans h.recs
  pages := k.pages.trans h.pages
  deadlines := k.deadlines.trans h.deadlines
  clock := k.clock.trans h.clock
  seqNext := k.seqNext.trans h.seqNext
  counters := k.counters.trans h.counters
  line m := by
    obtain ⟨st, q, z, v, e⟩ := h.line m
    obtain ⟨st', q', z', v', e'⟩ := k.line m
    exact ⟨st', q', z', v', by rw [e', e]⟩
  link l := (h.link l).trans (k.link l)

theorem Repolled.rec? (h : Repolled s t) (i : Nat) : t.rec? i = s.rec? i := by unfold State.rec?; rw [h.recs]

theorem Repolled.slot (h : Repolled s t) (m : LineId) : (t.line m).slot = (s.line m).slot := by
  obtain ⟨st, q, z, v, e⟩ := h.line m; rw [e]

theorem Outward.repolled (h : Outward s t) : Repolled s t := by
  obtain ⟨o, w, rfl⟩ := h
  exact ⟨rfl, rfl, rfl, rfl, rfl, rfl, fun _ => ⟨_, _, _, _, rfl⟩, fun _ => .refl _⟩

theorem modLine_repolled {f : Line → Line}
    (hf : ∃ st q z k, f (s.line n) = { s.line n with state := st, query := q, requery := z, changeCount := k }) :
    Repolled s (s.modLine n f) := by
  refine ⟨rfl, rfl, rfl, rfl, rfl, rfl, fun m => ?_, fun _ => .refl _⟩
  rw [State.line_modLine]
  split
  · next e => subst e; exact hf
  · exact ⟨_, _, _, _, rfl⟩

theorem finishOrders_outward (d : PollDetail) (ys : List U64) (s : State) : Outward s (finishOrders d ys s) :=
  foldl_induct (P := fun t => Outward s t) ys (fun _ y _ h => h.trans (finalDisposition_outward y _ _ _)) (.refl s)

theorem dropControl_counters (p : CtlFrame → Bool) (s : State) : (dropControl p s).counters = s.counters :=
  foldl_induct (P := fun t => t.counters = s.counters) allLinks (fun _ _ _ h => h) rfl

theorem clearQuery_repolled (n : LineId) (s : State) : Repolled s (clearQuery n s) := by
  have k := dropControl_still (isQuery n) (.refl (s.modLine n fun k => { k with query := none }))
  have h : Repolled (s.modLine n fun k => { k with query := none }) (dropControl (isQuery n) (s.modLine n fun k => { k with query := none })) :=
    ⟨k.recs, k.pages, k.deadlines, k.clock, k.seqNext, dropControl_counters _ _, fun m => ⟨_, _, _, _, k.line m⟩, k.links⟩
  unfold clearQuery releaseHold
  exact (modLine_repolled ⟨_, _, _, _, rfl⟩).trans (h.trans (modOrder_outward _ _).repolled)

theorem endQuery_repolled (n : LineId) (s : State) : Repolled s (endQuery n s) := by
  unfold endQuery
  split
  · exact (clearQuery_repolled n s).trans (finishOrders_outward _ _ _).repolled
  · exact .refl s

theorem setLineState_repolled (n : LineId) (st : LineState) (s : State) : Repolled s (setLineState n st s) := by
  refine Repolled.trans ?_ (raiseIfChanged_outward _ _ _).repolled
  have hf := settleLine_frame (s.line n) n (s.modLine n fun k => { k with state := st })
  have hl : ∀ m, ∃ z k, (changeLine n (fun k => { k with state := st }) s).line m = _ := fun m =>
    changeLine_line n m (fun k => { k with state := st }) s
  unfold changeLine at hl ⊢
  refine ⟨by rw [hf]; rfl, by rw [hf]; rfl, by rw [hf]; rfl, by rw [hf]; rfl, by rw [hf]; rfl, by rw [hf]; rfl, fun m => ?_,
    fun l => by rw [hf]; exact .refl _⟩
  obtain ⟨z, k, e⟩ := hl m
  rw [e]
  split
  · next e => subst e; exact ⟨_, _, _, _, rfl⟩
  · exact ⟨_, _, _, _, rfl⟩

theorem askQuery_repolled (n : LineId) (s : State) : Repolled s (askQuery n s) := by
  unfold askQuery sendQuery
  split
  · have k := offer_still (s.linkOf n) (.query n) (.refl (s.modLine n fun k =>
      { k with query := some ⟨Config.queryMs, []⟩, requery := none }))
    exact (modLine_repolled ⟨_, _, _, _, rfl⟩).trans
      ⟨k.recs, k.pages, k.deadlines, k.clock, k.seqNext, offer_counters _ _ _, fun m => ⟨_, _, _, _, k.line m⟩, k.links⟩
  · exact .refl s

theorem reroute_repolled (n : LineId) (l : LinkId) (s : State) : Repolled s (reroute n l s) :=
  (endQuery_repolled n s).trans ((setLineState_repolled n _ _).trans (askQuery_repolled n _))

theorem routed_repolled (n : LineId) (c : LineConfig) (s : State) : Repolled (configure n c s) (routed n c s) := by
  unfold routed
  split
  · exact reroute_repolled n c.link _
  · exact .refl _

theorem routed_rec (n : LineId) (c : LineConfig) (s : State) (i : Nat) : (routed n c s).rec? i = s.rec? i :=
  (routed_repolled n c s).rec? i

theorem routed_recs (n : LineId) (c : LineConfig) (s : State) : (routed n c s).recs = s.recs := (routed_repolled n c s).recs

theorem routed_link (n : LineId) (c : LineConfig) (s : State) (l : LinkId) : LinkStays (s.link l) ((routed n c s).link l) :=
  (routed_repolled n c s).link l

/-! ### What a price rests on (R70, R71) -/

/-- The pages, the configurations, the catalogs and the links' rates and guards are as they were. -/
structure Priced (s t : State) : Prop where
  pages : t.pages = s.pages
  cfg : ∀ n, (t.line n).cfg = (s.line n).cfg
  catalog : ∀ n, (t.line n).catalog = (s.line n).catalog
  rate : ∀ l, (t.link l).rate = (s.link l).rate
  guard : ∀ l, (t.link l).guardMs = (s.link l).guardMs

theorem Priced.refl (s : State) : Priced s s := ⟨rfl, fun _ => rfl, fun _ => rfl, fun _ => rfl, fun _ => rfl⟩

theorem Priced.trans (h : Priced s t) (k : Priced t u) : Priced s u :=
  ⟨k.pages.trans h.pages, fun n => (k.cfg n).trans (h.cfg n), fun n => (k.catalog n).trans (h.catalog n),
    fun l => (k.rate l).trans (h.rate l), fun l => (k.guard l).trans (h.guard l)⟩

theorem Priced.page? (h : Priced s t) (n : Nat) : t.page? n = s.page? n := by unfold State.page?; rw [h.pages]

theorem Priced.recGen (h : Priced s t) (hp : r'.parent = r.parent) : t.recGen r' = s.recGen r := by
  unfold State.recGen; rw [hp, h.page?]

theorem Priced.recLatestStart (h : Priced s t) (hp : r'.parent = r.parent) (hl : r'.line = r.line) (hd : r'.deadline = r.deadline)
    (ha : r'.acked = r.acked) (hs : r'.state = r.state) : recLatestStart t r' = recLatestStart s r := by
  have ht : targetBytes t r' = targetBytes s r := by
    unfold targetBytes Line.entry
    rw [hs, hl, h.catalog, h.recGen hp]
  unfold Machine.recLatestStart
  rw [hp, h.page?]
  dsimp only
  rw [ht, hl, hd, ha, h.cfg, h.rate, h.guard]

/-- A run that is not aimed at a line's own fields, and is calm, leaves the prices. -/
theorem Acts.priced {q : Bool} (h : Acts a s t) (hl : ∀ n, ¬ a.line n) (k : Calm q s t) : Priced s t where
  pages := h.frame.pages
  cfg n := (h.frame.setup n).2
  catalog n := by rw [h.frame.line n (hl n)]
  rate l := (k.linkKeeps l).rate
  guard l := (k.linkKeeps l).guardMs

end Sys2Proof.Machine
end

section
/-! The keys of a line's transfers computed anew, and its transfers moved from one link's queue to another's (R72, R89). -/

namespace Sys2Proof.Machine

variable {a : Aim} {b s t u : State} {n m : LineId} {i j : Nat} {r r' : DestRec} {l old new : LinkId} {x y : Xfer} {sl : Slot}

/-! ### L anew (R72, R89) -/

/-- A record in QUEUED or in TARGET_WAIT, whose L the scheduler keeps. -/
abbrev DestRec.waits (r : DestRec) : Prop := r.state = .queued ∨ r.state = .targetWait

/-- A record with its L as its inputs give it. -/
def DestRec.repriced (s : State) (r : DestRec) : DestRec := if r.waits then { r with latestStart := recLatestStart s r } else r

theorem mem_recsOf (hr : s.rec? i = some r) (hl : r.line = n) : i ∈ s.recsOf n :=
  List.mem_map.2 ⟨(i, r), List.mem_filter.2 ⟨Table.mem_of_get hr, beq_iff_eq.2 hl⟩, rfl⟩

theorem mem_waitingRecs (hr : s.rec? i = some r) (hl : r.line = n) : i ∈ waitingRecs s n ↔ r.waits := by
  unfold waitingRecs
  rw [List.mem_filter, hr]
  dsimp only
  rw [Bool.or_eq_true, beq_iff_eq, beq_iff_eq]
  exact and_iff_right (mem_recsOf hr hl)

theorem updateL_rec_ne (h : i ≠ j) (s : State) : (updateL j s).rec? i = s.rec? i := by
  unfold updateL
  split
  · rfl
  · rw [rec_modRec, if_neg h]

theorem updateL_only (j : Nat) (s : State) : updateL j s = { s with recs := (updateL j s).recs } := by
  unfold updateL
  split <;> rfl

theorem updateL_priced (j : Nat) (s : State) : Priced s (updateL j s) := by
  rw [updateL_only]
  exact ⟨rfl, fun _ => rfl, fun _ => rfl, fun _ => rfl, fun _ => rfl⟩

theorem foldl_updateL_only (js : List Nat) (s : State) :
    js.foldl (fun s i => updateL i s) s = { s with recs := (js.foldl (fun s i => updateL i s) s).recs } :=
  foldl_induct (P := fun t => t = { s with recs := t.recs }) js (fun t j _ h => by rw [updateL_only, h]) rfl

/-- A run over records that computes the L of each anew and leaves what prices rest on. -/
theorem foldl_reprices {f : State → Nat → State} (hp : ∀ s j, Priced s (f s j)) (ho : ∀ s i j, i ≠ j → (f s j).rec? i = s.rec? i)
    (hh : ∀ s i r, s.rec? i = some r → (f s i).rec? i = some { r with latestStart := recLatestStart s r }) {js : List Nat}
    (hi : i ∈ js) (hr : s.rec? i = some r) : (js.foldl f s).rec? i = some { r with latestStart := recLatestStart s r } := by
  have here : ∀ (t : State) (v : Nat), Priced s t → t.rec? i = some { r with latestStart := v } →
      (f t i).rec? i = some { r with latestStart := recLatestStart s r } := fun t v h hv => by
    rw [hh t i _ hv]
    exact congrArg some (congrArg (fun v => { r with latestStart := v }) (h.recLatestStart rfl rfl rfl rfl rfl))
  refine (foldl_reaches (P := fun t => Priced s t ∧ t.rec? i = some r)
    (Q := fun t => Priced s t ∧ t.rec? i = some { r with latestStart := recLatestStart s r }) js hi
    (fun t j hj h => ⟨h.1.trans (hp t j), (ho t i j hj.symm).trans h.2⟩)
    (fun t h => ⟨h.1.trans (hp t i), here t r.latestStart h.1 h.2⟩)
    (fun t j h => ⟨h.1.trans (hp t j), ?_⟩) ⟨.refl s, hr⟩).2
  by_cases e : i = j
  · subst e; exact here t _ h.1 h.2
  · rw [ho t i j e, h.2]

theorem foldl_updateL_rec_mem {js : List Nat} (hi : i ∈ js) (hr : s.rec? i = some r) :
    (js.foldl (fun s i => updateL i s) s).rec? i = some { r with latestStart := recLatestStart s r } :=
  foldl_reprices (fun s j => updateL_priced j s) (fun s _ _ h => updateL_rec_ne h s) (fun _ _ _ h => updateL_rec h) hi hr

theorem foldl_updateL_rec_not_mem {js : List Nat} (hi : i ∉ js) (s : State) :
    (js.foldl (fun s i => updateL i s) s).rec? i = s.rec? i :=
  foldl_induct (P := fun t => t.rec? i = s.rec? i) js (fun t j hj h => (updateL_rec_ne (fun e => hi (by rw [e]; exact hj)) t).trans h) rfl

/-- The first two steps of a change of link: every L of the line anew, and the keys of its slot (R89). -/
def rekeyed (n : LineId) (s : State) : State := recomputeSlot n ((waitingRecs s n).foldl (fun s i => updateL i s) s)

theorem recomputeSlot_only (n : LineId) (s : State) : recomputeSlot n s = { s with lines := (recomputeSlot n s).lines } := by
  unfold recomputeSlot
  split <;> rfl

theorem rekeyed_only (n : LineId) (s : State) :
    rekeyed n s = { s with recs := (rekeyed n s).recs, lines := (rekeyed n s).lines } := by
  unfold rekeyed
  rw [recomputeSlot_only, foldl_updateL_only]

theorem rekeyed_link (n : LineId) (s : State) (l : LinkId) : (rekeyed n s).link l = s.link l := by rw [rekeyed_only]; rfl

theorem rekeyed_recs (n : LineId) (s : State) : (rekeyed n s).recs = ((waitingRecs s n).foldl (fun s i => updateL i s) s).recs := by
  unfold rekeyed
  rw [recomputeSlot_only]

theorem rekeyed_rec (hr : s.rec? i = some r) (hl : r.line = n) : (rekeyed n s).rec? i = some (r.repriced s) := by
  unfold State.rec?
  rw [rekeyed_recs]
  show (List.foldl _ s _).rec? i = _
  unfold DestRec.repriced
  split
  · next h => exact foldl_updateL_rec_mem ((mem_waitingRecs hr hl).2 h) hr
  · next h => rw [foldl_updateL_rec_not_mem (fun c => h ((mem_waitingRecs hr hl).1 c)), hr]

theorem recomputeSlot_slot (n m : LineId) (s : State) : ((recomputeSlot n s).line m).slot = if m = n then (s.line n).slot.map fun sl =>
    { sl with latestStart := slotLatestStart s n sl.generation, urgent := slotUrgent s n sl.generation } else (s.line m).slot := by
  unfold recomputeSlot
  split
  · next h =>
    split
    · next e => rw [e, h]; rfl
    · rfl
  · next sl h =>
    rw [modSlot_slot, h]
    rfl

theorem recomputeSlot_line (n m : LineId) (s : State) : ∃ z, (recomputeSlot n s).line m = { s.line m with slot := z } := by
  unfold recomputeSlot
  split
  · exact ⟨_, rfl⟩
  · unfold State.modSlot
    rw [State.line_modLine]
    split
    · next e => subst e; exact ⟨_, rfl⟩
    · exact ⟨_, rfl⟩

theorem rekeyed_line (n m : LineId) (s : State) : ∃ z, (rekeyed n s).line m = { s.line m with slot := z } := by
  obtain ⟨z, h⟩ := recomputeSlot_line n m ((waitingRecs s n).foldl (fun s i => updateL i s) s)
  refine ⟨z, h.trans ?_⟩
  rw [foldl_updateL_only]
  rfl

theorem rekeyed_priced (n : LineId) (s : State) : Priced s (rekeyed n s) := by
  have hl := fun m => rekeyed_line n m s
  refine ⟨by rw [rekeyed_only], fun m => ?_, fun m => ?_, fun l => by rw [rekeyed_link], fun l => by rw [rekeyed_link]⟩
  · obtain ⟨z, e⟩ := hl m
    rw [e]
  · obtain ⟨z, e⟩ := hl m
    rw [e]

/-! ### Joins, record by record (R75) -/

theorem setSeq_rec (x : Xfer) (q : Nat) (hr : s.rec? i = some r) : ∃ v, (setSeq x q s).rec? i = some { r with seq := v } := by
  cases x with
  | slot n => exact ⟨r.seq, hr⟩
  | dest k =>
    by_cases e : i = k
    · subst e; exact ⟨q, rec_modRec_self (fun r => { r with seq := q }) hr⟩
    · exact ⟨r.seq, (rec_modRec s k i _).trans ((if_neg e).trans hr)⟩

theorem joinQueue_rec_seq (l : LinkId) (x : Xfer) (hr : s.rec? i = some r) :
    ∃ v, (joinQueue l x s).rec? i = some { r with seq := v } := by
  have hroom : ∃ v, (roomForSeq s).rec? i = some { r with seq := v } := by
    unfold roomForSeq
    split
    · exact renumberFrom_rec 0 _ hr
    · exact ⟨r.seq, hr⟩
  obtain ⟨v, hv⟩ := hroom
  obtain ⟨v', hv'⟩ := setSeq_rec x (roomForSeq s).seqNext hv
  refine ⟨v', ?_⟩
  rw [joinQueue_eq, (schedMirror_still l (countLate_still _ _)).rec?]
  exact hv'

theorem moveXfer_rec (old new : LinkId) (x : Xfer) (hr : s.rec? i = some r) :
    ∃ v, (moveXfer old new s x).rec? i = some { r with seq := v } :=
  joinQueue_rec_seq new x ((leaveQueue_rec old x i s).trans hr)

theorem foldl_moveXfer_rec (old new : LinkId) (xs : List Xfer) (hr : s.rec? i = some r) :
    ∃ v, (xs.foldl (moveXfer old new) s).rec? i = some { r with seq := v } :=
  foldl_induct (P := fun t => ∃ v, t.rec? i = some { r with seq := v }) xs (fun _ x _ h => by
    obtain ⟨v, h⟩ := h
    obtain ⟨v', h'⟩ := moveXfer_rec old new x h
    exact ⟨v', h'⟩) ⟨r.seq, hr⟩

/-! ### A line that is not READY and is examined anew -/

/-- Aimed at the slot of a line and its keys alone. -/
def examining (n : LineId) : Aim where
  xfer x := x = .slot n
  line _ := False
  keys m := m = n
  frames := False

theorem reexamine_examining (n : LineId) (s : State) : Acts (examining n) s (reexamine n s) :=
  reexamine_acts n rfl (fun _ => rfl) (.inl trivial) (.refl s)

theorem pick_examining (n : LineId) (l : LinkId) (s : State) : Acts (examining n) s (pick l s) := pick_acts l (.refl s)

theorem unready_unpickable (ha : ¬ a.line n) (h : (s.line n).state ≠ .ready) (hx : xferLine s x = some n) : Unpickable a s x :=
  .inr fun _ hm => Option.some.inj (hx.symm.trans hm) ▸ ⟨h, ha⟩

theorem xferLine_dest (hr : s.rec? i = some r) : xferLine s (.dest i) = some r.line := congrArg (Option.map DestRec.line) hr

/-- A record of a line that is not READY keeps all but its sequence when the line is examined anew. -/
theorem reexamine_rec_unready (m : LineId) (hr : s.rec? i = some r) (h : (s.line r.line).state ≠ .ready) :
    ∃ v, (reexamine m s).rec? i = some { r with seq := v } := by
  obtain ⟨v, _, e⟩ := (reexamine_examining m s).dest_kept (nofun : ¬ (examining m).xfer (.dest i))
    (unready_unpickable id h (xferLine_dest hr)) hr
  exact ⟨v, e⟩

/-- The line's transfers moved one by one (R89). -/
def shifted (n : LineId) (old new : LinkId) (s : State) : State := (movers s old n).foldl (moveXfer old new) s

theorem moveQueues_eq (n : LineId) (old new : LinkId) (s : State) :
    moveQueues n old new s = pick new (reexamine n (shifted n old new (rekeyed n s))) := by
  unfold moveQueues shifted rekeyed
  rfl

theorem shifted_calm {q : Bool} (n : LineId) (old new : LinkId) (s : State) : Calm q s (shifted n old new s) :=
  foldl_calm _ (fun _ x h => moveXfer_calm _ _ x h) _ (.refl _)

theorem Calm.unready (h : Calm true s t) (k : (s.line n).state ≠ .ready) : (t.line n).state ≠ .ready := by
  rw [((h.lineKeeps n).still rfl).state]
  exact k

theorem rekeyed_unready (h : (s.line n).state ≠ .ready) : ((rekeyed n s).line n).state ≠ .ready := by
  obtain ⟨z, e⟩ := rekeyed_line n n s
  rw [e]
  exact h

theorem DestRec.repriced_line (s : State) (r : DestRec) : (r.repriced s).line = r.line := by
  unfold DestRec.repriced
  split <;> rfl

/-- What the queues' part of a change of link makes of a record of the line: its L is computed anew, its sequence may move. -/
theorem moveQueues_rec (old new : LinkId) (hr : s.rec? i = some r) (hl : r.line = n) (h : (s.line n).state ≠ .ready) :
    ∃ v, (moveQueues n old new s).rec? i = some { r.repriced s with seq := v } := by
  have hline : (r.repriced s).line = n := (r.repriced_line s).trans hl
  have k1 := (shifted_calm n old new (rekeyed n s)).unready (rekeyed_unready h)
  obtain ⟨v1, h1⟩ : ∃ v, (shifted n old new (rekeyed n s)).rec? i = some { r.repriced s with seq := v } :=
    foldl_moveXfer_rec old new _ (rekeyed_rec hr hl)
  rw [moveQueues_eq]
  generalize shifted n old new (rekeyed n s) = t at h1 k1
  obtain ⟨v2, h2⟩ := reexamine_rec_unready n h1 (by rw [hline]; exact k1)
  have k2 : ((reexamine n t).line n).state ≠ .ready := Calm.unready (reexamine_calm n (Calm.refl t)) k1
  exact ⟨v2, pick_rec_unready new h2 (by rw [hline]; exact k2)⟩

end Sys2Proof.Machine
end

section
/-! The deadline list through a SET PRESS LINE: a new warn lead re-times the line's WARN entries (R106). -/

namespace Sys2Proof.Machine

variable {a : Aim} {b s t u : State} {n m : LineId} {c : LineConfig} {i j : Nat} {r r' : DestRec} {l old new : LinkId} {x : Xfer}

/-! ### The scheduler leaves the deadline list -/

theorem joinQueue_deadlines (l : LinkId) (x : Xfer) (s : State) : (joinQueue l x s).deadlines = s.deadlines := by
  have hset : ∀ (y : Xfer) (q : Nat) (s : State), (setSeq y q s).deadlines = s.deadlines := fun y q s => by cases y <;> rfl
  have hren : ∀ (xs : List Xfer) (q : Nat) (s : State), (renumberFrom q xs s).deadlines = s.deadlines := by
    intro xs
    induction xs with
    | nil => exact fun _ _ => rfl
    | cons y ys ih => exact fun q s => (ih (q + 1) (setSeq y q s)).trans (hset y q s)
  have hroom : (roomForSeq s).deadlines = s.deadlines := by
    unfold roomForSeq
    split
    · exact hren _ 0 s
    · rfl
  rw [joinQueue_eq, (schedMirror_still l (countLate_still _ _)).deadlines]
  exact (hset x _ _).trans hroom

theorem leaveQueue_deadlines (l : LinkId) (x : Xfer) (s : State) : (leaveQueue l x s).deadlines = s.deadlines := by
  unfold leaveQueue
  split
  · exact (schedMirror_still l (.refl _)).deadlines
  · rfl

theorem moveInQueue_still (l : LinkId) (x : Xfer) (s : State) : ∃ f, Still (s.modLink l f) (moveInQueue l x s) := by
  unfold moveInQueue
  split
  · exact ⟨_, schedMirror_still l (.refl _)⟩
  · refine ⟨id, ?_⟩
    have e : s.modLink l id = s := by
      unfold State.modLink
      simp
    rw [e]
    exact .refl s

theorem shifted_deadlines (n : LineId) (old new : LinkId) (s : State) : (shifted n old new s).deadlines = s.deadlines :=
  foldl_induct (P := fun t => t.deadlines = s.deadlines) _
    (fun t x _ h => (joinQueue_deadlines new x _).trans ((leaveQueue_deadlines old x t).trans h)) rfl

/-! ### A record that is not DELIVERED, with its entries in the deadline list -/

/-- A record of a line that is not DELIVERED, with its deadline and its entries in the deadline list. -/
structure Timed (i : Nat) (n : LineId) (due : Nat) (ds : List DeadlineEntry) (t : State) : Prop where
  record : ∃ r, t.rec? i = some r ∧ r.line = n ∧ r.deadline = due ∧ r.state ≠ .delivered
  entries : t.deadlines.filter (fun e => e.dest == i) = ds

section

variable {due : Nat} {ds : List DeadlineEntry}

theorem Timed.of_same (h : Timed i n due ds s) (hr : t.recs = s.recs) (hd : t.deadlines = s.deadlines) : Timed i n due ds t :=
  ⟨by unfold State.rec?; rw [hr]; exact h.record, by rw [hd]; exact h.entries⟩

theorem Timed.still (h : Timed i n due ds s) (k : Still s t) : Timed i n due ds t := h.of_same k.recs k.deadlines

theorem Timed.acts (h : Timed i n due ds s) (k : Acts a s t) (hi : ¬ a.xfer (.dest i)) : Timed i n due ds t := by
  obtain ⟨r, hr, hl, hd, hs⟩ := h.record
  obtain ⟨r', hr', v, _, hv⟩ := k.dest_held hi hr
  refine ⟨⟨r', hr', ?_⟩, (k.frame.due i hi).trans h.entries⟩
  obtain rfl | rfl := hv
  · exact ⟨hl, hd, hs⟩
  · exact ⟨hl, hd, nofun⟩

theorem Timed.updateL (h : Timed i n due ds s) (j : Nat) : Timed i n due ds (updateL j s) := by
  obtain ⟨r, hr, hl, hd, hs⟩ := h.record
  refine ⟨?_, by rw [updateL_only]; exact h.entries⟩
  by_cases e : i = j
  · subst e; exact ⟨_, updateL_rec hr, hl, hd, hs⟩
  · exact ⟨r, (updateL_rec_ne e s).trans hr, hl, hd, hs⟩

theorem Timed.modRec (h : Timed i n due ds s) (j : Nat) {f : DestRec → DestRec} (hf : DestAct f) (hs : ∀ r, (f r).state = r.state) :
    Timed i n due ds (s.modRec j f) := by
  obtain ⟨r, hr, hl, hd, hst⟩ := h.record
  refine ⟨?_, h.entries⟩
  by_cases e : i = j
  · subst e
    exact ⟨f r, rec_modRec_self f hr, (hf.line r).trans hl, (hf.deadline r).trans hd, by rw [hs]; exact hst⟩
  · exact ⟨r, (rec_modRec s j i f).trans ((if_neg e).trans hr), hl, hd, hst⟩

theorem Timed.moveQueues (h : Timed i n due ds s) (hu : (s.line n).state ≠ .ready) (old new : LinkId) :
    Timed i n due ds (moveQueues n old new s) := by
  obtain ⟨r, hr, hl, hd, hs⟩ := h.record
  obtain ⟨v, hv⟩ := moveQueues_rec old new hr hl hu
  refine ⟨⟨_, hv, ?_⟩, ?_⟩
  · unfold DestRec.repriced
    split <;> exact ⟨hl, hd, hs⟩
  · rw [moveQueues_eq, (pick_examining n new _).frame.due i nofun, (reexamine_examining n _).frame.due i nofun,
      shifted_deadlines, rekeyed_only]
    exact h.entries

theorem Timed.sendRelease (h : Timed i n due ds s) (j : Nat) : Timed i n due ds (sendRelease j s) := by
  unfold Machine.sendRelease
  split
  · exact h
  · split
    · exact h
    · exact (h.modRec j (f := fun r => { r with sendCount := r.sendCount + 1, timer := .running Config.replyMs })
        ⟨fun _ => rfl, fun _ => rfl, fun _ => rfl⟩ fun _ => rfl).still (offer_still _ _ (.refl _))

theorem Timed.sendWithdraw (h : Timed i n due ds s) (j : Nat) : Timed i n due ds (sendWithdraw j s) := by
  unfold Machine.sendWithdraw
  split
  · exact h
  · split
    · exact h
    · exact (h.modRec j (f := fun r => { r with sendCount := r.sendCount + 1, timer := .running Config.replyMs })
        ⟨fun _ => rfl, fun _ => rfl, fun _ => rfl⟩ fun _ => rfl).still (offer_still _ _ (.refl _))

theorem Timed.moveRec (h : Timed i n due ds s) (up : Bool) (j : Nat) : Timed i n due ds (moveRec up s j) := by
  have resumed : Timed i n due ds (s.modRec j fun q => { q with timer := q.timer.resume }) :=
    h.modRec j ⟨fun _ => rfl, fun _ => rfl, fun _ => rfl⟩ fun _ => rfl
  unfold Machine.moveRec
  split
  · by_cases e : i = j
    · subst e
      obtain ⟨r, hr, hl, hd, hs⟩ := h.record
      unfold recLinkUp
      rw [hr]
      dsimp only
      split
      · exact if h0 : r.sendCount = 0 then by rw [if_pos h0]; exact h.sendRelease i else by rw [if_neg h0]; exact resumed
      · exact if h0 : r.sendCount = 0 then by rw [if_pos h0]; exact h.sendWithdraw i else by rw [if_neg h0]; exact resumed
      · next e => exact absurd e hs
      all_goals exact h
    · exact h.acts (recLinkUp_acts (a := aimedAt j) j trivial rfl (.refl s)) fun c => e (Xfer.dest.inj c)
  · refine h.modRec j ⟨fun r => ?_, fun r => ?_, fun r => ?_⟩ fun r => ?_ <;> split <;> rfl

theorem Timed.moveFrame (h : Timed i n due ds s) (new : LinkId) (f : CtlFrame) : Timed i n due ds (moveFrame new s f) := by
  unfold Machine.moveFrame
  split
  · exact h.still (offer_still _ _ (.refl _))
  · split
    · exact h.of_same rfl rfl
    all_goals exact h

theorem Timed.moveLink (h : Timed i n due ds s) (hu : (s.line n).state ≠ .ready) (old new : LinkId) :
    Timed i n due ds (moveLink n old new s) := by
  have h1 := h.moveQueues hu old new
  unfold Machine.moveLink
  dsimp only
  generalize Machine.moveQueues n old new s = t at h1
  have h2 : Timed i n due ds ((t.recsOf n).foldl (Machine.moveRec (t.isUp new)) t) :=
    foldl_induct (P := Timed i n due ds) _ (fun _ j _ h => h.moveRec _ j) h1
  generalize (t.recsOf n).foldl (Machine.moveRec (t.isUp new)) t = v at h2
  have h3 : Timed i n due ds (sendOwedTarget n v) :=
    h2.acts (sendOwedTarget_acts (a := { xfer := fun _ => False }) n trivial trivial (.refl v)) id
  unfold moveFrames
  exact foldl_induct (P := Timed i n due ds) _ (fun _ f _ h => h.moveFrame new f) (h3.still (dropControlOn_still old _ (.refl _)))

theorem Timed.repath (h : Timed i n due ds s) : Timed i n due ds (repath n s) := by
  refine Timed.acts (foldl_induct (P := Timed i n due ds) (s := s) (waitingRecs s n) (fun t j _ h => ?_) h)
    (reexamine_examining n _) nofun
  unfold repathRec
  split
  · exact h
  · split
    · exact h
    · next r _ _ =>
      obtain ⟨f, k⟩ := moveInQueue_still (t.linkOf r.line) (.dest j) (Machine.updateL j t)
      exact ((h.updateL j).of_same (t := State.modLink _ _ f) rfl rfl).still k

theorem Timed.repathed (h : Timed i n due ds s) : Timed i n due ds (repathed n c s) := by
  have h1 : Timed i n due ds (routed n c s) := h.of_same (routed_recs n c s) (routed_repolled n c s).deadlines
  have h2 : Timed i n due ds (relinked n c s) := by
    unfold relinked
    split
    · next hl => exact h1.moveLink (routed_unready (routeChanged_of_link hl)) _ _
    · exact h1
  unfold Machine.repathed
  split
  · exact h2.repath
  · exact h2

/-! ### Re-timing (R106) -/

theorem retimeEntry_other {lead : Nat} {d : DeadlineEntry} (hd : d.dest ≠ i) (s : State) :
    (retimeEntry lead s d).deadlines.filter (fun e => e.dest == i) = s.deadlines.filter fun e => e.dest == i := by
  unfold retimeEntry
  split
  · rfl
  · refine (filter_insertDue _ _ _ (show (d.dest == i) = false from beq_false_of_ne hd)).trans ?_
    show (s.deadlines.filter _).filter _ = _
    rw [List.filter_filter]
    refine List.filter_congr fun e _ => ?_
    by_cases h : e.dest = i
    · simp [h, hd.symm]
    · simp [h]

theorem filter_insertDue_sole {e : DeadlineEntry} {d : List DeadlineEntry} (he : e.dest = i) (hd : ∀ x ∈ d, x.dest ≠ i) :
    (insertDue e d).filter (fun x => x.dest == i) = [e] := by
  have hp : (insertDue e d).Perm (e :: d) := by
    induction d with
    | nil => exact .refl _
    | cons x xs ih =>
      unfold insertDue
      split
      · exact .refl _
      · exact ((ih fun y hy => hd y (.tail _ hy)).cons x).trans (.swap e x xs)
  have hf : (e :: d).filter (fun x => x.dest == i) = [e] := by
    rw [List.filter_cons, if_pos (beq_iff_eq.2 he), List.filter_eq_nil_iff.2 fun x hx => by simpa using hd x hx]
  exact List.perm_singleton.1 (hf ▸ hp.filter _)

theorem retimeEntry_self {lead : Nat} {d : DeadlineEntry} (hd : d.dest = i) (hr : s.rec? i = some r) :
    (retimeEntry lead s d).deadlines.filter (fun e => e.dest == i) = [⟨warnDue r.deadline lead, i, .warn⟩] := by
  unfold retimeEntry
  rw [hd, hr]
  refine filter_insertDue_sole rfl fun x hx => ?_
  exact bne_iff_ne.1 (List.mem_filter.1 hx).2

theorem retimeEntry_recs (lead : Nat) (d : DeadlineEntry) (s : State) : (retimeEntry lead s d).recs = s.recs := by
  unfold retimeEntry
  split <;> rfl

/-- A record's entries after re-timing are its one WARN with the new lead. -/
theorem retime_entries {lead : Nat} {d : DeadlineEntry} (hr : s.rec? i = some r) (hl : r.line = n) (hd : d ∈ s.deadlines)
    (hi : d.dest = i) (hk : d.kind = .warn) :
    (retime n lead s).deadlines.filter (fun e => e.dest == i) = [⟨warnDue r.deadline lead, i, .warn⟩] := by
  have hmem : d ∈ warnEntries s n := by
    refine List.mem_filter.2 ⟨hd, ?_⟩
    rw [hi, hr, hk]
    simp [hl]
  refine (foldl_reaches (P := fun t => t.recs = s.recs) (Q := fun t => t.recs = s.recs ∧
    t.deadlines.filter (fun e => e.dest == i) = [⟨warnDue r.deadline lead, i, .warn⟩]) (warnEntries s n) hmem
    (fun t y _ h => (retimeEntry_recs lead y t).trans h) (fun t h => ⟨(retimeEntry_recs lead d t).trans h, ?_⟩)
    (fun t y h => ⟨(retimeEntry_recs lead y t).trans h.1, ?_⟩) rfl).2
  · exact retimeEntry_self hi (by unfold State.rec?; rw [h]; exact hr)
  · by_cases e : y.dest = i
    · exact retimeEntry_self e (by unfold State.rec?; rw [h.1]; exact hr)
    · rw [retimeEntry_other e, h.2]

/-- A new warn lead re-times the WARN of each of the line's records that is not DELIVERED; the same lead leaves them (R106). -/
theorem reconfigureLine_warns {d : DeadlineEntry} (hr : s.rec? i = some r) (hl : r.line = n) (hs : r.state ≠ .delivered)
    (hd : d ∈ s.deadlines) (hi : d.dest = i) (hk : d.kind = .warn) :
    if c.warnLead = (s.line n).cfg.warnLead then d ∈ (reconfigureLine n c s).deadlines
    else (reconfigureLine n c s).deadlines.filter (fun e => e.dest == i) = [⟨warnDue r.deadline c.warnLead, i, .warn⟩] := by
  have h : Timed i n r.deadline (s.deadlines.filter fun e => e.dest == i) (repathed n c s) :=
    Timed.repathed ⟨⟨r, hr, hl, rfl, hs⟩, rfl⟩
  have hmem : d ∈ (repathed n c s).deadlines := by
    have : d ∈ s.deadlines.filter fun e => e.dest == i := List.mem_filter.2 ⟨hd, beq_iff_eq.2 hi⟩
    rw [← h.entries] at this
    exact (List.mem_filter.1 this).1
  rw [reconfigureLine_eq]
  split
  · next e => rw [if_neg (not_not.2 e.symm)]; exact hmem
  · next e =>
    obtain ⟨r', hr', hl', hd', _⟩ := h.record
    rw [if_pos fun c => e c.symm, retime_entries hr' hl' hmem hi hk, hd']

end

end Sys2Proof.Machine
end

section
/-! The order of arrival: what the scheduler's operations leave of the sequences of the transfers that stand somewhere, and of the
queues (R74, R75). -/

namespace Sys2Proof.Machine

variable {b s t u : State} {n m : LineId} {i j : Nat} {r : DestRec} {l old new : LinkId} {x y z : Xfer} {sl : Slot}
  {home : LinkId → LineId → Prop} {loose : Xfer → Prop}

/-! ### Standing transfers and their sequences -/

/-- A transfer stands in some queue or some SENDING slot. -/
def State.Stands (s : State) (x : Xfer) : Prop := ∃ l, s.layout.On l x

/-- The sequence of a transfer (R75). -/
abbrev seqOf (s : State) (x : Xfer) : Nat := (xferKey s x).seq

/-- Every transfer that stood somewhere stands somewhere, in the same order of arrival. -/
structure Follows (s t : State) : Prop where
  stands : ∀ x, s.Stands x → t.Stands x
  seqs : ∀ x y, s.Stands x → s.Stands y → seqOf s x < seqOf s y → seqOf t x < seqOf t y

theorem Follows.refl (s : State) : Follows s s := ⟨fun _ => id, fun _ _ _ _ => id⟩

theorem Follows.trans (h : Follows s t) (k : Follows t u) : Follows s u :=
  ⟨fun x hx => k.stands x (h.stands x hx),
    fun x y hx hy hxy => k.seqs x y (h.stands x hx) (h.stands y hy) (h.seqs x y hx hy hxy)⟩

theorem Follows.of_keys (hs : ∀ x, s.Stands x → t.Stands x) (hk : ∀ x, s.Stands x → seqOf t x = seqOf s x) : Follows s t :=
  ⟨hs, fun x y hx hy hxy => by rw [hk x hx, hk y hy]; exact hxy⟩

theorem stands_of_links (h : ∀ l, (t.link l).queue = (s.link l).queue ∧ (t.link l).sending = (s.link l).sending) (x : Xfer) :
    t.Stands x ↔ s.Stands x :=
  exists_congr fun l => or_congr (iff_of_eq (congrArg (x ∈ ·) (h l).1)) (iff_of_eq (congrArg (· = some x) (h l).2))

theorem seqOf_eq (s : State) (x : Xfer) : seqOf s x = (s.layout.key x).seq := by rw [seqOf, xferKey_eq]

theorem Light.follows (h : Light s t) : Follows s t :=
  .of_keys (fun x => (stands_of_links h.links x).2) fun x _ => by rw [seqOf_eq, seqOf_eq, h.layout]

/-- A run that leaves the queues and SENDING slots and the sequences of the transfers there. -/
theorem Follows.of_links (h : ∀ l, LinkStays (s.link l) (t.link l)) (hk : ∀ x, s.Stands x → seqOf t x = seqOf s x) : Follows s t :=
  .of_keys (fun x => (stands_of_links (fun l => ⟨(h l).queue, (h l).sending⟩) x).2) hk

theorem Layout.Ordered.stand_of_stands (h : s.layout.Ordered home loose) (hx : s.Stands x) : ∃ k, s.layout.stand x = some k :=
  hx.elim fun _ o => h.stand_of_on o

/-! ### Renumbering (R75) -/

theorem renumber_place (h : s.layout.Ordered home loose) (hx : s.Stands x) :
    ∃ (k : Nat) (hk : k < (sequenced s).length), (sequenced s)[k] = x ∧ seqOf (renumber s) x = k := by
  obtain ⟨hmem, hn, -⟩ := sequenced_spec h
  obtain ⟨k, hk, rfl⟩ := List.getElem_of_mem ((hmem x).2 hx)
  refine ⟨k, hk, rfl, ?_⟩
  obtain ⟨st, hst⟩ := h.stand_of_stands hx
  have e := renumberFrom_stand_getElem (sequenced s) 0 s hn k hk
  rw [hst, Nat.zero_add] at e
  rw [seqOf_eq, Layout.key_of_stand (show (renumber s).layout.stand (sequenced s)[k] = _ from e)]
  rfl

theorem renumber_follows (h : s.layout.Ordered home loose) : Follows s (renumber s) := by
  refine ⟨fun x => (stands_of_links (fun l => ?_) x).2, fun x y hx hy hxy => ?_⟩
  · have e : (renumber s).link l = s.link l := (renumberFrom_frame (sequenced s) 0 s).1 l
    rw [e]
    exact ⟨rfl, rfl⟩
  · obtain ⟨-, -, hsorted⟩ := sequenced_spec h
    obtain ⟨i, hi, rfl, ei⟩ := renumber_place h hx
    obtain ⟨j, hj, rfl, ej⟩ := renumber_place h hy
    rw [ei, ej]
    by_contra hji
    rcases Nat.lt_or_eq_of_le (Nat.le_of_not_lt hji) with hlt | heq
    · have := List.pairwise_iff_getElem.1 hsorted j i hj hi hlt
      exact absurd hxy (Nat.lt_asymm this)
    · subst heq
      exact absurd hxy (Nat.lt_irrefl _)

theorem roomForSeq_follows (h : s.layout.Ordered home loose) : Follows s (roomForSeq s) := by
  unfold roomForSeq
  split
  · exact renumber_follows h
  · exact .refl s

/-! ### Joining (R75) -/

theorem mem_joinQueue (l : LinkId) (x : Xfer) (s : State) (m : LinkId) :
    y ∈ ((joinQueue l x s).link m).queue ↔ m = l ∧ y = x ∨ y ∈ (s.link m).queue := by
  have e : ∀ m, (takeSeq x s).link m = s.link m := fun m => (setSeq_link x _ m (roomForSeq s)).trans ((roomForSeq_frame s).1 m)
  rw [joinQueue_eq, ((schedMirror_still l (countLate_still _ _)).links m).queue, enqueue, State.link_modLink]
  split
  · next h =>
    subst h
    rw [mem_insertByKey, e]
    exact or_congr_left (and_iff_right rfl).symm
  · next h =>
    rw [e]
    exact (or_iff_right fun c => h c.1).symm

/-- A transfer that joins a queue stands there behind all that stood somewhere, whose order is kept. -/
structure Joined (l : LinkId) (x : Xfer) (s t : State) : Prop extends Follows s t where
  here : x ∈ (t.link l).queue
  last : ∀ y, s.Stands y → seqOf t y < seqOf t x

theorem joinQueue_joined (l : LinkId) (h : s.Laid home loose) (hi : s.layout.Idle x) (hx : ∃ k, s.layout.stand x = some k) :
    Joined l x s (joinQueue l x s) := by
  obtain ⟨h0, hm⟩ := roomForSeq_laid h
  have hroom := roomForSeq_follows h.ordered
  have hlay := (joinQueue_light l x s).layout
  have hkey : ∀ y, (joinQueue l x s).layout.stand y = if y = x then ((roomForSeq s).layout.stand x).map
      (Stand.withSeq · (roomForSeq s).seqNext) else (roomForSeq s).layout.stand y := fun y => by
    rw [hlay]
    exact (modLink_stand _ _ _).trans (stand_setSeq x y _ _)
  have hne : ∀ y, s.Stands y → y ≠ x := fun y hy e => by
    obtain ⟨l, hl⟩ := hy
    exact hi.not_on l (e ▸ hl)
  have hold : ∀ y, s.Stands y → seqOf (joinQueue l x s) y = seqOf (roomForSeq s) y := fun y hy => by
    rw [seqOf_eq, seqOf_eq, Layout.key_congr ((hkey y).trans (if_neg (hne y hy)))]
  have hnew : seqOf (joinQueue l x s) x = (roomForSeq s).seqNext := by
    obtain ⟨k, hk⟩ := hx
    have e := hkey x
    rw [if_pos rfl, hm.stand x hi, hk] at e
    rw [seqOf_eq, Layout.key_of_stand e]
    rfl
  refine ⟨⟨fun y hy => ?_, fun y z hy hz hyz => ?_⟩, (mem_joinQueue l x s l).2 (.inl ⟨rfl, rfl⟩), fun y hy => ?_⟩
  · obtain ⟨m, hm⟩ := hy
    exact ⟨m, hm.imp (fun c => (mem_joinQueue l x s m).2 (.inr c)) fun c => (joinQueue_sending m l x s).trans c⟩
  · rw [hold y hy, hold z hz]
    exact hroom.seqs y z hy hz hyz
  · rw [hold y hy, hnew, seqOf_eq]
    obtain ⟨m, hm⟩ := hroom.stands y hy
    exact h0.ordered.counter m y hm

/-! ### Moving within a queue, and picks (R76, R78) -/

theorem mem_moveInQueue (l : LinkId) (x : Xfer) (s : State) (m : LinkId) :
    y ∈ ((moveInQueue l x s).link m).queue ↔ y ∈ (s.link m).queue := by
  unfold moveInQueue
  split
  · next hx =>
    rw [((schedMirror_still l (.refl _)).links m).queue, State.link_modLink]
    split
    · next e =>
      subst e
      rw [mem_insertByKey, List.mem_filter]
      by_cases e : y = x
      · subst e; exact iff_of_true (.inl rfl) hx
      · exact ⟨fun c => (c.resolve_left e).1, fun c => .inr ⟨c, bne_iff_ne.2 e⟩⟩
    · exact Iff.rfl
  · exact Iff.rfl

theorem moveInQueue_sending (l : LinkId) (x : Xfer) (s : State) (m : LinkId) :
    ((moveInQueue l x s).link m).sending = (s.link m).sending := by
  unfold moveInQueue
  split
  · rw [((schedMirror_still l (.refl _)).links m).sending, State.link_modLink]
    split
    · next e => rw [e]
    · rfl
  · rfl

theorem moveInQueue_key (l : LinkId) (x y : Xfer) (s : State) : xferKey (moveInQueue l x s) y = xferKey s y := by
  obtain ⟨f, k⟩ := moveInQueue_still l x s
  rw [xferKey_eq, xferKey_eq, k.light.layout, Layout.key_congr (modLink_stand l f y)]

theorem moveInQueue_follows (l : LinkId) (x : Xfer) (s : State) : Follows s (moveInQueue l x s) :=
  .of_keys (fun _ ⟨m, hm⟩ => ⟨m, hm.imp (mem_moveInQueue l x s m).2 fun c => (moveInQueue_sending l x s m).trans c⟩)
    fun y _ => congrArg QueueKey.seq (moveInQueue_key l x y s)

theorem markSending_seq (x y : Xfer) (s : State) : seqOf (markSending x s) y = seqOf s y := by
  by_cases e : y = x
  · subst e
    cases y with
    | dest k =>
      have h : (markSending (.dest k) s).rec? k = (s.rec? k).map fun r => { r with state := .sending, sent := r.acked } := by
        refine (rec_modRec s k k _).trans (if_pos rfl)
      unfold seqOf xferKey
      dsimp only
      rw [h]
      cases s.rec? k <;> rfl
    | slot k =>
      have h : ((markSending (.slot k) s).line k).slot = (s.line k).slot.map fun sl => { sl with state := .sending, sent := sl.acked } :=
        (modSlot_slot s k k _).trans (if_pos rfl)
      unfold seqOf xferKey
      dsimp only
      rw [h]
      cases (s.line k).slot <;> rfl
  · rw [seqOf_eq, seqOf_eq, Layout.key_congr (markSending_stand_ne e s)]

/-- A transfer picked stands in the SENDING slot, which was empty. -/
theorem markSending_follows (hs : (s.link l).sending = none) (x : Xfer) : Follows s (markSending x (takePicked l x s)) := by
  refine .of_keys (fun y ⟨m, hm⟩ => ?_) fun y _ => ?_
  · have hlink : (markSending x (takePicked l x s)).link m = if m = l then { s.link l with
        queue := (s.link l).queue.filter fun y => y != x, sending := some x, sendingSlack := slack (xferKey s x).l s.clock.value,
        lastCkpt := none, windowTimer := none, rewindPending := false, openOwed := true } else s.link m := by
      rw [markSending_link, takePicked, State.link_modLink]
    refine ⟨m, ?_⟩
    show y ∈ ((markSending x (takePicked l x s)).link m).queue ∨ ((markSending x (takePicked l x s)).link m).sending = some y
    rw [hlink]
    split
    · next e =>
      subst e
      by_cases e : y = x
      · exact .inr (congrArg some e.symm)
      · exact hm.imp (fun c => List.mem_filter.2 ⟨c, bne_iff_ne.2 e⟩) fun c => by
          rw [show s.layout.sending m = none from hs] at c; cases c
    · exact hm
  · rw [markSending_seq, seqOf_eq, seqOf_eq, takePicked, Layout.key_congr (modLink_stand l _ y)]

theorem pick_follows (l : LinkId) (s : State) : Follows s (pick l s) := by
  unfold pick
  dsimp only
  split
  · next hu =>
    split
    · next x _ =>
      have k : Still (markSending x (takePicked l x s)) (kick l (beginSending l x s)) :=
        (beginSending_still l x s).trans (kick_still l (.inr (beginSending_openOwed l x s)) (.refl _))
      exact (markSending_follows hu.2 x).trans k.light.follows
    · exact .refl s
  · exact .refl s

/-- A pick leaves in its queue a transfer whose line is not READY. -/
theorem mem_pick (l m : LinkId) (hx : x ∈ (s.link m).queue) (hr : xferReady s x = false) : x ∈ ((pick l s).link m).queue := by
  unfold pick
  dsimp only
  split
  · split
    · next y hy =>
      have hne : x ≠ y := fun e => by
        have := List.find?_some hy
        rw [← e, hr] at this
        cases this
      have k : Still (markSending y (takePicked l y s)) (kick l (beginSending l y s)) :=
        (beginSending_still l y s).trans (kick_still l (.inr (beginSending_openOwed l y s)) (.refl _))
      rw [(k.links m).queue, markSending_link, takePicked, State.link_modLink]
      split
      · next e => subst e; exact List.mem_filter.2 ⟨hx, bne_iff_ne.2 hne⟩
      · exact hx
    · exact hx
  · exact hx

theorem not_xferReady (hl : xferLine s x = some n) (h : (s.line n).state ≠ .ready) : xferReady s x = false := by
  unfold xferReady
  rw [hl]
  exact beq_false_of_ne h

/-! ### A line examined anew (R48, R54, R56) -/

theorem modSlot_seq (n : LineId) {f : Slot → Slot} (hf : ∀ sl, (f sl).seq = sl.seq) (y : Xfer) (s : State) :
    seqOf (s.modSlot n f) y = seqOf s y := by
  by_cases e : y = .slot n
  · subst e
    have h := (modSlot_slot s n n f).trans (if_pos rfl)
    unfold seqOf xferKey
    dsimp only
    rw [h]
    cases (s.line n).slot with
    | none => rfl
    | some sl => exact hf sl
  · rw [seqOf_eq, seqOf_eq, State.modSlot, Layout.key_congr (stand_modLine_ne e)]

theorem refreshSlot_follows (n : LineId) (s : State) : Follows s (refreshSlot n s) := by
  unfold refreshSlot
  split
  · exact .refl s
  · split
    · exact .refl s
    · refine Follows.trans ?_ (moveInQueue_follows _ _ _)
      refine .of_links (fun _ => .refl _) fun x _ => modSlot_seq n ?_ x s
      exact fun _ => rfl

theorem mem_refreshSlot (n : LineId) (s : State) (m : LinkId) : x ∈ ((refreshSlot n s).link m).queue ↔ x ∈ (s.link m).queue := by
  unfold refreshSlot
  split
  · exact Iff.rfl
  · split
    · exact Iff.rfl
    · exact mem_moveInQueue _ _ _ m

/-- A line's idle slot loaded, as it stands before it joins its queue. -/
def loadedSlot (n : LineId) (g : U16) (s : State) : State :=
  writeLineMirror n (s.modLine n fun k => { k with slot := some (Slot.loaded g (slotLatestStart s n g) (slotUrgent s n g)) })

theorem loadSlot_eq (n : LineId) (g : U16) (s : State) : ∃ l, loadSlot n g s = pick l (joinQueue l (.slot n) (loadedSlot n g s)) := by
  refine ⟨(s.modLine n fun k => { k with slot := some (Slot.loaded g (slotLatestStart s n g) (slotUrgent s n g)) }).linkOf n, ?_⟩
  unfold loadSlot loadedSlot
  rfl

theorem loadedSlot_still (n : LineId) (g : U16) (s : State) : Still
    (s.modLine n fun k => { k with slot := some (Slot.loaded g (slotLatestStart s n g) (slotUrgent s n g)) }) (loadedSlot n g s) :=
  writeLineMirror_still n (.refl _)

theorem loadedSlot_idle (g : U16) (k : s.Kept) (hs : (s.line n).slot = none) : (loadedSlot n g s).layout.Idle (.slot n) := by
  have h : s.layout.Idle (.slot n) := k.idle_slot fun sl hsl => by rw [hs] at hsl; cases hsl
  exact (loadedSlot_still n g s).light.idle h

theorem loadedSlot_kept (g : U16) (k : s.Kept) (he : (s.line n).enabled = true) (hs : (s.line n).slot = none) :
    (loadedSlot n g s).Kept := by
  have h : s.layout.Idle (.slot n) := k.idle_slot fun sl hsl => by rw [hs] at hsl; cases hsl
  exact ((loadedSlot_still n g s).keeps (modLine_keeps n _ (fun _ => ⟨h, rfl, rfl, fun _ => .inr he⟩) (.refl s))).kept k

theorem loadedSlot_follows (g : U16) (k : s.Kept) (hs : (s.line n).slot = none) : Follows s (loadedSlot n g s) := by
  have h : s.layout.Idle (.slot n) := k.idle_slot fun sl hsl => by rw [hs] at hsl; cases hsl
  refine Follows.trans ?_ (loadedSlot_still n g s).light.follows
  refine .of_links (fun _ => .refl _) fun x ⟨l, hl⟩ => ?_
  have hne : x ≠ .slot n := fun e => h.not_on l (e ▸ hl)
  rw [seqOf_eq, seqOf_eq, Layout.key_congr (stand_modLine_ne hne)]

theorem loadedSlot_stand (n : LineId) (g : U16) (s : State) : ∃ v, (loadedSlot n g s).layout.stand (.slot n) = some v := by
  refine ⟨_, stand_slot (sl := Slot.loaded g (slotLatestStart s n g) (slotUrgent s n g)) ?_⟩
  rw [(loadedSlot_still n g s).line, State.line_modLine_self]

theorem reexamine_follows (n : LineId) (k : s.Kept) : Follows s (reexamine n s) := by
  have k1 : (refreshSlot n s).Kept := (refreshSlot_keeps n (.refl s)).kept k
  refine (refreshSlot_follows n s).trans ?_
  unfold reexamine changeoverCheck
  split
  · next g hg =>
    have hs := changeoverChoice_slot hg
    obtain ⟨l, e⟩ := loadSlot_eq n g (refreshSlot n s)
    rw [e]
    exact (loadedSlot_follows g k1 hs).trans ((joinQueue_joined l (loadedSlot_kept g k1 (changeoverChoice_enabled hg) hs)
      (loadedSlot_idle g k1 hs) (loadedSlot_stand n g _)).toFollows.trans (pick_follows l _))
  · exact .refl _

theorem loadedSlot_calm (g : U16) (he : (s.line n).enabled = true) : Calm true s (loadedSlot n g s) :=
  writeLineMirror_calm n ((Calm.refl s).step (.line n _
    ⟨rfl, rfl, fun _ => ⟨rfl, rfl, rfl, rfl, rfl, rfl, rfl, fun h => h, fun hd => by simp [he] at hd⟩⟩))

theorem loadedSlot_xferLine (n : LineId) (g : U16) (x : Xfer) (s : State) : xferLine (loadedSlot n g s) x = xferLine s x := by
  cases x with
  | slot m => rfl
  | dest i => exact congrArg (Option.map DestRec.line) ((loadedSlot_still n g s).rec? i)

theorem joinQueue_xferLine (l : LinkId) (x y : Xfer) (s : State) : xferLine (joinQueue l x s) y = xferLine s y :=
  (joinQueue_acts (a := { xfer := fun _ => True }) l x trivial (.inl trivial) (.refl s)).frame.xferLine y

/-- A transfer of a line that is not READY stays in its queue when a line is examined anew. -/
theorem mem_reexamine (m : LineId) (h : (s.line n).state ≠ .ready) (hl : xferLine s x = some n) (hx : x ∈ (s.link l).queue) :
    x ∈ ((reexamine m s).link l).queue := by
  have h1 : x ∈ ((refreshSlot m s).link l).queue := (mem_refreshSlot m s l).2 hx
  have k1 : ((refreshSlot m s).line n).state ≠ .ready := Calm.unready (refreshSlot_calm m (Calm.refl s)) h
  have hl1 : xferLine (refreshSlot m s) x = some n := ((refreshSlot_acts (a := examining m) m rfl (.refl s)).frame.xferLine x).trans hl
  unfold reexamine changeoverCheck
  split
  · next g hg =>
    obtain ⟨k, e⟩ := loadSlot_eq m g (refreshSlot m s)
    have c : Calm true (refreshSlot m s) (joinQueue k (.slot m) (loadedSlot m g (refreshSlot m s))) :=
      joinQueue_calm k _ (loadedSlot_calm g (changeoverChoice_enabled hg))
    have hq : x ∈ ((joinQueue k (.slot m) (loadedSlot m g (refreshSlot m s))).link l).queue := by
      refine (mem_joinQueue k _ _ l).2 (.inr ?_)
      rw [((loadedSlot_still m g _).links l).queue]
      exact h1
    rw [e]
    exact mem_pick k l hq (not_xferReady ((joinQueue_xferLine k _ x _).trans ((loadedSlot_xferLine m g x _).trans hl1)) (c.unready k1))
  · exact h1

end Sys2Proof.Machine
end

section
/-! SET PRESS LINE on a line that keeps its link: a new path has the L of its records computed anew (R89, R127 step 4). -/

namespace Sys2Proof.Machine

variable {b s t u : State} {n m : LineId} {c : LineConfig} {i j : Nat} {r : DestRec} {l : LinkId} {x y : Xfer}

/-! ### What a changeover rests on (R54, R57) -/

/-- Of the records, what a claim rests on (R48). -/
def claimTable (s : State) : List (Nat × Nat × LineId × DestState) :=
  s.recs.map fun e => (e.1, e.2.parent, e.2.line, e.2.state)

theorem claimants_congr (ht : claimTable t = claimTable s) (hp : t.pages = s.pages) (n : LineId) (g : U16) :
    claimants t n g = claimants s n g := by
  have e : ∀ s : State, claimants s n g = ((claimTable s).filter fun e => e.2.2.1 == n &&
      (match s.page? e.2.1 with | some p => p.generation | none => 0) == g && g != 0 && !e.2.2.2.isFinal &&
      e.2.2.2 != .verifyWait && e.2.2.2 != .withdrawing).map fun e => e.1 := fun s => by
    unfold claimTable claimants
    rw [List.filter_map, List.map_map]
    rfl
  have hpage : t.page? = s.page? := by unfold State.page?; rw [hp]
  rw [e, e, ht, hpage]

theorem changeoverChoice_none (hs : (t.line n).slot = none → (s.line n).slot = none) (he : (t.line n).enabled = (s.line n).enabled)
    (hh : (t.line n).held = (s.line n).held) (hc : (t.line n).catalog = (s.line n).catalog)
    (hk : ∀ g, claimants t n g = claimants s n g) (h : changeoverChoice s n = none) : changeoverChoice t n = none := by
  have hw : wantedGeneration t n = wantedGeneration s n := by
    unfold wantedGeneration
    rw [hc]
    simp only [hk]
  have hp : pendingPush (t.line n) = pendingPush (s.line n) := by unfold pendingPush; rw [hc, hh]
  unfold changeoverChoice at h ⊢
  dsimp only at h ⊢
  rw [he, hh, hk, hw, hp]
  split
  · next k =>
    rw [if_pos ⟨hs k.1, k.2⟩] at h
    exact h
  · rfl

theorem updateL_claimTable (j : Nat) (s : State) : claimTable (updateL j s) = claimTable s := by
  unfold updateL
  split
  · rfl
  · exact Table.map_modify (fun r : DestRec => (r.parent, r.line, r.state)) s.recs j _ fun _ => rfl

/-! ### Each record's L anew, in its place (R76, R89) -/

theorem repathRec_cases (s : State) (j : Nat) :
    repathRec s j = s ∨ ∃ l, repathRec s j = moveInQueue l (.dest j) (updateL j s) := by
  unfold repathRec
  split
  · exact .inl rfl
  · split
    · exact .inl rfl
    · exact .inr ⟨_, rfl⟩

theorem moveInQueue_rec (l : LinkId) (x : Xfer) (i : Nat) (s : State) : (moveInQueue l x s).rec? i = s.rec? i := by
  obtain ⟨f, k⟩ := moveInQueue_still l x s
  exact k.rec? i

theorem repathRec_rec (hr : s.rec? i = some r) : (repathRec s i).rec? i = some { r with latestStart := recLatestStart s r } := by
  unfold repathRec
  rw [hr]
  dsimp only
  split
  · next h => rw [h, hr]
  · rw [moveInQueue_rec, updateL_rec hr]

theorem repathRec_rec_ne (h : i ≠ j) (s : State) : (repathRec s j).rec? i = s.rec? i := by
  obtain e | ⟨l, e⟩ := repathRec_cases s j
  · rw [e]
  · rw [e, moveInQueue_rec, updateL_rec_ne h]

theorem moveInQueue_priced (l : LinkId) (x : Xfer) (s : State) : Priced s (moveInQueue l x s) :=
  Acts.priced (a := picking) (moveInQueue_acts l x (.refl s)) (fun _ => id) (moveInQueue_calm (q := false) l x (.refl s))

theorem repathRec_priced (s : State) (j : Nat) : Priced s (repathRec s j) := by
  obtain e | ⟨l, e⟩ := repathRec_cases s j
  · rw [e]; exact .refl s
  · rw [e]; exact (updateL_priced j s).trans (moveInQueue_priced l _ _)

/-- What the records' part of a new path leaves besides: the lines, the claims, the counter of sequences, and who stands in the queues. -/
structure Repathing (s t : State) : Prop where
  lines : t.lines = s.lines
  pages : t.pages = s.pages
  claims : claimTable t = claimTable s
  seqNext : t.seqNext = s.seqNext
  queue : ∀ l, ∀ x, x ∈ (t.link l).queue ↔ x ∈ (s.link l).queue

theorem Repathing.refl (s : State) : Repathing s s := ⟨rfl, rfl, rfl, rfl, fun _ _ => Iff.rfl⟩

theorem Repathing.trans (h : Repathing s t) (k : Repathing t u) : Repathing s u :=
  ⟨k.lines.trans h.lines, k.pages.trans h.pages, k.claims.trans h.claims, k.seqNext.trans h.seqNext,
    fun l x => (k.queue l x).trans (h.queue l x)⟩

theorem repathRec_repathing (s : State) (j : Nat) : Repathing s (repathRec s j) := by
  obtain e | ⟨l, e⟩ := repathRec_cases s j
  · rw [e]; exact .refl s
  · rw [e]
    have h1 : Repathing s (updateL j s) := by
      refine ⟨updateL_lines j s, (updateL_priced j s).pages, updateL_claimTable j s, updateL_seqNext j s, fun l x => ?_⟩
      rw [updateL_link]
    refine h1.trans ?_
    obtain ⟨f, k⟩ := moveInQueue_still l (.dest j) (updateL j s)
    exact ⟨k.lines, k.pages, congrArg (List.map _) k.recs, k.seqNext, fun m x => mem_moveInQueue l _ _ m⟩

theorem foldl_repathRec_repathing (js : List Nat) (s : State) : Repathing s (js.foldl repathRec s) :=
  foldl_induct (P := Repathing s) js (fun t j _ h => h.trans (repathRec_repathing t j)) (.refl s)

theorem foldl_repathRec_rec (hr : s.rec? i = some r) (hl : r.line = n) :
    ((waitingRecs s n).foldl repathRec s).rec? i = some (r.repriced s) := by
  unfold DestRec.repriced
  split
  · next h =>
    exact foldl_reprices repathRec_priced (fun s _ _ h => repathRec_rec_ne h s) (fun _ _ _ h => repathRec_rec h)
      ((mem_waitingRecs hr hl).2 h) hr
  · next h =>
    refine foldl_induct (P := fun t => t.rec? i = some r) _ (fun t j hj ht => (repathRec_rec_ne (fun e => ?_) t).trans ht) hr
    exact h ((mem_waitingRecs hr hl).1 (e ▸ hj))

/-! ### The line examined anew (R48, R54) -/

theorem refreshSlot_only (n : LineId) (s : State) : (refreshSlot n s).recs = s.recs ∧ (refreshSlot n s).pages = s.pages := by
  unfold refreshSlot
  split
  · exact ⟨rfl, rfl⟩
  · split
    · exact ⟨rfl, rfl⟩
    · next sl _ _ =>
      obtain ⟨f, k⟩ := moveInQueue_still (s.linkOf n) (.slot n) (s.modSlot n fun q =>
        { q with latestStart := slotLatestStart s n sl.generation, urgent := slotUrgent s n sl.generation })
      exact ⟨k.recs, k.pages⟩

/-- With no changeover to make the line's examination leaves the records. -/
theorem reexamine_recs (h : changeoverChoice s n = none) : (reexamine n s).recs = s.recs := by
  have hl := (refreshSlot_acts (a := examining n) n rfl (.refl s)).frame
  obtain ⟨hrecs, hpages⟩ := refreshSlot_only n s
  have hc : changeoverChoice (refreshSlot n s) n = none := by
    refine changeoverChoice_none (hl.slot n) (hl.setup n).1 ?_ ?_ (fun g => claimants_congr ?_ hpages n g) h
    · rw [hl.line n id]
    · rw [hl.line n id]
    · unfold claimTable; rw [hrecs]
  unfold reexamine changeoverCheck
  rw [hc]
  exact hrecs

/-- With room for a sequence a record of a line that is not READY stays as it is when a line is examined anew. -/
theorem reexamine_rec_room (m : LineId) (hq : s.seqNext < Config.maxU32) (hr : s.rec? i = some r) (h : (s.line r.line).state ≠ .ready) :
    (reexamine m s).rec? i = some r := by
  have k : Acts { examining m with reseq := False } s (reexamine m s) := reexamine_acts m rfl (fun _ => rfl) (.inr hq) (.refl s)
  obtain ⟨v, hv, e⟩ := k.dest_kept (i := i) nofun (unready_unpickable id h (xferLine_dest hr)) hr
  obtain rfl : v = r.seq := hv.resolve_left id
  exact e

/-! ### A new path on the same link -/

theorem repath_rec (hr : s.rec? i = some r) (hl : r.line = n) (hu : (s.line n).state ≠ .ready)
    (hq : s.seqNext < Config.maxU32 ∨ changeoverChoice s n = none) : (repath n s).rec? i = some (r.repriced s) := by
  have h := foldl_repathRec_rec hr hl
  have k := foldl_repathRec_repathing (waitingRecs s n) s
  unfold repath
  generalize (waitingRecs s n).foldl repathRec s = t at h k
  have hline : ∀ m, t.line m = s.line m := fun m => by unfold State.line; rw [k.lines]
  obtain hq | hq := hq
  · refine reexamine_rec_room n (k.seqNext ▸ hq) h ?_
    rw [r.repriced_line, hl, hline]
    exact hu
  · have hc : changeoverChoice t n = none := changeoverChoice_none (by rw [hline]; exact id) (by rw [hline]) (by rw [hline])
      (by rw [hline]) (fun g => claimants_congr k.claims k.pages n g) hq
    unfold State.rec?
    rw [reexamine_recs hc]
    exact h

theorem repath_queue (hu : (s.line n).state ≠ .ready) (hx : xferLine s x = some n) (hq : x ∈ (s.link l).queue) :
    x ∈ ((repath n s).link l).queue := by
  have k := foldl_repathRec_repathing (waitingRecs s n) s
  have c : Calm true s ((waitingRecs s n).foldl repathRec s) := foldl_calm _ (fun _ i h => repathRec_calm i h) _ (.refl s)
  have hline : xferLine ((waitingRecs s n).foldl repathRec s) x = some n := by
    cases x with
    | slot m => exact hx
    | dest i =>
      obtain ⟨r, hr, hl⟩ := Option.map_eq_some_iff.1 (show (s.rec? i).map (fun r => r.line) = some n from hx)
      have := xferLine_dest (foldl_repathRec_rec hr hl)
      rw [r.repriced_line, hl] at this
      exact this
  exact mem_reexamine n (c.unready hu) hline ((k.queue l x).2 hq)

theorem repath_priced (n : LineId) (s : State) : Priced s (repath n s) := by
  have h : Priced s ((waitingRecs s n).foldl repathRec s) :=
    foldl_induct (P := Priced s) _ (fun t j _ h => h.trans (repathRec_priced t j)) (.refl s)
  exact h.trans (Acts.priced (reexamine_examining n _) (fun _ => id) (reexamine_calm (q := false) n (.refl _)))

/-- Re-timing changes the deadline list alone. -/
theorem retime_only (n : LineId) (lead : Nat) (s : State) : ∃ d, retime n lead s = { s with deadlines := d } := by
  refine foldl_induct (P := fun t => ∃ d, t = { s with deadlines := d }) _ (fun t e _ h => ?_) ⟨s.deadlines, rfl⟩
  obtain ⟨d, rfl⟩ := h
  unfold retimeEntry
  split
  · exact ⟨d, rfl⟩
  · exact ⟨_, rfl⟩

theorem reconfigureLine_only (n : LineId) (c : LineConfig) (s : State) :
    ∃ d, reconfigureLine n c s = { repathed n c s with deadlines := d } := by
  rw [reconfigureLine_eq]
  split
  · exact retime_only n c.warnLead _
  · exact ⟨_, rfl⟩

theorem xferLine_recs (hr : t.recs = s.recs) (x : Xfer) : xferLine t x = xferLine s x := by
  cases x with
  | slot n => rfl
  | dest i => unfold xferLine State.rec?; rw [hr]

theorem routed_line_fields (n m : LineId) (c : LineConfig) (s : State) : ((routed n c s).line m).slot = (s.line m).slot ∧
    ((routed n c s).line m).enabled = (s.line m).enabled ∧ ((routed n c s).line m).held = (s.line m).held ∧
    ((routed n c s).line m).catalog = (s.line m).catalog ∧ ((routed n c s).line m).owed = (s.line m).owed := by
  obtain ⟨st, q, z, v, e⟩ := (routed_repolled n c s).line m
  rw [e, configure_line]
  split
  · next e => rw [e]; exact ⟨rfl, rfl, rfl, rfl, rfl⟩
  · exact ⟨rfl, rfl, rfl, rfl, rfl⟩

theorem routed_choice (h : changeoverChoice s n = none) : changeoverChoice (routed n c s) n = none := by
  obtain ⟨hs, he, hh, hc, _⟩ := routed_line_fields n n c s
  refine changeoverChoice_none (hs ▸ id) he hh hc (fun g => claimants_congr ?_ (routed_repolled n c s).pages n g) h
  unfold claimTable
  rw [routed_recs]
  rfl

/-- A line that keeps its link (R89). -/
theorem repathed_latest (hl : (s.line n).cfg.link = c.link) (hp : (s.line n).cfg.path ≠ c.path)
    (hq : s.seqNext < 4294967295 ∨ changeoverChoice s n = none) (hr : s.rec? i = some r) (hn : r.line = n) :
    (repathed n c s).rec? i = some (r.repriced (repathed n c s)) := by
  have hc : routeChanged (s.line n).cfg c = true := by simp [routeChanged, hp]
  have e : repathed n c s = repath n (routed n c s) := by
    unfold repathed relinked
    rw [if_pos hp, if_neg (not_not.2 hl)]
  have h := repath_rec ((routed_rec n c s i).trans hr) hn (routed_unready hc)
    (hq.imp (fun h => (routed_repolled n c s).seqNext.symm ▸ h) routed_choice)
  have hprice := (repath_priced n (routed n c s)).recLatestStart (r := r) rfl rfl rfl rfl rfl
  rw [e, h]
  unfold DestRec.repriced
  rw [hprice]

theorem repathed_same (hl : (s.line n).cfg.link = c.link) (hp : (s.line n).cfg.path = c.path) : repathed n c s = routed n c s := by
  unfold repathed relinked
  rw [if_neg (not_not.2 hp), if_neg (not_not.2 hl)]

theorem repathed_stays (hl : (s.line n).cfg.link = c.link) (hp : (s.line n).cfg.path ≠ c.path) (hx : xferLine s x = some n)
    (hq : x ∈ (s.link l).queue) : x ∈ ((repathed n c s).link l).queue := by
  have hc : routeChanged (s.line n).cfg c = true := by simp [routeChanged, hp]
  have e : repathed n c s = repath n (routed n c s) := by
    unfold repathed relinked
    rw [if_pos hp, if_neg (not_not.2 hl)]
  rw [e]
  refine repath_queue (routed_unready hc) ((xferLine_recs (routed_recs n c s) x).trans hx) ?_
  rw [(routed_link n c s l).queue]
  exact hq

theorem State.Laid.queue_order {home : LinkId → LineId → Prop} (h : s.Laid home fun _ => False) (l : LinkId) :
    (s.link l).queue.Pairwise fun x y => (xferKey s x).before (xferKey s y) = true := by
  refine (h.ordered.order l).imp fun {x y} hxy => ?_
  rw [xferKey_eq, xferKey_eq]
  exact hxy id id

theorem reconfigureLine_pathChanged (hb : routeChanged (s.line n).cfg c = true → lineBusy s n = false) (hk : s.Kept)
    (hl : (s.line n).cfg.link = c.link) : PathChanged s (reconfigureLine n c s) n ((s.line n).cfg.path ≠ c.path) := by
  have k := (reconfigureLine_kept c hb hk).queue_order
  obtain ⟨d, e⟩ := reconfigureLine_only n c s
  rw [e] at k ⊢
  refine ⟨fun hp hq i r hr hn => repathed_latest hl hp hq hr hn, fun hp x hx hn => repathed_stays hl hp hn hx,
    fun _ => k (s.linkOf n), fun hp => ?_⟩
  have hp := not_not.1 hp
  show (repathed n c s).recs = _ ∧ ∀ l, ((repathed n c s).link l).queue = _
  rw [repathed_same hl hp]
  exact ⟨routed_recs n c s, fun l => (routed_link n c s l).queue⟩

end Sys2Proof.Machine
end

section
/-! The steps of a change of link after the moves, and what each leaves of the line's transfers (R31, R32, R56, R89, R127 step 3). -/

namespace Sys2Proof.Machine

variable {a : Aim} {b s t u : State} {n m : LineId} {i j : Nat} {r r' : DestRec} {l : LinkId} {x y : Xfer} {sl : Slot} {g : U16}

/-! ### The keys of a slot rest on its waiting claimants (R56) -/

theorem foldl_min_le {α : Type} (f : α → Nat) (xs : List α) (v : Nat) :
    xs.foldl (fun m x => min m (f x)) v ≤ v ∧ ∀ x ∈ xs, xs.foldl (fun m x => min m (f x)) v ≤ f x := by
  induction xs generalizing v with
  | nil => exact ⟨le_rfl, nofun⟩
  | cons y ys ih =>
    obtain ⟨h1, h2⟩ := ih (min v (f y))
    refine ⟨h1.trans (min_le_left _ _), fun x hx => ?_⟩
    obtain rfl | hx := List.mem_cons.1 hx
    · exact h1.trans (min_le_right _ _)
    · exact h2 x hx

theorem le_foldl_min {α : Type} (f : α → Nat) {xs : List α} {v w : Nat} (hv : w ≤ v) (h : ∀ x ∈ xs, w ≤ f x) :
    w ≤ xs.foldl (fun m x => min m (f x)) v := by
  induction xs generalizing v with
  | nil => exact hv
  | cons y ys ih => exact ih (le_min hv (h y (.head _))) fun x hx => h x (.tail _ hx)

theorem foldl_min_congr {α : Type} (f : α → Nat) {xs ys : List α} (h : ∀ x, x ∈ xs ↔ x ∈ ys) (v : Nat) :
    xs.foldl (fun m x => min m (f x)) v = ys.foldl (fun m x => min m (f x)) v :=
  le_antisymm (le_foldl_min f (foldl_min_le f xs v).1 fun x hx => (foldl_min_le f xs v).2 x ((h x).2 hx))
    (le_foldl_min f (foldl_min_le f ys v).1 fun x hx => (foldl_min_le f ys v).2 x ((h x).1 hx))

theorem mem_waitingClaimants (hs : Table.rising s.recs = true) : r ∈ waitingClaimants s n g ↔
    ∃ i, s.rec? i = some r ∧ r.line = n ∧ r.state = .targetWait ∧ s.recGen r = g ∧ g ≠ 0 := by
  unfold waitingClaimants claims
  simp only [List.mem_map, List.mem_filter, Bool.and_eq_true, beq_iff_eq, bne_iff_ne]
  constructor
  · rintro ⟨⟨i, q⟩, ⟨hm, ⟨⟨⟨⟨⟨hl, hg⟩, h0⟩, _⟩, _⟩, _⟩, ht⟩, rfl⟩
    exact ⟨i, Table.get_of_mem hs hm, hl, ht, hg, h0⟩
  · rintro ⟨i, hr, hl, ht, hg, h0⟩
    refine ⟨(i, r), ⟨Table.mem_of_get hr, ⟨⟨⟨⟨⟨hl, hg⟩, h0⟩, ?_⟩, ?_⟩, ?_⟩, ht⟩, rfl⟩ <;> rw [ht]
    · rfl
    · exact nofun
    · exact nofun

/-- Both states have the same records of a line in TARGET_WAIT. -/
def SameTargets (n : LineId) (s t : State) : Prop :=
  ∀ i r, r.line = n → r.state = .targetWait → (s.rec? i = some r ↔ t.rec? i = some r)

theorem slotKeys_same (hs : Table.rising s.recs = true) (ht : Table.rising t.recs = true) (h : SameTargets n s t) (hp : t.pages = s.pages) (g : U16) :
    slotLatestStart t n g = slotLatestStart s n g ∧ slotUrgent t n g = slotUrgent s n g := by
  have hmem : ∀ r, r ∈ waitingClaimants t n g ↔ r ∈ waitingClaimants s n g := fun r => by
    rw [mem_waitingClaimants hs, mem_waitingClaimants ht]
    have hg : t.recGen r = s.recGen r := by unfold State.recGen State.page?; rw [hp]
    rw [hg]
    exact exists_congr fun i => ⟨fun ⟨hr, hl, hst, hk⟩ => ⟨(h i r hl hst).2 hr, hl, hst, hk⟩,
      fun ⟨hr, hl, hst, hk⟩ => ⟨(h i r hl hst).1 hr, hl, hst, hk⟩⟩
  refine ⟨foldl_min_congr _ hmem _, ?_⟩
  unfold slotUrgent
  rw [Bool.eq_iff_iff, List.any_eq_true, List.any_eq_true]
  exact exists_congr fun r => and_congr_left fun _ => hmem r

/-- The keys of a line's slot are those its claimants give it (R56). -/
def Current (n : LineId) (s : State) : Prop := ∀ sl, (s.line n).slot = some sl →
  sl.latestStart = slotLatestStart s n sl.generation ∧ sl.urgent = slotUrgent s n sl.generation

theorem Current.of_same (hs : Table.rising s.recs = true) (ht : Table.rising t.recs = true) (h : SameTargets n s t) (hp : t.pages = s.pages)
    (hc : Current n s) (hsl : (t.line n).slot = (s.line n).slot) : Current n t := fun sl h' => by
  obtain ⟨h1, h2⟩ := slotKeys_same hs ht h hp sl.generation
  obtain ⟨k1, k2⟩ := hc sl (hsl ▸ h')
  exact ⟨k1.trans h1.symm, k2.trans h2.symm⟩

/-- A line with a loaded slot of current keys has nothing that its examination changes. -/
theorem reexamine_current (h : (s.line n).slot = some sl) (hc : Current n s) : reexamine n s = s := by
  have e : refreshSlot n s = s := by
    unfold refreshSlot
    rw [h]
    exact if_pos (hc sl h)
  have hn : changeoverChoice s n = none := by
    unfold changeoverChoice
    dsimp only
    rw [if_neg fun c => by rw [h] at c; cases c.1]
  unfold reexamine changeoverCheck
  rw [e, hn]

/-! ### Steps past a line that is not READY -/

/-- The queues and the pool are in order, and the line is not READY. -/
structure Off (n : LineId) (s : State) : Prop where
  kept : s.Kept
  unready : (s.line n).state ≠ .ready

/-- What a step leaves of the transfers of a line that is not READY, of what their prices rest on, and of the order of arrival. -/
structure Passes (n : LineId) (s t : State) : Prop where
  off : Off n t
  priced : Priced s t
  order : Follows s t
  queue : ∀ l x, xferLine s x = some n → x ∈ (s.link l).queue → x ∈ (t.link l).queue
  lines : ∀ x, xferLine t x = xferLine s x
  waits : ∀ i r, s.rec? i = some r → r.line = n → r.state = .queued → ∃ v, t.rec? i = some { r with seq := v }
  targets : SameTargets n s t
  lates : s.counters.predictedLates.toNat ≤ t.counters.predictedLates.toNat
  slot : ∀ sl, (s.line n).slot = some sl → Current n s → (t.line n).slot = some sl ∧ Current n t

theorem Passes.refl (h : Off n s) : Passes n s s :=
  ⟨h, .refl s, .refl s, fun _ _ _ h => h, fun _ => rfl, fun _ r hr _ _ => ⟨r.seq, hr⟩, fun _ _ _ _ => Iff.rfl, le_rfl, fun _ h c => ⟨h, c⟩⟩

theorem Passes.trans (h : Passes n s t) (k : Passes n t u) : Passes n s u where
  off := k.off
  priced := h.priced.trans k.priced
  order := h.order.trans k.order
  queue l x hx hq := k.queue l x ((h.lines x).trans hx) (h.queue l x hx hq)
  lines x := (k.lines x).trans (h.lines x)
  waits i r hr hl hs := by
    obtain ⟨v, hv⟩ := h.waits i r hr hl hs
    obtain ⟨w, hw⟩ := k.waits i _ hv hl hs
    exact ⟨w, hw⟩
  targets i r hl hs := (h.targets i r hl hs).trans (k.targets i r hl hs)
  lates := h.lates.trans k.lates
  slot sl hs hc := by
    obtain ⟨h1, h2⟩ := h.slot sl hs hc
    exact k.slot sl h1 h2

theorem ActFrame.lates (h : ActFrame a s t) : s.counters.predictedLates.toNat ≤ t.counters.predictedLates.toNat := by
  obtain ⟨v, hv, e⟩ := h.counters
  rw [e]
  exact hv

/-- A run aimed at no record keeps the line's records in TARGET_WAIT. -/
theorem Acts.sameTargets (k : Acts a s t) (h : Off n s) (ha : ¬ a.line n) (hd : ∀ i, ¬ a.xfer (.dest i)) : SameTargets n s t := by
  have forth : ∀ i r, r.line = n → r.state = .targetWait → s.rec? i = some r → t.rec? i = some r := fun i r _ hs hr => by
    rw [k.dest_idle (hd i) (h.kept.idle_dest fun q hq => by rw [hr] at hq; cases hq; rw [hs]; rfl), hr]
  refine fun i r hl hs => ⟨forth i r hl hs, fun hr => ?_⟩
  cases hq : s.rec? i with
  | none => rw [k.frame.unused i hq] at hr; cases hr
  | some q =>
    obtain ⟨q', hq', hline, _⟩ := k.frame.used i q hq
    obtain rfl : q' = r := Option.some.inj (hq'.symm.trans hr)
    have hql : q.line = n := hline.symm.trans hl
    obtain ⟨v, _, e⟩ := k.dest_kept (hd i) (unready_unpickable ha h.unready ((xferLine_dest hq).trans (congrArg some hql))) hq
    have e : q' = { q with seq := v } := Option.some.inj (hr.symm.trans e)
    have hqs : q.state = .targetWait := by rw [e] at hs; exact hs
    rw [← hr, forth i q hql hqs hq]

/-- A calm run aimed at no record and at no line of itself, with what it makes of the queues and the slot. -/
theorem Acts.passes {q : Bool} (k : Acts a s t) (c : Calm q s t) (h : Off n s) (ht : Off n t) (ha : ∀ m, ¬ a.line m)
    (hd : ∀ i, ¬ a.xfer (.dest i)) (ho : Follows s t) (hq : ∀ l x, xferLine s x = some n → x ∈ (s.link l).queue → x ∈ (t.link l).queue)
    (hsl : ∀ sl, (s.line n).slot = some sl → Current n s → (t.line n).slot = some sl) : Passes n s t where
  off := ht
  priced := k.priced ha c
  order := ho
  queue := hq
  lines := k.frame.xferLine
  waits i r hr hl _ := by
    obtain ⟨v, _, e⟩ := k.dest_kept (hd i) (unready_unpickable (ha n) h.unready ((xferLine_dest hr).trans (congrArg some hl))) hr
    exact ⟨v, e⟩
  targets := k.sameTargets h (ha n) hd
  lates := k.frame.lates
  slot sl hs hc := ⟨hsl sl hs hc, hc.of_same h.kept.recs_rising ht.kept.recs_rising (k.sameTargets h (ha n) hd) k.frame.pages ((hsl sl hs hc).trans hs.symm)⟩

theorem Off.of (h : Off n s) (k : Keeps s t) (c : Calm true s t) : Off n t := ⟨k.kept h.kept, c.unready h.unready⟩

theorem reexamine_passes (h : Off n s) : Passes n s (reexamine n s) := by
  have c : Calm true s (reexamine n s) := reexamine_calm n (.refl s)
  refine (reexamine_examining n s).passes c h (h.of (reexamine_keeps n (.refl s)) c) (fun _ => id)
    (fun _ => nofun) (reexamine_follows n h.kept) (fun l x hx hq => mem_reexamine n h.unready hx hq) fun sl hs hc => ?_
  rw [reexamine_current hs hc]
  exact hs

theorem pick_passes (l : LinkId) (h : Off n s) : Passes n s (pick l s) := by
  have c : Calm true s (pick l s) := pick_calm l (.refl s)
  refine (pick_picking l s).passes c h (h.of (pick_keeps l (.refl s)) c) (fun _ => id) (fun _ => id)
    (pick_follows l s) (fun m x hx hq => mem_pick l m hq (not_xferReady hx h.unready)) fun sl hs _ => ?_
  obtain ⟨sl', hs', v, w, q, hk, hq, rfl⟩ := (pick_picking l s).slot_kept (n := n) id (unready_unpickable id h.unready rfl) hs
  obtain ⟨rfl, rfl⟩ := hk.resolve_left id
  obtain rfl := hq.resolve_left id
  exact hs'

/-! ### The pool's step (R31, R32, R33) -/

/-- The states in which a new link has something to do for a record. -/
abbrev DestRec.replying (r : DestRec) : Prop := r.state = .releasing ∨ r.state = .withdrawing ∨ r.state = .delivered

theorem sendRelease_state (hr : s.rec? i = some r) : ∃ r', (sendRelease i s).rec? i = some r' ∧ r'.state = r.state := by
  unfold sendRelease
  rw [hr]
  dsimp only
  split
  · exact ⟨r, hr, rfl⟩
  · exact ⟨_, (offer_rec _ _ _ _).trans (rec_modRec_self _ hr), rfl⟩

theorem sendWithdraw_state (hr : s.rec? i = some r) : ∃ r', (sendWithdraw i s).rec? i = some r' ∧ r'.state = r.state := by
  unfold sendWithdraw
  rw [hr]
  dsimp only
  split
  · exact ⟨r, hr, rfl⟩
  · exact ⟨_, (offer_rec _ _ _ _).trans (rec_modRec_self _ hr), rfl⟩

theorem recLinkUp_idle (hr : s.rec? i = some r) (h : ¬ r.replying) : recLinkUp i s = s := by
  unfold recLinkUp
  rw [hr]
  dsimp only
  split
  · next e => exact absurd (.inl e) h
  · next e => exact absurd (.inr (.inl e)) h
  · next e => exact absurd (.inr (.inr e)) h
  all_goals rfl

theorem recLinkUp_replying (hr : s.rec? i = some r) (h : r.replying) : ∃ r', (recLinkUp i s).rec? i = some r' ∧ r'.replying := by
  have of_state : ∀ {t : State}, (∃ r', t.rec? i = some r' ∧ r'.state = r.state) → ∃ r', t.rec? i = some r' ∧ r'.replying :=
    fun ⟨r', hr', e⟩ => ⟨r', hr', by unfold DestRec.replying; rw [e]; exact h⟩
  have resumed : ∃ r', (s.modRec i fun q => { q with timer := q.timer.resume }).rec? i = some r' ∧ r'.replying :=
    ⟨_, rec_modRec_self _ hr, h⟩
  by_cases hd : r.state = .delivered
  · rw [recLinkUp_delivered hr hd]
    cases hm : mayRelease s r with
    | false => rw [releaseCheck_fails hr hm]; exact ⟨r, hr, h⟩
    | true =>
      rw [releaseCheck_passes hr hm]
      obtain ⟨r', hr', e⟩ := sendRelease_state (s := enterReleasing i s) (applyChange_rec_self _ hr)
      exact ⟨r', hr', .inl e⟩
  · have h' : r.state = .releasing ∨ r.state = .withdrawing := h.imp id fun c => c.resolve_right hd
    by_cases hc : r.sendCount = 0
    · obtain hs | hs := h'
      · rw [recLinkUp_releasing hr hs hc]; exact of_state (sendRelease_state hr)
      · rw [recLinkUp_unsent hr hs hc]; exact of_state (sendWithdraw_state hr)
    · rw [recLinkUp_sent hr h' hc]; exact resumed

theorem moveRec_other (up : Bool) (h : i ≠ j) (s : State) : (moveRec up s j).rec? i = s.rec? i := by
  cases up with
  | true => exact (recLinkUp_poolOnly j s).others i h
  | false => exact (pauseTimer_poolOnly j s).others i h

theorem pauseTimer_rec (hr : s.rec? i = some r) : (pauseTimer i s).rec? i =
    some (if r.state = .releasing ∨ r.state = .withdrawing then { r with timer := r.timer.pause } else r) := rec_modRec_self _ hr

/-- A record that the step has nothing to do for stays as it is. -/
theorem moveRec_idle (up : Bool) (j : Nat) (hr : s.rec? i = some r) (h : ¬ r.replying) : (moveRec up s j).rec? i = some r := by
  by_cases e : i = j
  · subst e
    cases up with
    | true =>
      show (recLinkUp i s).rec? i = some r
      rw [recLinkUp_idle hr h, hr]
    | false =>
      show (pauseTimer i s).rec? i = some r
      rw [pauseTimer_rec hr, if_neg fun c => h (or_assoc.1 (.inl c))]
  · rw [moveRec_other up e, hr]

theorem moveRec_replying (up : Bool) (j : Nat) (hr : s.rec? i = some r) (h : r.replying) :
    ∃ r', (moveRec up s j).rec? i = some r' ∧ r'.replying := by
  by_cases e : i = j
  · subst e
    cases up with
    | true => exact recLinkUp_replying hr h
    | false =>
      refine ⟨_, pauseTimer_rec hr, ?_⟩
      split
      · exact h
      · exact h
  · exact ⟨r, (moveRec_other up e s).trans hr, h⟩

theorem moveRec_poolOnly (up : Bool) (s : State) (j : Nat) : PoolOnly (· = j) s (moveRec up s j) := by
  cases up with
  | true => exact recLinkUp_poolOnly j s
  | false => exact pauseTimer_poolOnly j s

theorem moveRec_acts (up : Bool) (s : State) (j : Nat) : Acts (aimedAt j) s (moveRec up s j) := by
  cases up with
  | true => exact recLinkUp_acts j trivial rfl (.refl s)
  | false => exact modRec_acts j _ rfl ⟨fun r => by split <;> rfl, fun r => by split <;> rfl, fun r => by split <;> rfl⟩ (.refl s)

theorem moveRec_passes (up : Bool) (j : Nat) (h : Off n s) : Passes n s (moveRec up s j) := by
  have c : Calm true s (moveRec up s j) := moveRec_calm up j (.refl s)
  have k := moveRec_poolOnly up s j
  have hwait : ∀ i r, s.rec? i = some r → r.waits → (moveRec up s j).rec? i = some r := fun i r hr hs =>
    moveRec_idle up j hr fun c => by obtain hs | hs := hs <;> rw [DestRec.replying, hs] at c <;> simp at c
  have hoff : Off n (moveRec up s j) := h.of (moveRec_keeps up j (.refl s)) c
  have htargets : SameTargets n s (moveRec up s j) := fun i r _ hs => by
    refine ⟨fun hr => hwait i r hr (.inr hs), fun hr => ?_⟩
    cases hq : s.rec? i with
    | none => rw [(moveRec_acts up s j).frame.unused i hq] at hr; cases hr
    | some q =>
      by_cases hrep : q.replying
      · obtain ⟨r', hr', hrep'⟩ := moveRec_replying up j hq hrep
        obtain rfl := Option.some.inj (hr.symm.trans hr')
        rw [DestRec.replying, hs] at hrep'
        simp at hrep'
      · exact (moveRec_idle up j hq hrep).symm.trans hr
  refine ⟨hoff, (moveRec_acts up s j).priced (fun _ => id) c, .of_links k.links fun x hx => ?_, fun l x _ hq => (k.links l).queue ▸ hq,
    (moveRec_acts up s j).frame.xferLine, fun i r hr _ hs => ⟨r.seq, hwait i r hr (.inl hs)⟩, htargets,
    (moveRec_acts up s j).frame.lates, fun sl hs hc => ?_⟩
  · cases x with
    | slot m => unfold seqOf xferKey; dsimp only; rw [k.line]
    | dest i =>
      obtain ⟨l, o⟩ := hx
      have hstand : ∃ r, s.rec? i = some r ∧ ¬ r.replying := by
        rcases o with o | o
        · obtain ⟨v, hv, hq, _⟩ := h.kept.ordered.waits l _ o
          obtain ⟨r, hr, rfl⟩ := Option.map_eq_some_iff.1 (show (s.rec? i).map _ = some v from hv)
          have hs : r.state = .queued := DestState.eq_queued hq
          exact ⟨r, hr, fun c => by rw [DestRec.replying, hs] at c; simp at c⟩
        · obtain ⟨v, hv, hq, _⟩ := h.kept.ordered.sends l _ o
          obtain ⟨r, hr, rfl⟩ := Option.map_eq_some_iff.1 (show (s.rec? i).map _ = some v from hv)
          have hs : r.state = .sending := DestState.eq_sending hq
          exact ⟨r, hr, fun c => by rw [DestRec.replying, hs] at c; simp at c⟩
      obtain ⟨r, hr, hrep⟩ := hstand
      unfold seqOf xferKey
      dsimp only
      rw [moveRec_idle up j hr hrep, hr]
  · have e : ((moveRec up s j).line n).slot = (s.line n).slot := by rw [k.line]
    exact ⟨e.trans hs, hc.of_same h.kept.recs_rising hoff.kept.recs_rising htargets k.pages e⟩

theorem foldl_passes {α : Type} {f : State → α → State} (hf : ∀ s x, Off n s → Passes n s (f s x)) (xs : List α) (h : Off n s) :
    Passes n s (xs.foldl f s) :=
  foldl_induct (P := Passes n s) xs (fun t x _ k => k.trans (hf t x k.off)) (.refl h)

/-! ### The owed withdrawal and the waiting frames (R62, R127 step 3) -/

/-- Control frames and what a line owes aside, all is as it was. -/
structure Owing (s t : State) : Prop where
  recs : t.recs = s.recs
  pages : t.pages = s.pages
  counters : t.counters = s.counters
  line : ∀ m, ∃ o, t.line m = { s.line m with owed := o }
  links : ∀ l, LinkStays (s.link l) (t.link l)

theorem Owing.refl (s : State) : Owing s s := ⟨rfl, rfl, rfl, fun _ => ⟨_, rfl⟩, fun _ => .refl _⟩

theorem Owing.trans (h : Owing s t) (k : Owing t u) : Owing s u where
  recs := k.recs.trans h.recs
  pages := k.pages.trans h.pages
  counters := k.counters.trans h.counters
  line m := by
    obtain ⟨o, e⟩ := h.line m
    obtain ⟨o', e'⟩ := k.line m
    exact ⟨o', by rw [e', e]⟩
  links l := (h.links l).trans (k.links l)

theorem offer_owing (l : LinkId) (f : CtlFrame) (s : State) : Owing s (offer l f s) := by
  have k := offer_still l f (.refl s)
  exact ⟨k.recs, k.pages, offer_counters l f s, fun m => ⟨_, k.line m⟩, k.links⟩

theorem modOwed_owing (n : LineId) (o : Option U16) (s : State) : Owing s (s.modLine n fun k => { k with owed := o }) := by
  refine ⟨rfl, rfl, rfl, fun m => ?_, fun _ => .refl _⟩
  rw [State.line_modLine]
  split
  · next e => exact ⟨o, by rw [e]⟩
  · exact ⟨_, rfl⟩

theorem sendOwedTarget_owing (n : LineId) (s : State) : Owing s (sendOwedTarget n s) := by
  unfold sendOwedTarget
  split
  · exact .refl s
  · split
    · exact (modOwed_owing n none s).trans (offer_owing _ _ _)
    · exact .refl s

theorem moveFrame_owing (new : LinkId) (s : State) (f : CtlFrame) : Owing s (moveFrame new s f) := by
  unfold moveFrame
  split
  · exact offer_owing _ _ _
  · split
    · exact modOwed_owing _ _ _
    all_goals exact .refl s

theorem dropControlOn_owing (l : LinkId) (p : CtlFrame → Bool) (s : State) : Owing s (dropControlOn l p s) := by
  have k := dropControlOn_still l p (.refl s)
  exact ⟨k.recs, k.pages, rfl, fun m => ⟨_, k.line m⟩, k.links⟩

theorem moveFrames_owing (n : LineId) (old new : LinkId) (fs : List CtlFrame) (s : State) : Owing s (moveFrames n old new fs s) :=
  foldl_induct (P := Owing s) fs (fun t f _ h => h.trans (moveFrame_owing new t f)) (dropControlOn_owing _ _ _)

theorem Owing.passes (k : Owing s t) (kl : Light s t) (c : Calm true s t) (h : Off n s) : Passes n s t := by
  have hrec : ∀ i, t.rec? i = s.rec? i := fun i => by unfold State.rec?; rw [k.recs]
  have hcat : ∀ m, (t.line m).catalog = (s.line m).catalog := fun m => by obtain ⟨o, e⟩ := k.line m; rw [e]
  have hslot : (t.line n).slot = (s.line n).slot := by obtain ⟨o, e⟩ := k.line n; rw [e]
  have ht : SameTargets n s t := fun i r _ _ => by rw [hrec]
  have hoff : Off n t := ⟨kl.kept h.kept, c.unready h.unready⟩
  exact ⟨hoff, ⟨k.pages, fun m => (c.lineKeeps m).cfg, hcat, fun l => (c.linkKeeps l).rate, fun l => (c.linkKeeps l).guardMs⟩,
    kl.follows, fun l x _ hq => (k.links l).queue ▸ hq, xferLine_recs k.recs, fun i r hr _ _ => ⟨r.seq, (hrec i).trans hr⟩, ht,
    by rw [k.counters], fun sl hs hc => ⟨hslot.trans hs, hc.of_same h.kept.recs_rising hoff.kept.recs_rising ht k.pages hslot⟩⟩

theorem sendOwedTarget_passes (h : Off n s) : Passes n s (sendOwedTarget n s) :=
  (sendOwedTarget_owing n s).passes (sendOwedTarget_light n (.refl s)) (sendOwedTarget_calm n (.refl s)) h

theorem moveFrames_passes (old new : LinkId) (fs : List CtlFrame) (h : Off n s) : Passes n s (moveFrames n old new fs s) :=
  (moveFrames_owing n old new fs s).passes (moveFrames_light n old new fs (.refl s)) (moveFrames_calm n old new fs (.refl s)) h

/-! ### A new path after a change of link (R89) -/

/-- A new path has nothing to compute for records whose L is as their inputs give it. -/
theorem repath_current (hk : s.Kept) (h : ∀ i r, s.rec? i = some r → r.line = n → r.waits → recLatestStart s r = r.latestStart) :
    repath n s = reexamine n s := by
  have e : (waitingRecs s n).foldl repathRec s = s := by
    refine foldl_induct (P := fun t => t = s) _ (fun t i hi ht => ?_) rfl
    subst ht
    obtain ⟨⟨j, q⟩, he, rfl⟩ := List.mem_map.1 (List.mem_filter.1 hi).1
    obtain ⟨hm, hl⟩ := List.mem_filter.1 he
    have hq : t.rec? j = some q := Table.get_of_mem hk.recs_rising hm
    have hl : q.line = n := beq_iff_eq.1 hl
    unfold repathRec
    rw [hq]
    exact if_pos (h j q hq hl ((mem_waitingRecs hq hl).1 hi))
  unfold repath
  rw [e]

end Sys2Proof.Machine
end

section
/-! A line's transfers moved one by one from one link's queue to another's: their order of arrival, their keys, and the predicted
lates they make (R72, R75, R89). -/

namespace Sys2Proof.Machine

variable {b s t u : State} {n m : LineId} {i j : Nat} {r : DestRec} {l old new : LinkId} {x y z : Xfer} {sl : Slot}
  {home routes : LinkId → LineId → Prop} {loose : Xfer → Prop} {rest done : List Xfer}

/-! ### Sequences alone -/

/-- Records and slots are as they were but for their sequences. -/
structure Reseq (s t : State) : Prop where
  recs : ∀ i r, s.rec? i = some r → ∃ v, t.rec? i = some { r with seq := v }
  slots : ∀ m sl, (s.line m).slot = some sl → ∃ v, (t.line m).slot = some { sl with seq := v }

theorem Reseq.refl (s : State) : Reseq s s := ⟨fun _ r hr => ⟨r.seq, hr⟩, fun _ sl hs => ⟨sl.seq, hs⟩⟩

theorem Reseq.trans (h : Reseq s t) (k : Reseq t u) : Reseq s u where
  recs i r hr := by
    obtain ⟨v, hv⟩ := h.recs i r hr
    obtain ⟨w, hw⟩ := k.recs i _ hv
    exact ⟨w, hw⟩
  slots m sl hs := by
    obtain ⟨v, hv⟩ := h.slots m sl hs
    obtain ⟨w, hw⟩ := k.slots m _ hv
    exact ⟨w, hw⟩

theorem Reseq.latest (h : Reseq s t) (hx : ∃ k, s.layout.stand x = some k) : (xferKey t x).l = (xferKey s x).l := by
  obtain ⟨k, hk⟩ := hx
  cases x with
  | dest i =>
    obtain ⟨r, hr, -⟩ := Option.map_eq_some_iff.1 (show (s.rec? i).map _ = some k from hk)
    obtain ⟨v, hv⟩ := h.recs i r hr
    unfold xferKey
    dsimp only
    rw [hr, hv]
  | slot m =>
    obtain ⟨sl, hs, -⟩ := Option.map_eq_some_iff.1 (show (s.line m).slot.map _ = some k from hk)
    obtain ⟨v, hv⟩ := h.slots m sl hs
    unfold xferKey
    dsimp only
    rw [hs, hv]

theorem setSeq_reseq (x : Xfer) (q : Nat) (s : State) : Reseq s (setSeq x q s) := by
  refine ⟨fun i r hr => setSeq_rec x q hr, fun m sl hs => ?_⟩
  cases x with
  | dest i => exact ⟨sl.seq, hs⟩
  | slot k =>
    have e := modSlot_slot s k m fun sl => { sl with seq := q }
    by_cases hm : m = k
    · subst hm; rw [if_pos rfl, hs] at e; exact ⟨q, e⟩
    · rw [if_neg hm] at e; exact ⟨sl.seq, e.trans hs⟩

theorem takeSeq_reseq (x : Xfer) (s : State) : Reseq s (takeSeq x s) := by
  have hroom : Reseq s (roomForSeq s) := by
    unfold roomForSeq
    split
    · exact ⟨fun _ _ hr => renumberFrom_rec 0 _ hr, fun _ _ hs => renumberFrom_slot 0 _ hs⟩
    · exact .refl s
  have hset := setSeq_reseq x (roomForSeq s).seqNext (roomForSeq s)
  exact hroom.trans ⟨hset.recs, hset.slots⟩

theorem Still.reseq (h : Still s t) : Reseq s t :=
  ⟨fun i r hr => ⟨r.seq, (h.rec? i).trans hr⟩, fun m sl hs => ⟨sl.seq, (congrArg Line.slot (h.line m)).trans hs⟩⟩

theorem modLink_reseq (l : LinkId) (f : Link → Link) (s : State) : Reseq s (s.modLink l f) :=
  ⟨fun _ r hr => ⟨r.seq, hr⟩, fun _ sl hs => ⟨sl.seq, hs⟩⟩

theorem joinQueue_reseq (l : LinkId) (x : Xfer) (s : State) : Reseq s (joinQueue l x s) := by
  rw [joinQueue_eq]
  exact (takeSeq_reseq x s).trans ((modLink_reseq l _ _).trans (schedMirror_still l (countLate_still _ _)).reseq)

theorem leaveQueue_reseq (l : LinkId) (x : Xfer) (s : State) : Reseq s (leaveQueue l x s) := by
  unfold leaveQueue
  split
  · exact (modLink_reseq l _ s).trans (schedMirror_still l (.refl _)).reseq
  · exact .refl s

theorem moveXfer_reseq (old new : LinkId) (x : Xfer) (s : State) : Reseq s (moveXfer old new s x) :=
  (leaveQueue_reseq old x s).trans (joinQueue_reseq new x _)

theorem foldl_moveXfer_reseq (old new : LinkId) (xs : List Xfer) (s : State) : Reseq s (xs.foldl (moveXfer old new) s) :=
  foldl_induct (P := Reseq s) xs (fun t x _ h => h.trans (moveXfer_reseq old new x t)) (.refl s)

/-! ### Predicted lates (R72) -/

theorem deskWrite_counters (o : Nat) (bytes : List Byte) (s : State) : (deskWrite o bytes s).counters = s.counters := by
  obtain ⟨f, w, e⟩ := deskWrite_outward o bytes s
  rw [e]

theorem leaveQueue_counters (l : LinkId) (x : Xfer) (s : State) : (leaveQueue l x s).counters = s.counters := by
  unfold leaveQueue
  split
  · exact deskWrite_counters _ _ _
  · rfl

theorem joinQueue_counters (l : LinkId) (x : Xfer) (s : State) : (joinQueue l x s).counters =
    if (xferKey (enqueue l x (takeSeq x s)) x).l < (enqueue l x (takeSeq x s)).clock.value
    then (enqueue l x (takeSeq x s)).counters.bump .predictedLates else (enqueue l x (takeSeq x s)).counters := by
  rw [joinQueue_eq, schedMirror, writeLinkMirror, deskWrite_counters]
  unfold countLate
  split
  · exact bumpCounter_counters _ _
  · rfl

theorem renumberFrom_counters (q : Nat) (xs : List Xfer) (s : State) : (renumberFrom q xs s).counters = s.counters := by
  induction xs generalizing q s with
  | nil => rfl
  | cons x xs ih => exact (ih (q + 1) (setSeq x q s)).trans (by cases x <;> rfl)

theorem takeSeq_counters (x : Xfer) (s : State) : (takeSeq x s).counters = s.counters := by
  have hroom : (roomForSeq s).counters = s.counters := by
    unfold roomForSeq
    split
    · exact renumberFrom_counters 0 (sequenced s) s
    · rfl
  refine Eq.trans ?_ hroom
  unfold takeSeq
  cases x <;> rfl

theorem satAdd_toNat (c : U32) (k : Nat) : (satAdd c k).toNat = min (c.toNat + k) 4294967295 := by
  unfold satAdd
  rw [BitVec.toNat_ofNat]
  exact Nat.mod_eq_of_lt (by omega)

/-- The transfers of a list whose L has passed. -/
def lateOf (s : State) (xs : List Xfer) : List Xfer := xs.filter fun x => decide ((xferKey s x).l < s.clock.value)

theorem moveXfer_lates (old new : LinkId) (hx : ∃ k, s.layout.stand x = some k) :
    (satAdd s.counters.predictedLates (lateOf s [x]).length).toNat ≤ (moveXfer old new s x).counters.predictedLates.toNat := by
  obtain ⟨k, hk⟩ := hx
  have hseq : Reseq s (enqueue new x (takeSeq x (leaveQueue old x s))) :=
    (leaveQueue_reseq old x s).trans ((takeSeq_reseq x _).trans (modLink_reseq new _ _))
  have hclock : (enqueue new x (takeSeq x (leaveQueue old x s))).clock = s.clock :=
    Acts.frame (a := { xfer := fun _ => True }) (enqueue_acts new x trivial (takeSeq_acts x trivial (.inl trivial)
      (leaveQueue_acts old x (.refl s)))) |>.clock
  have hcount : (enqueue new x (takeSeq x (leaveQueue old x s))).counters = s.counters :=
    (takeSeq_counters x _).trans (leaveQueue_counters old x s)
  have := s.counters.predictedLates.isLt
  rw [moveXfer, joinQueue_counters, hseq.latest ⟨k, hk⟩, hclock, hcount, satAdd_toNat, lateOf, List.filter_singleton]
  by_cases h : (xferKey s x).l < s.clock.value
  · rw [if_pos h, decide_eq_true h]
    show _ ≤ (satInc s.counters.predictedLates).toNat
    rw [satInc, satAdd_toNat]
    exact le_rfl
  · rw [if_neg h, decide_eq_false h]
    show min (_ + 0) _ ≤ _
    omega

theorem moveXfer_clock (old new : LinkId) (x : Xfer) (s : State) : (moveXfer old new s x).clock = s.clock :=
  Acts.frame (a := { xfer := fun _ => True }) (joinQueue_acts new x trivial (.inl trivial) (leaveQueue_acts old x (.refl s))) |>.clock

theorem moveXfer_stand_some (old new : LinkId) (hy : ∃ k, s.layout.stand y = some k) : ∃ k, (moveXfer old new s x).layout.stand y = some k := by
  obtain ⟨k, hk⟩ := hy
  have h := (joinQueue_frame new x (leaveQueue old x s)).2.2.2 y
  rw [leaveQueue_stand, hk] at h
  exact (Option.map_eq_some_iff.1 h).imp fun _ h => h.1

theorem foldl_moveXfer_lates (old new : LinkId) (xs : List Xfer) (h : ∀ x ∈ xs, ∃ k, s.layout.stand x = some k) :
    (satAdd s.counters.predictedLates (lateOf s xs).length).toNat ≤ (xs.foldl (moveXfer old new) s).counters.predictedLates.toNat := by
  induction xs generalizing s with
  | nil =>
    rw [satAdd_toNat]
    exact Nat.min_le_left _ _
  | cons x xs ih =>
    have hrest : lateOf (moveXfer old new s x) xs = lateOf s xs := List.filter_congr fun y hy => by
      rw [moveXfer_clock, (moveXfer_reseq old new x s).latest (h y (.tail _ hy))]
    have h1 := moveXfer_lates old new (h x (.head _))
    have h2 := ih (s := moveXfer old new s x) fun y hy => moveXfer_stand_some old new (h y (.tail _ hy))
    have hcons : (lateOf s (x :: xs)).length = (lateOf s [x]).length + (lateOf s xs).length := by
      rw [← List.length_append, lateOf, lateOf, lateOf, ← List.filter_append]
      rfl
    rw [hrest] at h2
    rw [satAdd_toNat] at h1 h2 ⊢
    refine le_trans ?_ h2
    omega

/-! ### The order of arrival (R75) -/

theorem moveXfer_queue_new (hne : new ≠ old) (x : Xfer) (hy : y ∈ (s.link new).queue) : y ∈ ((moveXfer old new s x).link new).queue := by
  refine (mem_joinQueue new x _ new).2 (.inr ?_)
  rw [(leaveQueue_links old x s new).1, if_neg hne]
  exact hy

/-- A transfer that changes its queue stands in the new one behind all that stood somewhere, whose order is kept. -/
structure Arrives (new : LinkId) (x : Xfer) (s t : State) : Prop where
  stands : ∀ y, s.Stands y → t.Stands y
  seqs : ∀ y z, y ≠ x → z ≠ x → s.Stands y → s.Stands z → seqOf s y < seqOf s z → seqOf t y < seqOf t z
  here : x ∈ (t.link new).queue
  last : ∀ y, y ≠ x → s.Stands y → seqOf t y < seqOf t x

theorem moveXfer_arrives (h : s.Laid home loose) (hx : x ∈ (s.link old).queue) : Arrives new x s (moveXfer old new s x) := by
  have hidle : (leaveQueue old x s).layout.Idle x := fun m => by
    refine ⟨fun c => ?_, fun c => h.ordered.not_sending (m := m) hx ((leaveQueue_links old x s m).2.symm.trans c)⟩
    have c : x ∈ ((leaveQueue old x s).link m).queue := c
    rw [(leaveQueue_links old x s m).1] at c
    split at c
    · simp at c
    · next e => exact e (h.ordered.oneQueue m old x c hx)
  have hstand : ∃ k, (leaveQueue old x s).layout.stand x = some k := by
    obtain ⟨k, hk, -⟩ := h.ordered.waits old x hx
    exact ⟨k, (leaveQueue_stand _ _ _ _).trans hk⟩
  have k := joinQueue_joined new (leaveQueue_laid old x h) hidle hstand
  have hleft : ∀ y, y ≠ x → s.Stands y → (leaveQueue old x s).Stands y := fun y hne ⟨m, o⟩ => by
    refine ⟨m, o.imp (fun c => ?_) fun c => (leaveQueue_links old x s m).2.trans c⟩
    show y ∈ ((leaveQueue old x s).link m).queue
    rw [(leaveQueue_links old x s m).1]
    split
    · next e => subst e; exact List.mem_filter.2 ⟨c, bne_iff_ne.2 hne⟩
    · exact c
  have hseq : ∀ y, seqOf (leaveQueue old x s) y = seqOf s y := fun y => by
    rw [seqOf_eq, seqOf_eq, Layout.key_congr (leaveQueue_stand old x y s)]
  refine ⟨fun y hy => ?_, fun y z hy hz sy sz hlt => ?_, k.here, fun y hy sy => k.last y (hleft y hy sy)⟩
  · by_cases e : y = x
    · subst e; exact ⟨new, .inl k.here⟩
    · exact k.stands y (hleft y e hy)
  · exact k.seqs y z (hleft y hy sy) (hleft z hz sz) (by rw [hseq, hseq]; exact hlt)

/-- Transfers that have changed their queue stand in the new one in the order they had, and behind all the others. -/
structure Moved (new : LinkId) (done : List Xfer) (s t : State) : Prop where
  stands : ∀ y, s.Stands y → t.Stands y
  among : ∀ x ∈ done, ∀ y ∈ done, seqOf s x < seqOf s y → seqOf t x < seqOf t y
  behind : ∀ x ∈ done, ∀ y, s.Stands y → y ∉ done → seqOf t y < seqOf t x
  here : ∀ x ∈ done, x ∈ (t.link new).queue

theorem Moved.arrives (hne : new ≠ old) (h : Moved new done s t) (k : Arrives new x t (moveXfer old new t x)) (hx : s.Stands x)
    (hd : ∀ y ∈ done, seqOf s y < seqOf s x) : Moved new (x :: done) s (moveXfer old new t x) := by
  have hout : ∀ y ∈ done, y ≠ x := fun y hy e => Nat.lt_irrefl _ (e ▸ hd y hy)
  have hstand : ∀ y ∈ done, t.Stands y := fun y hy => ⟨new, .inl (h.here y hy)⟩
  refine ⟨fun y hy => k.stands y (h.stands y hy), fun y hy z hz hlt => ?_, fun y hy z hz hn => ?_, fun y hy => ?_⟩
  · obtain e | hy' := List.mem_cons.1 hy
    · subst e
      obtain e | hz' := List.mem_cons.1 hz
      · exact absurd hlt (e ▸ Nat.lt_irrefl _)
      · exact absurd hlt (Nat.lt_asymm (hd z hz'))
    · obtain e | hz' := List.mem_cons.1 hz
      · exact e ▸ k.last y (hout y hy') (hstand y hy')
      · exact k.seqs y z (hout y hy') (hout z hz') (hstand y hy') (hstand z hz') (h.among y hy' z hz' hlt)
  · obtain ⟨hzx, hzd⟩ := not_or.1 fun c => hn (List.mem_cons.2 c)
    obtain rfl | hy := List.mem_cons.1 hy
    · exact k.last z hzx (h.stands z hz)
    · exact k.seqs z y hzx (hout y hy) (h.stands z hz) (hstand y hy) (h.behind y hy z hz hzd)
  · obtain rfl | hy := List.mem_cons.1 hy
    · exact k.here
    · exact moveXfer_queue_new hne x (h.here y hy)

theorem foldl_moveXfer_moved (hne : new ≠ old) (hm : Moving n old new routes rest t) (h : Moved new done s t)
    (hs : ∀ x ∈ rest, s.Stands x) (ho : rest.Pairwise (SeqBefore s)) (hd : ∀ y ∈ done, ∀ x ∈ rest, seqOf s y < seqOf s x) :
    Moved new (rest.reverse ++ done) s (rest.foldl (moveXfer old new) t) := by
  induction rest generalizing done t with
  | nil => exact h
  | cons x rest ih =>
    obtain ⟨hx, ho⟩ := List.pairwise_cons.1 ho
    have k := h.arrives hne (moveXfer_arrives hm.laid (hm.here x (.head _)).1) (hs x (.head _)) fun y hy => hd y hy x (.head _)
    rw [List.reverse_cons, List.append_assoc]
    refine ih (moveXfer_moving hne hm) k (fun y hy => hs y (.tail _ hy)) ho fun y hy z hz => ?_
    obtain rfl | hy := List.mem_cons.1 hy
    · exact hx z hz
    · exact hd y hy z (.tail _ hz)

end Sys2Proof.Machine
end

section
/-! The queues' part of a change of link as a whole (R72, R74, R75, R89). -/

namespace Sys2Proof.Machine

variable {b s t u v : State} {n m : LineId} {i j : Nat} {r : DestRec} {old new : LinkId} {x y : Xfer} {sl : Slot}

/-! ### The moves of a line routed anew -/

/-- The transfers of a line, wherever they stand. -/
abbrev OfLine (n : LineId) (s : State) (x : Xfer) : Prop := ∀ k, s.layout.stand x = some k → k.line = n

theorem rekeyed_aged (h : Rerouted n old new s) :
    Aged (fun l m => m ≠ n ∧ s.routes l m ∨ m = n ∧ l = old) (OfLine n s) s (rekeyed n s) := by
  have h0 : Aged (fun l m => m ≠ n ∧ s.routes l m ∨ m = n ∧ l = old) (OfLine n s) s s :=
    ⟨rfl, fun _ => rfl, fun _ => rfl, h.laid.ordered.mono (fun _ _ p => p) fun _ _ _ c => c.elim, h.laid.pool⟩
  refine recomputeSlot_aged (fun k hk => ?_) (foldl_updateL_aged (waitingRecs s n) (fun i hi k hk => ?_) h0)
  · obtain ⟨_, -, rfl⟩ := Option.map_eq_some_iff.1 (show (s.line n).slot.map _ = some k from hk)
    rfl
  · obtain ⟨⟨j, q⟩, he, rfl⟩ := List.mem_map.1 (List.mem_filter.1 hi).1
    obtain ⟨hm, hl⟩ := List.mem_filter.1 he
    rw [stand_dest (Table.get_of_mem h.laid.recs_rising hm)] at hk
    cases hk
    exact beq_iff_eq.1 hl

theorem rekeyed_moving (h : Rerouted n old new s) :
    Moving n old new s.routes (movers (rekeyed n s) old n) (rekeyed n s) := by
  have k := rekeyed_aged h
  obtain ⟨hnd, hmem⟩ := movers_spec (n := n) (old := old) k.laid
  refine ⟨⟨k.laid.ordered.mono (fun l m p => p.imp id fun ⟨e, e'⟩ => ⟨e, .inl e'⟩) fun l x hx c => ?_, k.laid.pool⟩,
    fun x hx => (hmem x).1 hx, fun x hx ha => (hmem x).2 ⟨hx, ha⟩, fun l x hx ha => ?_, hnd⟩
  · obtain ⟨st, hst, -, hh⟩ := k.laid.ordered.waits l x hx
    obtain ⟨st', hst', e⟩ := Option.map_eq_some_iff.1 ((k.stand x).symm.trans (congrArg (Option.map Stand.line) hst))
    have hn : st.line = n := e.symm.trans (c st' hst')
    have hl : l = old := (hh.resolve_left fun c => c.1 hn).2
    exact (hmem x).2 ⟨hl ▸ hx, (atLine_iff hst).2 hn⟩
  · refine h.unsent l x ((congrArg Link.sending (k.links l)).symm.trans hx) ?_
    unfold State.AtLine at ha ⊢
    rw [← k.stand]
    exact ha

theorem shifted_kept (hne : new ≠ old) (h : Rerouted n old new s) : (shifted n old new (rekeyed n s)).Kept := by
  have hend := foldl_moveXfer_moving _ hne (rekeyed_moving h)
  have hroutes : (shifted n old new (rekeyed n s)).routes = s.routes :=
    (foldl_moveXfer_routes old new _ _).trans (rekeyed_aged h).routes
  refine ⟨(hend.laid.ordered.mono (fun _ _ p => p) fun _ _ _ c => by cases c).rehome fun l x k o hk hh => ?_, hend.laid.pool⟩
  show (shifted n old new (rekeyed n s)).routes l k.line
  rw [hroutes]
  rcases hh with ⟨-, hh⟩ | ⟨hkn, e | e⟩
  · exact hh
  · subst e
    rcases o with o | o
    · exact absurd (hend.only x o ((atLine_iff hk).2 hkn)) List.not_mem_nil
    · exact absurd ((atLine_iff hk).2 hkn) (hend.unsent l x o)
  · subst e
    rw [hkn]
    exact h.now

/-! ### The movers, as the order finds them -/

theorem updateL_seq (j : Nat) (x : Xfer) (s : State) : seqOf (updateL j s) x = seqOf s x := by
  cases x with
  | slot m => rw [updateL_only]; rfl
  | dest i =>
    unfold seqOf xferKey
    dsimp only
    by_cases e : i = j
    · subst e
      cases hr : s.rec? i with
      | none => unfold updateL; rw [hr]; dsimp only; rw [hr]
      | some r => rw [updateL_rec hr]
    · rw [updateL_rec_ne e]

theorem recomputeSlot_seq (n : LineId) (x : Xfer) (s : State) : seqOf (recomputeSlot n s) x = seqOf s x := by
  unfold recomputeSlot
  split
  · rfl
  · refine modSlot_seq n ?_ x s
    exact fun _ => rfl

theorem rekeyed_seq (n : LineId) (x : Xfer) (s : State) : seqOf (rekeyed n s) x = seqOf s x :=
  (recomputeSlot_seq n x _).trans
    (foldl_induct (P := fun t => seqOf t x = seqOf s x) _ (fun t j _ h => (updateL_seq j x t).trans h) rfl)

theorem rekeyed_stands (n : LineId) (x : Xfer) (s : State) : (rekeyed n s).Stands x ↔ s.Stands x :=
  stands_of_links (fun l => by rw [rekeyed_link]; exact ⟨rfl, rfl⟩) x

theorem mem_movers (h : Rerouted n old new s) : x ∈ movers (rekeyed n s) old n ↔ x ∈ (s.link old).queue ∧ xferLine s x = some n := by
  have k := rekeyed_aged h
  rw [(movers_spec k.laid).2 x, rekeyed_link]
  refine and_congr_right fun hx => ?_
  obtain ⟨st, hst, -⟩ := h.laid.ordered.waits old x hx
  rw [xferLine_iff hst]
  unfold State.AtLine
  rw [k.stand]

theorem movers_sorted (h : Rerouted n old new s) : (movers (rekeyed n s) old n).Pairwise (SeqBefore (rekeyed n s)) ∧
    (movers (rekeyed n s) old n).Perm ((s.link old).queue.filter fun x => xferLine s x == some n) := by
  have k := rekeyed_aged h
  have hn : (((rekeyed n s).link old).queue.filter fun x => xferLine (rekeyed n s) x == some n).Nodup :=
    (k.laid.ordered.nodup old).sublist List.filter_sublist
  obtain ⟨hp, hs⟩ := foldl_insertBySeq_spec (s := rekeyed n s) hn fun x hx y hy hxy => by
    rw [xferKey_eq, xferKey_eq]
    exact k.laid.ordered.sequence old old x y (.inl (List.mem_filter.1 hx).1) (.inl (List.mem_filter.1 hy).1) hxy
  refine ⟨hs, hp.trans ?_⟩
  rw [rekeyed_link]
  refine .of_eq (List.filter_congr fun x hx => ?_)
  obtain ⟨st, hst, -⟩ := h.laid.ordered.waits old x hx
  obtain ⟨st', hst', -⟩ := k.laid.ordered.waits old x (by show x ∈ ((rekeyed n s).link old).queue; rw [rekeyed_link]; exact hx)
  rw [Bool.eq_iff_iff, beq_iff_eq, beq_iff_eq, xferLine_iff hst, xferLine_iff hst']
  unfold State.AtLine
  rw [k.stand]

theorem shifted_moved (hne : new ≠ old) (h : Rerouted n old new s) :
    Moved new (movers (rekeyed n s) old n).reverse (rekeyed n s) (shifted n old new (rekeyed n s)) := by
  have k := foldl_moveXfer_moved (done := []) (s := rekeyed n s) hne (rekeyed_moving h)
    ⟨fun _ => id, nofun, nofun, nofun⟩ (fun x hx => ⟨old, .inl ?_⟩) (movers_sorted h).1 nofun
  · rw [List.append_nil] at k
    exact k
  · show x ∈ ((rekeyed n s).link old).queue
    rw [rekeyed_link]
    exact ((mem_movers h).1 hx).1

/-! ### What the moves leave of the line's transfers -/

/-- Aimed at the listed transfers alone. -/
def shifting (xs : List Xfer) : Aim where
  xfer x := x ∈ xs
  line _ := False
  keys _ := False
  frames := False

theorem foldl_moveXfer_shifting (old new : LinkId) (xs : List Xfer) (s : State) : Acts (shifting xs) s (xs.foldl (moveXfer old new) s) :=
  foldl_acts _ xs (fun _ x hx h => joinQueue_acts new x hx (.inl trivial) (leaveQueue_acts old x h)) (.refl s)

theorem shifted_shifting (n : LineId) (old new : LinkId) (s : State) :
    Acts (shifting (movers s old n)) s (shifted n old new s) := foldl_moveXfer_shifting old new _ s

theorem shifted_reseq (n : LineId) (old new : LinkId) (s : State) : Reseq s (shifted n old new s) := foldl_moveXfer_reseq old new _ s

theorem shifted_priced (n : LineId) (old new : LinkId) (s : State) : Priced s (shifted n old new s) :=
  (shifted_shifting n old new s).priced (fun _ => id) (shifted_calm (q := false) n old new s)

theorem rekeyed_idle (h : Rerouted n old new s) (hr : s.rec? i = some r) (hl : r.line = n) (ha : r.state.standing = .apart) :
    (rekeyed n s).layout.Idle (.dest i) := by
  refine (rekeyed_aged h).laid.ordered.idle_of_apart fun k hk => ?_
  rw [stand_dest (rekeyed_rec hr hl)] at hk
  cases hk
  show (r.repriced s).state.standing = .apart
  unfold DestRec.repriced
  split
  · exact ha
  · exact ha

/-- A record of the line that stands in no queue has its L anew and nothing else. -/
theorem shifted_rec_idle (h : Rerouted n old new s) (hr : s.rec? i = some r) (hl : r.line = n) (ha : r.state.standing = .apart) :
    (shifted n old new (rekeyed n s)).rec? i = some (r.repriced s) := by
  have hidle := rekeyed_idle h hr hl ha
  rw [(shifted_shifting n old new _).dest_idle (fun hm => ?_) hidle, rekeyed_rec hr hl]
  have hq := (mem_movers h).1 hm
  refine (hidle old).1 ?_
  show Xfer.dest i ∈ ((rekeyed n s).link old).queue
  rw [rekeyed_link]
  exact hq.1

theorem shifted_targets (h : Rerouted n old new s) : SameTargets n (rekeyed n s) (shifted n old new (rekeyed n s)) := by
  have hidle : ∀ i r, r.state = .targetWait → (rekeyed n s).rec? i = some r → (rekeyed n s).layout.Idle (.dest i) := fun i r hs hr =>
    (rekeyed_aged h).laid.ordered.idle_of_apart fun k hk => by
      rw [stand_dest hr] at hk
      cases hk
      show r.state.standing = .apart
      rw [hs]
      rfl
  have forth : ∀ i r, r.state = .targetWait → (rekeyed n s).rec? i = some r → (shifted n old new (rekeyed n s)).rec? i = some r :=
    fun i r hs hr => by
      rw [(shifted_shifting n old new _).dest_idle (fun hm => ?_) (hidle i r hs hr), hr]
      refine (hidle i r hs hr old).1 ?_
      show Xfer.dest i ∈ ((rekeyed n s).link old).queue
      rw [rekeyed_link]
      exact ((mem_movers h).1 hm).1
  refine fun i r hl hs => ⟨forth i r hs, fun hr => ?_⟩
  cases hq : (rekeyed n s).rec? i with
  | none =>
    rw [(shifted_shifting n old new _).frame.unused i hq] at hr
    cases hr
  | some q =>
    obtain ⟨v, hv⟩ := (shifted_reseq n old new _).recs i q hq
    obtain rfl := Option.some.inj (hr.symm.trans hv)
    have := forth i q hs hq
    rw [← hr, this]

/-- The line's slot with its keys as its claimants give them (R56). -/
def Slot.rekeyed (n : LineId) (s : State) (sl : Slot) : Slot :=
  { sl with latestStart := slotLatestStart s n sl.generation, urgent := slotUrgent s n sl.generation }

theorem rekeyed_slot (h : Rerouted n old new s) (hs : (s.line n).slot = some sl) :
    ((rekeyed n s).line n).slot = some (sl.rekeyed n (rekeyed n s)) := by
  have hrising := (rekeyed_aged h).laid.recs_rising
  have hrecs := rekeyed_recs n s
  have hslot : ((((waitingRecs s n).foldl (fun s i => updateL i s) s)).line n).slot = some sl := by
    rw [foldl_updateL_only]
    exact hs
  unfold Machine.rekeyed at hrising hrecs ⊢
  generalize (waitingRecs s n).foldl (fun s i => updateL i s) s = t at hrising hrecs hslot ⊢
  have hpages : (recomputeSlot n t).pages = t.pages := by rw [recomputeSlot_only]
  have hsame : SameTargets n t (recomputeSlot n t) := fun i r _ _ => by unfold State.rec?; rw [hrecs]
  obtain ⟨h1, h2⟩ := slotKeys_same (hrecs ▸ hrising) hrising hsame hpages sl.generation
  rw [recomputeSlot_slot, if_pos rfl, hslot, Slot.rekeyed, h1, h2]
  rfl

/-- What the moves make of the line's slot, whose keys are then as its claimants give them. -/
theorem shifted_slot (h : Rerouted n old new s) (hk : (shifted n old new (rekeyed n s)).Kept) (hs : (s.line n).slot = some sl) :
    (∃ v, ((shifted n old new (rekeyed n s)).line n).slot = some { sl.rekeyed n (shifted n old new (rekeyed n s)) with seq := v }) ∧
      Current n (shifted n old new (rekeyed n s)) := by
  have hslot := rekeyed_slot h hs
  have hsame := slotKeys_same (rekeyed_aged h).laid.recs_rising hk.recs_rising (shifted_targets h)
    (shifted_shifting n old new (rekeyed n s)).frame.pages sl.generation
  have hseq := (shifted_reseq n old new (rekeyed n s)).slots n
  generalize rekeyed n s = k at hslot hsame hseq
  obtain ⟨v, hv⟩ := hseq _ hslot
  rw [Slot.rekeyed, ← hsame.1, ← hsame.2] at hv
  refine ⟨⟨v, hv⟩, fun sl' hs' => ?_⟩
  obtain rfl := Option.some.inj (hs'.symm.trans hv)
  exact ⟨rfl, rfl⟩

/-! ### A change of link -/

theorem rekeyed_xferLine (n : LineId) (x : Xfer) (s : State) : xferLine (rekeyed n s) x = xferLine s x := by
  have k : Acts { xfer := fun _ => True } s ((waitingRecs s n).foldl (fun s i => updateL i s) s) :=
    foldl_acts _ _ (fun _ j _ h => updateL_acts j trivial h) (.refl s)
  exact (xferLine_recs (rekeyed_recs n s) x).trans (k.frame.xferLine x)

theorem shifted_xferLine (n : LineId) (old new : LinkId) (x : Xfer) (s : State) :
    xferLine (shifted n old new (rekeyed n s)) x = xferLine s x :=
  ((shifted_shifting n old new _).frame.xferLine x).trans (rekeyed_xferLine n x s)

/-- A transfer that has moved has the L that it was given. -/
theorem Passes.latest (h : Passes n s t) (hk : s.Kept) {l : LinkId} (hx : x ∈ (s.link l).queue) (hl : xferLine s x = some n)
    (hc : x = .slot n → Current n s) : (xferKey t x).l = (xferKey s x).l := by
  obtain ⟨k, hst, hq, -⟩ := hk.ordered.waits l x hx
  cases x with
  | dest i =>
    obtain ⟨r, hr, rfl⟩ := Option.map_eq_some_iff.1 (show (s.rec? i).map _ = some k from hst)
    have hn : r.line = n := Option.some.inj ((xferLine_dest hr).symm.trans hl)
    obtain ⟨v, hv⟩ := h.waits i r hr hn (DestState.eq_queued hq)
    unfold xferKey
    dsimp only
    rw [hr, hv]
  | slot m =>
    obtain rfl : m = n := Option.some.inj hl
    obtain ⟨sl, hs, -⟩ := Option.map_eq_some_iff.1 (show (s.line m).slot.map _ = some k from hst)
    unfold xferKey
    dsimp only
    rw [hs, (h.slot sl hs (hc rfl)).1]

theorem shifted_lates (h : Rerouted n old new s) : (satAdd s.counters.predictedLates ((s.link old).queue.filter fun x =>
    xferLine s x == some n && decide ((xferKey (rekeyed n s) x).l < s.clock.value)).length).toNat ≤
    (shifted n old new (rekeyed n s)).counters.predictedLates.toNat := by
  have hclock : (rekeyed n s).clock = s.clock := by rw [rekeyed_only]
  have hcount : (rekeyed n s).counters = s.counters := by rw [rekeyed_only]
  have k := foldl_moveXfer_lates old new (s := rekeyed n s) (movers (rekeyed n s) old n) fun x hx => by
    obtain ⟨hx, -⟩ := (movers_spec (rekeyed_aged h).laid).2 x |>.1 hx
    exact ((rekeyed_aged h).laid.ordered.waits old x hx).imp fun _ h => h.1
  rw [hcount] at k
  refine le_trans (le_of_eq ?_) k
  congr 2
  rw [lateOf, hclock, ← List.countP_eq_length_filter, ← List.countP_eq_length_filter, (movers_sorted h).2.countP_eq, List.countP_filter]
  refine List.countP_congr fun x _ => ?_
  rw [Bool.and_comm]

theorem shifted_passes_priced (h : Passes n (shifted n old new (rekeyed n s)) t) : Priced s t :=
  (rekeyed_priced n s).trans ((shifted_priced n old new _).trans h.priced)

/-- What the moves and the steps after them leave of a record that waits in a queue. -/
theorem moved_rec (p : Passes n (shifted n old new (rekeyed n s)) t) (hr : s.rec? i = some r)
    (hl : r.line = n) (hs : r.state = .queued) : ∃ v, t.rec? i = some { r with latestStart := recLatestStart s r, seq := v } := by
  have h1 : (rekeyed n s).rec? i = some { r with latestStart := recLatestStart s r } :=
    (rekeyed_rec hr hl).trans (congrArg some (if_pos (.inl hs)))
  obtain ⟨v, h2⟩ := (shifted_reseq n old new _).recs i _ h1
  obtain ⟨w, h3⟩ := p.waits i _ h2 hl hs
  exact ⟨w, h3⟩

theorem queuesMoved_of_passes (hne : new ≠ old) (h : Rerouted n old new s) (p : Passes n (shifted n old new (rekeyed n s)) t) :
    QueuesMoved s t n old new := by
  have hkept := shifted_kept hne h
  have hm := shifted_moved hne h
  have hprice := shifted_passes_priced p
  have hdone : ∀ {x}, x ∈ (s.link old).queue → xferLine s x = some n → x ∈ (movers (rekeyed n s) old n).reverse := fun hx hl =>
    List.mem_reverse.2 ((mem_movers h).2 ⟨hx, hl⟩)
  have hstand : ∀ {l x}, x ∈ (s.link l).queue → (rekeyed n s).Stands x := fun {l x} hx =>
    (rekeyed_stands n x s).2 ⟨l, .inl hx⟩
  have hlatest : ∀ x ∈ (s.link old).queue, xferLine s x = some n → (xferKey t x).l = (xferKey (rekeyed n s) x).l := fun x hx hl => by
    have hline := (shifted_xferLine n old new x s).trans hl
    refine (p.latest hkept (hm.here x (hdone hx hl)) hline fun e => ?_).trans ((shifted_reseq n old new _).latest ?_)
    · subst e
      obtain ⟨k, hk, -⟩ := h.laid.ordered.waits old _ hx
      obtain ⟨sl, hs, -⟩ := Option.map_eq_some_iff.1 (show (s.line n).slot.map _ = some k from hk)
      exact (shifted_slot h hkept hs).2
    · exact ((rekeyed_aged h).laid.ordered.waits old x (by
        show x ∈ ((rekeyed n s).link old).queue
        rw [rekeyed_link]
        exact hx)).imp fun _ h => h.1
  refine ⟨fun x hx hl => ?_, fun x hx hl => ?_, fun x hx y hy hlx hly hlt => ?_, fun x hx y hy hl => ?_, fun i r hr hl hq => ?_,
    fun i r hr hl hs => ?_, fun sl hs _ => ?_, ?_⟩
  · obtain ⟨k, hk, -, hh⟩ := p.off.kept.ordered.waits old x hx
    have hkn : k.line = n := (atLine_iff hk).1 ((xferLine_iff hk).1 hl)
    have hroute : t.linkOf k.line = old := hh
    rw [hkn] at hroute
    refine hne (Eq.trans ?_ hroute)
    rw [State.linkOf, hprice.cfg]
    exact h.now.symm
  · exact p.queue new x ((shifted_xferLine n old new x s).trans hl) (hm.here x (hdone hx hl))
  · refine p.order.seqs x y (hm.stands x (hstand hx)) (hm.stands y (hstand hy))
      (hm.among x (hdone hx hlx) y (hdone hy hly) ?_)
    rw [rekeyed_seq, rekeyed_seq]
    exact hlt
  · refine p.order.seqs y x (hm.stands y (hstand hy)) (hm.stands x (hstand hx))
      (hm.behind x (hdone hx hl) y (hstand hy) fun c => ?_)
    exact hne (h.laid.ordered.oneQueue new old y hy ((mem_movers h).1 (List.mem_reverse.1 c)).1)
  · obtain ⟨k, hk, hst, -⟩ := h.laid.ordered.waits old _ hq
    rw [stand_dest hr] at hk
    cases hk
    rw [hprice.recLatestStart (r := r) rfl rfl rfl rfl rfl]
    exact moved_rec p hr hl (DestState.eq_queued hst)
  · have h1 := shifted_rec_idle h hr hl (by rw [hs]; rfl)
    rw [DestRec.repriced, if_pos (.inr hs)] at h1
    rw [hprice.recLatestStart (r := r) rfl rfl rfl rfl rfl]
    exact (p.targets i { r with latestStart := recLatestStart s r } hl hs).1 h1
  · obtain ⟨⟨v, hv⟩, hc⟩ := shifted_slot h hkept hs
    obtain ⟨h1, h2⟩ := p.slot _ hv hc
    obtain ⟨e1, e2⟩ := h2 _ h1
    unfold Slot.rekeyed at h1 e1 e2
    dsimp only at e1 e2
    rw [e1, e2] at h1
    exact ⟨v, h1⟩
  · refine le_trans (le_of_eq ?_) ((shifted_lates h).trans p.lates)
    congr 3
    refine List.filter_congr fun x hx => ?_
    rw [Bool.eq_iff_iff, Bool.and_eq_true, Bool.and_eq_true, beq_iff_eq, decide_eq_true_eq, decide_eq_true_eq]
    exact and_congr_right fun hl => by rw [hlatest x hx hl]

end Sys2Proof.Machine
end

section
/-! The steps of a change of link in order, and the queues at its end (R89, R127 steps 3 and 4). -/

namespace Sys2Proof.Machine

variable {a : Aim} {b s t u : State} {n m : LineId} {c : LineConfig} {i j : Nat} {r : DestRec} {old new : LinkId} {x : Xfer}

/-! ### The steps in order -/

/-- The pool's step (R31, R32, R33). -/
def moveRecs (n : LineId) (new : LinkId) (s : State) : State := (s.recsOf n).foldl (moveRec (s.isUp new)) s

/-- The line's frames that wait on a link. -/
abbrev framesOf (n : LineId) (old : LinkId) (s : State) : List CtlFrame := (s.link old).control.filter (CtlFrame.isFor n)

theorem moveLink_eq (n : LineId) (old new : LinkId) (s : State) : moveLink n old new s =
    moveFrames n old new (framesOf n old s) (sendOwedTarget n (moveRecs n new (moveQueues n old new s))) := rfl

theorem recomputeSlot_acts (n : LineId) (hk : a.keys n) (h : Acts a b s) : Acts a b (recomputeSlot n s) := by
  unfold recomputeSlot
  split
  · exact h
  · exact h.step (.keys n _ _ hk)

theorem moveQueues_acts (n : LineId) (old new : LinkId) (s : State) : Acts { xfer := fun _ => True, line := fun _ => False, frames := False } s (moveQueues n old new s) := by
  unfold moveQueues
  refine pick_acts new (reexamine_acts n trivial (fun _ => trivial) (.inl trivial) ?_)
  refine foldl_acts _ _ (fun _ x _ h => joinQueue_acts new x trivial (.inl trivial) (leaveQueue_acts old x h)) ?_
  exact recomputeSlot_acts n trivial (foldl_acts _ _ (fun _ j _ h => updateL_acts j trivial h) (.refl s))

theorem moveQueues_passes (hne : new ≠ old) (h : Rerouted n old new s) (hu : (s.line n).state ≠ .ready) :
    Passes n (shifted n old new (rekeyed n s)) (moveQueues n old new s) := by
  have hoff : Off n (shifted n old new (rekeyed n s)) :=
    ⟨shifted_kept hne h, (shifted_calm n old new _).unready (rekeyed_unready hu)⟩
  rw [moveQueues_eq]
  have h1 := reexamine_passes hoff
  exact h1.trans (pick_passes new h1.off)

theorem moveRecs_passes (new : LinkId) (h : Off n s) : Passes n s (moveRecs n new s) :=
  foldl_passes (fun _ j h => moveRec_passes _ j h) _ h

theorem moveLink_passes (hne : new ≠ old) (h : Rerouted n old new s) (hu : (s.line n).state ≠ .ready) :
    Passes n (shifted n old new (rekeyed n s)) (moveLink n old new s) := by
  have h1 := moveQueues_passes hne h hu
  have h2 := h1.trans (moveRecs_passes new h1.off)
  have h3 := h2.trans (sendOwedTarget_passes h2.off)
  rw [moveLink_eq]
  exact h3.trans (moveFrames_passes old new _ h3.off)

/-! ### A new path after a change of link -/

theorem moveRecs_unused (n : LineId) (new : LinkId) (hn : s.rec? i = none) : (moveRecs n new s).rec? i = none :=
  foldl_induct (P := fun t => t.rec? i = none) _ (fun t j _ h => (moveRec_acts _ t j).frame.unused i h) hn

theorem moveRecs_idle (n : LineId) (new : LinkId) (hr : s.rec? i = some r) (h : ¬ r.replying) : (moveRecs n new s).rec? i = some r :=
  foldl_induct (P := fun t => t.rec? i = some r) _ (fun _ j _ k => moveRec_idle _ j k h) hr

theorem moveRecs_replying (n : LineId) (new : LinkId) (hr : s.rec? i = some r) (h : r.replying) :
    ∃ r', (moveRecs n new s).rec? i = some r' ∧ r'.replying :=
  foldl_induct (P := fun t => ∃ r', t.rec? i = some r' ∧ r'.replying) _ (fun _ j _ k => by
    obtain ⟨r', hr', h'⟩ := k
    exact moveRec_replying _ j hr' h') ⟨r, hr, h⟩

/-- The steps after the moves leave the pool as the record step leaves it. -/
theorem moveLink_recs (n : LineId) (old new : LinkId) (s : State) :
    (moveLink n old new s).recs = (moveRecs n new (moveQueues n old new s)).recs := by
  rw [moveLink_eq, (moveFrames_owing n old new _ _).recs, (sendOwedTarget_owing n _).recs]

/-- After a change of link each waiting record has its L as its inputs give it. -/
theorem moveLink_current (hne : new ≠ old) (h : Rerouted n old new s) (hu : (s.line n).state ≠ .ready)
    (hr : (moveLink n old new s).rec? i = some r) (hl : r.line = n) (hw : r.waits) :
    recLatestStart (moveLink n old new s) r = r.latestStart := by
  have hprice := shifted_passes_priced (moveLink_passes hne h hu)
  have hr : (moveRecs n new (moveQueues n old new s)).rec? i = some r := by
    unfold State.rec? at hr ⊢
    rw [← moveLink_recs]
    exact hr
  cases hq : s.rec? i with
  | none =>
    rw [moveRecs_unused n new ((moveQueues_acts n old new s).frame.unused i hq)] at hr
    cases hr
  | some q =>
    obtain ⟨q', hq', hql, _⟩ := (moveQueues_acts n old new s).frame.used i q hq
    have hback : q' = r := by
      by_cases hrep : q'.replying
      · obtain ⟨r', hr', hrep'⟩ := moveRecs_replying n new hq' hrep
        obtain rfl := Option.some.inj (hr.symm.trans hr')
        obtain hw | hw := hw <;> rw [DestRec.replying, hw] at hrep' <;> simp at hrep'
      · exact Option.some.inj ((moveRecs_idle n new hq' hrep).symm.trans hr)
    subst hback
    obtain ⟨v, hv⟩ := moveQueues_rec old new hq (hql.symm.trans hl) hu
    have e : q' = { q.repriced s with seq := v } := Option.some.inj (hq'.symm.trans hv)
    have hqw : q.waits := by
      rw [e] at hw
      unfold DestRec.repriced at hw
      split at hw
      · exact hw
      · exact hw
    rw [DestRec.repriced, if_pos hqw] at e
    rw [e]
    exact hprice.recLatestStart rfl rfl rfl rfl rfl

/-- Steps 3 and 4 of R127 on a line whose link changes. -/
def moved (n : LineId) (old new : LinkId) (p : Prop) [Decidable p] (s : State) : State :=
  if p then reexamine n (moveLink n old new s) else moveLink n old new s

theorem moved_passes (p : Prop) [Decidable p] (hne : new ≠ old) (h : Rerouted n old new s) (hu : (s.line n).state ≠ .ready) :
    Passes n (shifted n old new (rekeyed n s)) (moved n old new p s) := by
  have k := moveLink_passes hne h hu
  unfold moved
  split
  · exact k.trans (reexamine_passes k.off)
  · exact k

theorem repathed_moved (hne : c.link ≠ (s.line n).cfg.link) (h : Rerouted n (s.line n).cfg.link c.link (routed n c s))
    (hu : ((routed n c s).line n).state ≠ .ready) :
    repathed n c s = moved n (s.line n).cfg.link c.link ((s.line n).cfg.path ≠ c.path) (routed n c s) := by
  have k := moveLink_passes hne h hu
  have e : relinked n c s = moveLink n (s.line n).cfg.link c.link (routed n c s) := if_pos hne.symm
  unfold repathed moved
  rw [e]
  split
  · exact repath_current k.off.kept fun i r hr hl hw => moveLink_current hne h hu hr hl hw
  · rfl

/-! ### The queues at the end -/

theorem QueuesMoved.of_repolled {v : State} (h : QueuesMoved v t n old new) (k : Repolled (configure n c s) v) : QueuesMoved s t n old new := by
  have hrec : ∀ i, v.rec? i = s.rec? i := k.rec?
  have hslot : ∀ m, (v.line m).slot = (s.line m).slot := fun m => by
    rw [k.slot, configure_line]
    split
    · next e => rw [e]
    · rfl
  have hqueue : ∀ l, (v.link l).queue = (s.link l).queue := fun l => (k.link l).queue
  have hline : xferLine v = xferLine s := funext fun x => xferLine_recs k.recs x
  have hkey : xferKey v = xferKey s := funext fun x => by
    cases x with
    | dest i => unfold xferKey; dsimp only; rw [hrec]
    | slot m => unfold xferKey; dsimp only; rw [hslot]
  have hcount : v.counters = s.counters := k.counters
  have hclock : v.clock = s.clock := k.clock
  refine ⟨h.left, fun x hx hl => h.joined x (by rw [hqueue]; exact hx) (by rw [hline]; exact hl), fun x hx y hy hlx hly hlt => ?_,
    fun x hx y hy hl => ?_, fun i r hr hl hq => h.queued i r (by rw [hrec]; exact hr) hl (by rw [hqueue]; exact hq),
    fun i r hr hl hs => h.waiting i r (by rw [hrec]; exact hr) hl hs,
    fun sl hs hq => h.slot sl (by rw [hslot]; exact hs) (by rw [hqueue]; exact hq), ?_⟩
  · rw [← hqueue] at hx hy
    rw [← hline] at hlx hly
    rw [← hkey] at hlt
    exact h.order x hx y hy hlx hly hlt
  · rw [← hqueue] at hx hy
    rw [← hline] at hl
    exact h.behind x hx y hy hl
  · have := h.late
    rw [hqueue, hline, hcount, hclock] at this
    exact this

end Sys2Proof.Machine
end

section
/-! The pool's part of a change of link (R31, R32, R33, R37). -/

namespace Sys2Proof.Machine

variable {a : Aim} {b s t u : State} {n m : LineId} {c : LineConfig} {i j : Nat} {r r' : DestRec} {old new l k : LinkId} {x : Xfer}
  {f d : CtlFrame} {p : Page} {q : Prop} [Decidable q]

/-! ### Frames that stay offered (R143) -/

theorem offered_congr (hl : ∀ n, (t.line n).cfg = (s.line n).cfg) (hc : f ∈ (s.link l).control → f ∈ (t.link l).control)
    (hw : (t.link l).wire = (s.link l).wire) (h : Offered s l f) : Offered t l f :=
  h.imp hc fun e => hw.trans (e.trans (by rw [ctlFrame_congr hl]))

theorem offer_keeps (k : LinkId) (hd : f.same d = false) (hf : ¬ rolling.drops f) (h : Offered s l f) : Offered (offer k d s) l f := by
  unfold offer
  split
  · have ho : Offered (s.modLink k fun k => { k with control := joinControl d k.control }) l f := by
      refine offered_congr (s := s) (fun _ => rfl) (fun hm => ?_) ?_ h <;> rw [State.link_modLink]
      · split
        · next e =>
          subst e
          exact (mem_joinControl hm).resolve_left (by rw [hd]; exact Bool.false_ne_true)
        · exact hm
      · split
        · next e => rw [e]
        · rfl
    refine (kick_acts k (.inl ?_) (.refl _)).offered hf ho
    rw [State.link_modLink_self]
    exact joinControl_ne_nil _ _
  · exact h

theorem modOwed_offered (m : LineId) (o : Option U16) (h : Offered s l f) : Offered (s.modLine m fun k => { k with owed := o }) l f := by
  refine offered_congr (s := s) (fun n => ?_) id rfl h
  rw [State.line_modLine]
  split
  · next e => rw [e]
  · rfl

theorem sendOwedTarget_offered (hd : ∀ g, f.same (.targetWithdraw n g) = false) (hf : ¬ rolling.drops f) (h : Offered s l f) :
    Offered (sendOwedTarget n s) l f := by
  unfold sendOwedTarget
  split
  · exact h
  · split
    · exact offer_keeps _ (hd _) hf (modOwed_offered n none h)
    · exact h

theorem moveFrame_offered (new : LinkId) (hd : f.same d = false) (hf : ¬ rolling.drops f) (h : Offered s l f) :
    Offered (moveFrame new s d) l f := by
  unfold moveFrame
  split
  · exact offer_keeps new hd hf h
  · split
    · exact modOwed_offered _ _ h
    all_goals exact h

theorem dropControlOn_offered (hl : l ≠ k) (z : CtlFrame → Bool) (h : Offered s l f) : Offered (dropControlOn k z s) l f := by
  have e : (dropControlOn k z s).link l = s.link l := (State.link_modLink _ _ _ _).trans (if_neg hl)
  exact offered_congr (s := s) (fun _ => rfl) (by rw [e]; exact id) (by rw [e]) h

theorem moveFrames_offered (hne : new ≠ old) {ds : List CtlFrame} (hd : ∀ d ∈ ds, f.same d = false) (hf : ¬ rolling.drops f)
    (h : Offered s new f) : Offered (moveFrames n old new ds s) new f :=
  foldl_induct (P := fun t => Offered t new f) ds (fun _ d hm h => moveFrame_offered new (hd d hm) hf h)
    (dropControlOn_offered hne _ h)

theorem not_drops_examining (h : ¬ rolling.drops f) : ¬ (examining n).drops f := by
  cases f with
  | release i m k v => exact nofun
  | withdraw i m k v => exact nofun
  | targetWithdraw m g => exact id
  | query m => exact id
  | roll => exact h
  | mark m v => exact h

/-- What the record step has offered on the new link stays offered to the end. -/
theorem moved_offered (hne : new ≠ old) (hd : ∀ d ∈ framesOf n old s, f.same d = false) (ht : ∀ g, f.same (.targetWithdraw n g) = false)
    (hf : ¬ rolling.drops f) (h : Offered (moveRecs n new (moveQueues n old new s)) new f) : Offered (moved n old new q s) new f := by
  have k : Offered (moveLink n old new s) new f := by
    rw [moveLink_eq]
    exact moveFrames_offered hne hd hf (sendOwedTarget_offered ht hf h)
  unfold moved
  split
  · exact (reexamine_examining n _).offered (not_drops_examining hf) k
  · exact k

/-! ### Records that stand in no queue -/

/-- A record that the scheduler has no part in. -/
abbrev DestRec.aside (r : DestRec) : Prop := r.state.standing = .apart ∧ r.state ≠ .targetWait

theorem DestRec.aside.not_waits (h : r.aside) : ¬ r.waits := by
  rintro (e | e)
  · have := h.1
    rw [e] at this
    cases this
  · exact h.2 e

theorem moveQueues_rec_aside (hne : new ≠ old) (h : Rerouted n old new s) (hr : s.rec? i = some r) (hl : r.line = n) (ha : r.aside) :
    (moveQueues n old new s).rec? i = some r := by
  have h1 := shifted_rec_idle h hr hl ha.1
  rw [DestRec.repriced, if_neg ha.not_waits] at h1
  rw [moveQueues_eq, (((reexamine_examining n _).trans (pick_examining n new _))).dest_idle nofun, h1]
  refine (shifted_kept hne h).idle_dest fun r' hr' => ?_
  obtain rfl := Option.some.inj (hr'.symm.trans h1)
  exact ha.1

/-- What the record step makes of a record stays to the end. -/
theorem moved_rec_apart (hne : new ≠ old) (h : Rerouted n old new s) (hu : (s.line n).state ≠ .ready)
    (hr : (moveRecs n new (moveQueues n old new s)).rec? i = some r) (ha : r.state.standing = .apart) :
    (moved n old new q s).rec? i = some r := by
  have hr : (moveLink n old new s).rec? i = some r := by
    unfold State.rec? at hr ⊢
    rw [moveLink_recs]
    exact hr
  unfold moved
  split
  · rw [(reexamine_examining n _).dest_idle nofun, hr]
    refine (moveLink_passes hne h hu).off.kept.idle_dest fun r' hr' => ?_
    obtain rfl := Option.some.inj (hr'.symm.trans hr)
    exact ha
  · exact hr

/-! ### The record step -/

theorem moveRecs_down (hu : s.isUp new = false) : moveRecs n new s = (s.recsOf n).foldl (fun s i => pauseTimer i s) s := by
  unfold moveRecs
  rw [hu]
  rfl

theorem moveRecs_up (hu : s.isUp new = true) : moveRecs n new s = (s.recsOf n).foldl (fun s i => recLinkUp i s) s := by
  unfold moveRecs
  rw [hu]
  rfl

/-- On a link that is not UP the reply timers pause (R31). -/
theorem moveRecs_pauses (hu : s.isUp new = false) (hr : s.rec? i = some r) (hl : r.line = n) (hs : r.state = .releasing ∨ r.state = .withdrawing) :
    (moveRecs n new s).rec? i = some { r with timer := r.timer.pause } := by
  have other : ∀ t j, j ≠ i → (pauseTimer j t).rec? i = t.rec? i := fun t j hj =>
    (pauseTimer_poolOnly j t).others i fun c => hj c.symm
  have here : ∀ t (r' : DestRec), t.rec? i = some r' → r'.state = r.state →
      (pauseTimer i t).rec? i = some { r' with timer := r'.timer.pause } := fun t r' hr' e => by
    rw [pauseTimer_rec hr', if_pos (by rw [e]; exact hs)]
  rw [moveRecs_down hu]
  refine foldl_reaches (P := fun t => t.rec? i = some r) (Q := fun t => t.rec? i = some { r with timer := r.timer.pause }) _
    (mem_recsOf hr hl) (fun t j hj h => (other t j hj).trans h) (fun t h => here t r h rfl) (fun t j h => ?_) hr
  by_cases e : j = i
  · subst e
    have := here t _ h rfl
    dsimp only at this
    rwa [ReplyTimer.pause_pause] at this
  · exact (other t j e).trans h

/-- A record that the record step has nothing to do for on a link that is not UP. -/
theorem moveRecs_down_keeps (hu : s.isUp new = false) (hr : s.rec? i = some r) (hs : ¬ (r.state = .releasing ∨ r.state = .withdrawing)) :
    (moveRecs n new s).rec? i = some r := by
  rw [moveRecs_down hu]
  refine foldl_induct (P := fun t => t.rec? i = some r) _ (fun t j _ h => ?_) hr
  by_cases e : i = j
  · subst e
    rw [pauseTimer_rec h, if_neg hs]
  · rw [(pauseTimer_poolOnly j t).others i e, h]

/-- On an UP link a RELEASING or WITHDRAWING record that has had a send has its timer resumed (R32). -/
theorem moveRecs_resumes (hu : s.isUp new = true) (hr : s.rec? i = some r) (hl : r.line = n)
    (hs : r.state = .releasing ∨ r.state = .withdrawing) (hc : r.sendCount ≠ 0) :
    (moveRecs n new s).rec? i = some { r with timer := r.timer.resume } := by
  rw [moveRecs_up hu]
  exact foldl_recLinkUp_resumed (mem_recsOf hr hl) hr hs hc

theorem isUp_iff : s.isUp l = true ↔ (s.link l).state = .up := by
  unfold State.isUp
  exact beq_iff_eq

/-- On an UP link a WITHDRAW still owed goes out (R37). -/
theorem moveRecs_withdraws (hu : s.isUp new = true) (hn : s.linkOf n = new) (hr : s.rec? i = some r) (hl : r.line = n)
    (hs : r.state = .withdrawing) (hc : r.sendCount = 0) (hp : s.page? r.parent = some p) :
    Sent i { r with sendCount := 1, timer := .running 2000 } new (.withdraw i n p.key p.version) (moveRecs n new s) := by
  rw [moveRecs_up hu]
  refine foldl_recLinkUp_sent (mem_recsOf hr hl) hr (fun t k ht => ?_) (.inr hs) (Nat.succ_ne_zero 0) rfl
    fun j hj => not_drops_withdraw _ _ _ hj
  have hp' : t.page? r.parent = some p := (k.page? _).trans hp
  have ho := sendWithdraw_offers (l := new) ht hp' ((k.linkOf _).trans (by rw [hl]; exact hn)) ((k.links new).state.trans (isUp_iff.1 hu))
  rw [recLinkUp_unsent ht hs hc]
  refine ⟨(sendWithdraw_rec ht hp').trans ?_, hl ▸ ho⟩
  rw [DestRec.sentOnce, hc]
  rfl

/-- On an UP link a DELIVERED record gets the release check (R33). -/
theorem moveRecs_releases (hu : s.isUp new = true) (hn : s.linkOf n = new) (hr : s.rec? i = some r) (hl : r.line = n)
    (hs : r.state = .delivered) (hp : s.page? r.parent = some p) :
    if (p.generation = 0 ∨ (s.line n).held = p.generation) ∧ ∀ x, p.release = some x → x ≤ s.clock.value
    then Sent i { r with state := .releasing, sendCount := 1, timer := .running 2000 } new (.release i n p.key p.version) (moveRecs n new s)
    else (moveRecs n new s).rec? i = some r := by
  have hm : mayRelease s r = true ↔ (p.generation = 0 ∨ (s.line n).held = p.generation) ∧ ∀ x, p.release = some x → x ≤ s.clock.value := by
    rw [mayRelease_iff hp, hl, hn]
    exact ⟨fun ⟨_, h1, h2, _⟩ => ⟨h1, h2⟩, fun ⟨h1, h2⟩ => ⟨hs, h1, h2, isUp_iff.1 hu⟩⟩
  rw [moveRecs_up hu]
  split
  · next h =>
    refine foldl_recLinkUp_sent (mem_recsOf hr hl) hr (fun t k ht => ?_) (.inl rfl) (Nat.succ_ne_zero 0) rfl
      fun j hj => not_drops_release _ _ _ hj
    have hp' : t.page? r.parent = some p := (k.page? _).trans hp
    have hmay : mayRelease t r = true := (k.mayRelease hp).trans (hm.2 h)
    have ho := releaseCheck_offers (l := new) ht hp' ((k.linkOf _).trans (by rw [hl]; exact hn)) hmay
    rw [recLinkUp_delivered ht hs]
    exact ⟨releaseCheck_rec ht hp' hmay, hl ▸ ho⟩
  · next h =>
    refine (foldl_induct (P := fun t => PoolOnly (fun _ => True) s t ∧ t.rec? i = some r) _ (fun t j _ k => ?_) ⟨.refl s, hr⟩).2
    refine ⟨k.1.trans ((recLinkUp_poolOnly j t).mono fun _ _ => trivial), ?_⟩
    by_cases e : i = j
    · subst e
      rw [recLinkUp_delivered k.2 hs, releaseCheck_fails k.2, k.2]
      rw [k.1.mayRelease hp]
      exact Bool.eq_false_iff.2 fun c => h (hm.1 c)
    · rw [(recLinkUp_poolOnly j t).others i e, k.2]

/-! ### The records at the end -/

theorem framesOf_same {z : CtlFrame → Bool} (h : ∀ c ∈ (s.link old).control, z c = false) (hz : ∀ d, f.same d = true → z d = true) :
    ∀ d ∈ framesOf n old s, f.same d = false := fun d hd => Bool.eq_false_iff.2 fun c => by
  have := h d (List.mem_filter.1 hd).1
  rw [hz d c] at this
  cases this

theorem isWithdraw_of_same {z : LineId} {y : PageKey} {v : U16} (d : CtlFrame) (h : (CtlFrame.withdraw i z y v).same d = true) :
    isWithdraw i d = true := by
  cases d with
  | withdraw j z y v => exact beq_iff_eq.2 (beq_iff_eq.1 h).symm
  | _ => cases h

theorem isRelease_of_same {z : LineId} {y : PageKey} {v : U16} (d : CtlFrame) (h : (CtlFrame.release i z y v).same d = true) :
    isRelease i d = true := by
  cases d with
  | release j z y v => exact beq_iff_eq.2 (beq_iff_eq.1 h).symm
  | _ => cases h

theorem DestRec.aside_of (h : r.state = .releasing ∨ r.state = .withdrawing ∨ r.state = .delivered ∨ r.state = .verifyWait) : r.aside := by
  unfold DestRec.aside
  obtain h | h | h | h := h <;> rw [h] <;> exact ⟨rfl, nofun⟩

theorem recordsMoved_of_steps (hne : new ≠ old) (h : Rerouted n old new s) (hu : (s.line n).state ≠ .ready) :
    RecordsMoved s (moved n old new q s) n old new := by
  have hacts := moveQueues_acts n old new s
  have hup : (moveQueues n old new s).isUp new = s.isUp new := hacts.frame.isUp new
  have hlink : (moveQueues n old new s).linkOf n = new := (hacts.frame.linkOf n).trans h.now
  have hpage : ∀ k, (moveQueues n old new s).page? k = s.page? k := hacts.frame.page?
  have hheld : ((moveQueues n old new s).line n).held = (s.line n).held := by rw [hacts.frame.line n id]
  have hrec : ∀ {i r}, s.rec? i = some r → r.line = n → r.aside → (moveQueues n old new s).rec? i = some r := fun hr hl ha =>
    moveQueues_rec_aside hne h hr hl ha
  have hend : ∀ {i r}, (moveRecs n new (moveQueues n old new s)).rec? i = some r → r.state.standing = .apart →
      (moved n old new q s).rec? i = some r := fun hr ha => moved_rec_apart hne h hu hr ha
  refine ⟨fun hd i r hr hl hs => ?_, fun hd i r hr hl hs hc => ?_, fun hd i r p hr hl hs hc hp hf => ?_,
    fun hd i r p hr hl hs hp hf => ?_, fun i r hr hl hs => ?_⟩
  · have ha : r.aside := r.aside_of (hs.imp id .inl)
    exact hend (moveRecs_pauses (hup.trans hd) (hrec hr hl ha) hl hs) ha.1
  · have ha : r.aside := r.aside_of (hs.imp id .inl)
    exact hend (moveRecs_resumes (hup.trans hd) (hrec hr hl ha) hl hs hc) ha.1
  · have ha : r.aside := r.aside_of (.inr (.inl hs))
    have k := moveRecs_withdraws (hup.trans hd) hlink (hrec hr hl ha) hl hs hc ((hpage _).trans hp)
    exact ⟨hend k.record ha.1, moved_offered hne (framesOf_same hf isWithdraw_of_same) (fun _ => rfl) id k.offered⟩
  · have ha : r.aside := r.aside_of (.inr (.inr (.inl hs)))
    have k := moveRecs_releases (hup.trans hd) hlink (hrec hr hl ha) hl hs ((hpage _).trans hp)
    rw [hheld, hacts.frame.clock] at k
    split
    · next hc =>
      rw [if_pos hc] at k
      exact ⟨hend k.record rfl, moved_offered hne (framesOf_same hf isRelease_of_same) (fun _ => rfl) id k.offered⟩
    · next hc =>
      rw [if_neg hc] at k
      exact hend k ha.1
  · obtain hs | hs | ⟨hs, hd⟩ := hs
    · have ha : r.aside := r.aside_of (.inr (.inr (.inr hs)))
      refine hend (moveRecs_idle n new (hrec hr hl ha) fun c => ?_) ha.1
      rw [DestRec.replying, hs] at c
      simp at c
    · have ha : r.aside := ⟨DestState.apart_of_final hs, fun e => by rw [e] at hs; cases hs⟩
      refine hend (moveRecs_idle n new (hrec hr hl ha) fun c => ?_) ha.1
      obtain c | c | c := c <;> rw [c] at hs <;> cases hs
    · have ha : r.aside := r.aside_of (.inr (.inr (.inl hs)))
      refine hend (moveRecs_down_keeps (hup.trans hd) (hrec hr hl ha) fun c => ?_) ha.1
      rw [hs] at c
      simp at c

end Sys2Proof.Machine
end

section
/-! The control frames of a line that changes its link (R62, R67, R127 step 3, R143). -/

namespace Sys2Proof.Machine

variable {a : Aim} {b s t u v : State} {n m : LineId} {c : LineConfig} {i j : Nat} {r : DestRec} {old new l k : LinkId} {x : Xfer}
  {f d : CtlFrame} {fs cs : List CtlFrame} {g : U16} {q : Prop} [Decidable q]

/-! ### Lists of links that an operation has no part in -/

/-- Only one link's list of control frames can differ. -/
def OneList (k : LinkId) (s t : State) : Prop := ∀ l, l ≠ k → (t.link l).control = (s.link l).control

theorem OneList.refl (k : LinkId) (s : State) : OneList k s s := fun _ _ => rfl

theorem OneList.trans (h : OneList k s t) (h' : OneList k t u) : OneList k s u := fun l hl => (h' l hl).trans (h l hl)

theorem OneList.of_links (h : t.links = s.links) : OneList k s t := fun l _ => by unfold State.link; rw [h]

theorem modLink_oneList (k : LinkId) (f : Link → Link) (s : State) : OneList k s (s.modLink k f) := fun l hl => by
  rw [State.link_modLink, if_neg hl]

theorem kick_oneList (k : LinkId) (s : State) : OneList k s (kick k s) := fun l hl => by rw [(kick_sends k s).links l hl]

theorem offer_oneList (k : LinkId) (f : CtlFrame) (s : State) : OneList k s (offer k f s) := by
  unfold offer
  split
  · exact (modLink_oneList k _ s).trans (kick_oneList k _)
  · exact .refl k s

theorem schedMirror_oneList (k : LinkId) (s : State) : OneList k s (schedMirror k s) :=
  (modLink_oneList k _ s).trans (.of_links (deskWrite_links _ _ _))

theorem moveInQueue_oneList (k : LinkId) (x : Xfer) (s : State) : OneList k s (moveInQueue k x s) := by
  unfold moveInQueue
  split
  · exact (modLink_oneList k _ s).trans (schedMirror_oneList k _)
  · exact .refl k s

theorem countLate_links (x : Xfer) (s : State) : (countLate x s).links = s.links := by
  unfold countLate
  split
  · unfold bumpCounter
    split
    · rfl
    · exact deskWrite_links _ _ _
  · rfl

theorem joinQueue_oneList (k : LinkId) (x : Xfer) (s : State) : OneList k s (joinQueue k x s) := by
  have h : OneList k s (takeSeq x s) := fun l _ => by
    have e : (takeSeq x s).link l = s.link l := (setSeq_link x _ l (roomForSeq s)).trans ((roomForSeq_frame s).1 l)
    rw [e]
  rw [joinQueue_eq]
  exact h.trans ((modLink_oneList k _ _).trans ((OneList.of_links (countLate_links x _)).trans (schedMirror_oneList k _)))

theorem beginSending_oneList (k : LinkId) (x : Xfer) (s : State) : OneList k s (beginSending k x s) := by
  have h : OneList k s (markSending x (takePicked k x s)) := fun l hl => by
    rw [markSending_link, takePicked, State.link_modLink, if_neg hl]
  refine h.trans ?_
  unfold beginSending
  cases x with
  | dest i =>
    refine OneList.trans (fun l _ => ?_) (schedMirror_oneList k (writeEntry i (markSending (.dest i) (takePicked k (.dest i) s))))
    rw [writeEntry_link]
  | slot m =>
    refine OneList.trans (fun l _ => ?_) (schedMirror_oneList k (writeLineMirror m (markSending (.slot m) (takePicked k (.slot m) s))))
    rw [writeLineMirror_link]

theorem pick_oneList (k : LinkId) (s : State) : OneList k s (pick k s) := by
  unfold pick
  dsimp only
  split
  · split
    · exact (beginSending_oneList k _ s).trans (kick_oneList k _)
    · exact .refl k s
  · exact .refl k s

theorem reexamine_oneList (h : s.linkOf n = k) : OneList k s (reexamine n s) := by
  have h1 : OneList k s (refreshSlot n s) := by
    unfold refreshSlot
    split
    · exact .refl k s
    · split
      · exact .refl k s
      · rw [h]
        exact OneList.trans (fun _ _ => rfl) (moveInQueue_oneList k _ _)
  refine h1.trans ?_
  have h2 : (refreshSlot n s).linkOf n = k := (Calm.linkOf (q := true) (refreshSlot_calm n (.refl s)) n).trans h
  unfold reexamine changeoverCheck
  split
  · next g _ =>
    have e : loadSlot n g (refreshSlot n s) = pick k (joinQueue k (.slot n) (loadedSlot n g (refreshSlot n s))) := by
      have hl : ((refreshSlot n s).modLine n fun z => { z with slot := some (Slot.loaded g
          (slotLatestStart (refreshSlot n s) n g) (slotUrgent (refreshSlot n s) n g)) }).linkOf n = k := by
        unfold State.linkOf at h2 ⊢
        rw [State.line_modLine_self]
        exact h2
      unfold loadSlot loadedSlot
      dsimp only
      rw [hl]
    rw [e]
    refine OneList.trans (fun l _ => ?_) ((joinQueue_oneList k _ _).trans (pick_oneList k _))
    unfold loadedSlot
    rw [writeLineMirror_link]
    rfl
  · exact .refl k _

/-! ### A query that ends and one that is asked (R143, R157, R159) -/

theorem dropControlOn_link (k l : LinkId) (z : CtlFrame → Bool) (s : State) : (dropControlOn k z s).link l =
    if l = k then { s.link k with control := (s.link k).control.filter fun c => !z c } else s.link l := State.link_modLink _ _ _ _

theorem dropControl_control (z : CtlFrame → Bool) (l : LinkId) (s : State) :
    ((dropControl z s).link l).control = (s.link l).control.filter (fun c => !z c) ∧ ((dropControl z s).link l).wire = (s.link l).wire := by
  have hw : ∀ (ks : List LinkId) (s : State), ((ks.foldl (fun s l => dropControlOn l z s) s).link l).wire = (s.link l).wire := fun ks s =>
    foldl_induct (P := fun t => (t.link l).wire = (s.link l).wire) ks (fun t k _ h => by
      rw [dropControlOn_link]
      split
      · next e => rw [← e]; exact h
      · exact h) rfl
  have hc : ∀ (ks : List LinkId) (s : State), ((ks.foldl (fun s l => dropControlOn l z s) s).link l).control =
      if l ∈ ks then (s.link l).control.filter (fun c => !z c) else (s.link l).control := fun ks => by
    induction ks with
    | nil => exact fun _ => rfl
    | cons k ks ih =>
      intro s
      rw [List.foldl_cons, ih, dropControlOn_link]
      by_cases e : l = k
      · subst e
        rw [if_pos rfl, if_pos (List.mem_cons_self ..), List.filter_filter]
        simp only [Bool.and_self, ite_self]
      · rw [if_neg e]
        exact if_congr ⟨.tail _, fun h => (List.mem_cons.1 h).resolve_left e⟩ rfl rfl
  exact ⟨(hc allLinks s).trans (if_pos (List.mem_finRange l)), hw allLinks s⟩

theorem endQuery_control (n : LineId) (l : LinkId) (s : State) : ∃ z : CtlFrame → Bool, (∀ c, c ≠ .query n → z c = true) ∧
    ((endQuery n s).link l).control = (s.link l).control.filter z ∧ ((endQuery n s).link l).wire = (s.link l).wire := by
  unfold endQuery
  split
  · obtain ⟨h1, h2⟩ := dropControl_control (isQuery n) l (s.modLine n fun k => { k with query := none })
    obtain ⟨o, w, e⟩ := finishOrders_outward .ended (s.line n).queryOrders (clearQuery n s)
    refine ⟨fun c => !isQuery n c, fun c hc => ?_, ?_, ?_⟩
    · cases c with
      | query m =>
        show (!(m == n)) = true
        rw [Bool.not_eq_true', beq_eq_false_iff_ne]
        exact fun e => hc (e ▸ rfl)
      | _ => rfl
    · rw [e]; exact h1
    · rw [e]; exact h2
  · refine ⟨fun _ => true, fun _ _ => rfl, ?_, rfl⟩
    exact (List.filter_eq_self.2 fun _ _ => rfl).symm

theorem setLineState_link (n : LineId) (st : LineState) (l : LinkId) (s : State) : (setLineState n st s).link l = s.link l := by
  obtain ⟨o, w, e⟩ := raiseIfChanged_outward (s.line n) n (changeLine n (fun k => { k with state := st }) s)
  have hf := settleLine_frame (s.line n) n (s.modLine n fun k => { k with state := st })
  have e : setLineState n st s = _ := e
  rw [e]
  show (changeLine n (fun k => { k with state := st }) s).link l = _
  unfold changeLine
  rw [hf]
  rfl

/-- What is left of a list after step 2 of R127 on a link that is not the line's new one. -/
theorem routed_control_ne (hl : l ≠ c.link) : ∃ z : CtlFrame → Bool, (∀ d, d ≠ .query n → z d = true) ∧
    ((routed n c s).link l).control = (s.link l).control.filter z := by
  unfold routed
  split
  · obtain ⟨z, hz, h, -⟩ := endQuery_control n l (configure n c s)
    refine ⟨z, hz, Eq.trans ?_ h⟩
    rw [← setLineState_link n (routeState (configure n c s) c.link) l (endQuery n (configure n c s))]
    unfold reroute askQuery sendQuery
    split
    · refine offer_oneList _ _ _ l ?_
      have k : Calm false (configure n c s) (setLineState n (routeState (configure n c s) c.link) (endQuery n (configure n c s))) :=
        setLineState_calm n _ (endQuery_calm n (.refl _))
      rw [k.linkOf, configure_linkOf]
      exact hl
    · rfl
  · exact ⟨fun _ => true, fun _ _ => rfl, (List.filter_eq_self.2 fun _ _ => rfl).symm⟩

/-! ### Offers while a frame is on the wire (R143) -/

theorem offer_busy (hu : s.isUp k = true) (hw : (s.link k).wire ≠ none) :
    offer k f s = s.modLink k fun k => { k with control := joinControl f k.control } := by
  unfold offer
  rw [if_pos hu]
  exact kick_busy (.inr (by rw [State.link_modLink_self]; exact hw))

theorem joinControl_append (h : ∀ d ∈ cs, d.same f = false) : joinControl f cs = cs ++ [f] := by
  unfold joinControl
  rw [if_neg]
  intro c
  obtain ⟨d, hd, hs⟩ := List.any_eq_true.1 c
  rw [h d hd] at hs
  cases hs

theorem same_query_iff : d.same (.query n) = true ↔ d = .query n := by
  cases d with
  | query m => exact beq_iff_eq.trans ⟨congrArg _, CtlFrame.query.inj⟩
  | _ => exact ⟨nofun, nofun⟩

theorem joinControl_query (h : CtlFrame.query n ∈ cs) : joinControl (.query n) cs = cs := by
  have hany : (cs.any fun d => d.same (.query n)) = true := List.any_eq_true.2 ⟨_, h, same_query_iff.2 rfl⟩
  unfold joinControl
  rw [if_pos hany]
  refine (List.map_congr_left fun d _ => ?_).trans (List.map_id cs)
  split
  · next e => exact (same_query_iff.1 e).symm
  · rfl

theorem isFor_query (n : LineId) : CtlFrame.isFor n (.query n) = true := beq_self_eq_true n

/-- The QUERY that a change of route has the line's new link take while a frame is on its wire. -/
theorem routed_control_new (hc : routeChanged (s.line n).cfg c = true) (hu : s.isUp c.link = true) (hw : (s.link c.link).wire ≠ none)
    (hf : ∀ d ∈ (s.link c.link).control, CtlFrame.isFor n d = false) :
    ((routed n c s).link c.link).control = (s.link c.link).control ++ [.query n] ∧ ((routed n c s).link c.link).wire ≠ none := by
  have hnot : ∀ d ∈ (s.link c.link).control, d ≠ .query n := fun d hd e => by
    have := hf d hd
    rw [e, isFor_query] at this
    cases this
  obtain ⟨z, hz, h1, h2⟩ := endQuery_control n c.link (configure n c s)
  have h1 : ((endQuery n (configure n c s)).link c.link).control = (s.link c.link).control :=
    h1.trans (List.filter_eq_self.2 fun d hd => hz d (hnot d hd))
  have k : Calm false (configure n c s) (setLineState n (routeState (configure n c s) c.link) (endQuery n (configure n c s))) :=
    setLineState_calm n _ (endQuery_calm n (.refl _))
  have hq : ((setLineState n (routeState (configure n c s) c.link) (endQuery n (configure n c s))).line n).query = none := by
    obtain ⟨y, w, e⟩ := setLineState_line n n (routeState (configure n c s) c.link) (endQuery n (configure n c s))
    rw [e, if_pos rfl, endQuery_line, if_pos rfl]
  have hlink := setLineState_link n (routeState (configure n c s) c.link) c.link (endQuery n (configure n c s))
  have hof : (setLineState n (routeState (configure n c s) c.link) (endQuery n (configure n c s))).linkOf n = c.link :=
    (k.linkOf n).trans (configure_linkOf n c s)
  have hup : (setLineState n (routeState (configure n c s) c.link) (endQuery n (configure n c s))).isUp c.link = true :=
    (k.isUp c.link).trans hu
  rw [routed_changed hc]
  unfold reroute askQuery sendQuery
  rw [if_pos ⟨hq, by rw [hof]; exact hup⟩, hof]
  rw [← hlink] at h1 h2
  generalize setLineState n (routeState (configure n c s) c.link) (endQuery n (configure n c s)) = t at h1 h2 hup
  have hwire : (t.link c.link).wire ≠ none := by rw [h2]; exact hw
  have e := offer_busy (k := c.link) (f := .query n) (s := t.modLine n fun k => { k with query := some ⟨Config.queryMs, []⟩, requery := none })
    hup hwire
  rw [e, State.link_modLink_self]
  refine ⟨?_, hwire⟩
  show joinControl (.query n) (t.link c.link).control = _
  rw [h1]
  exact joinControl_append fun d hd => Bool.eq_false_iff.2 fun e => hnot d hd (same_query_iff.1 e)

/-! ### The line's frames on their way (R127 step 3) -/

theorem Owing.isUp (h : Owing s t) (l : LinkId) : t.isUp l = s.isUp l := by
  unfold State.isUp
  rw [(h.links l).state]

theorem foldl_moveFrame_owing (new : LinkId) (fs : List CtlFrame) (s : State) : Owing s (fs.foldl (moveFrame new) s) :=
  foldl_induct (P := Owing s) fs (fun t f _ h => h.trans (moveFrame_owing new t f)) (.refl s)

/-- On a link that is not UP a target WITHDRAW of the line is owed by it, and the line owes as before without one. -/
theorem moveFrame_owed (hu : s.isUp new = false) (f : CtlFrame) : ((moveFrame new s f).line n).owed = (s.line n).owed ∨
    ∃ g, f = .targetWithdraw n g ∧ ((moveFrame new s f).line n).owed = some g := by
  unfold moveFrame
  rw [if_neg (by rw [hu]; exact Bool.false_ne_true)]
  cases f with
  | targetWithdraw m g =>
    dsimp only
    rw [State.line_modLine]
    split
    · next e => exact .inr ⟨g, by rw [e], rfl⟩
    · exact .inl rfl
  | _ => exact .inl rfl

theorem moveFrame_owes (hu : s.isUp new = false) (g : U16) : ((moveFrame new s (.targetWithdraw n g)).line n).owed = some g := by
  unfold moveFrame
  rw [if_neg (by rw [hu]; exact Bool.false_ne_true)]
  dsimp only
  rw [State.line_modLine_self]

theorem foldl_moveFrame_owes (hu : s.isUp new = false) (hall : ∀ g', CtlFrame.targetWithdraw n g' ∈ fs → g' = g)
    (h : (s.line n).owed = some g ∨ CtlFrame.targetWithdraw n g ∈ fs) : ((fs.foldl (moveFrame new) s).line n).owed = some g := by
  induction fs generalizing s with
  | nil => exact h.resolve_right List.not_mem_nil
  | cons f fs ih =>
    refine ih (((moveFrame_owing new s f).isUp new).trans hu) (fun g' hg => hall g' (.tail _ hg)) ?_
    by_cases e : f = .targetWithdraw n g
    · subst e
      exact .inl (moveFrame_owes hu g)
    · refine h.imp (fun ho => ?_) fun hm => (List.mem_cons.1 hm).resolve_left fun c => e c.symm
      obtain h' | ⟨g', rfl, -⟩ := moveFrame_owed (n := n) hu f
      · exact h'.trans ho
      · exact absurd (by rw [hall g' (.head _)]) e

theorem foldl_moveFrame_stays (hu : s.isUp new = false) (hno : ∀ g, CtlFrame.targetWithdraw n g ∉ fs) :
    ((fs.foldl (moveFrame new) s).line n).owed = (s.line n).owed :=
  (foldl_induct (P := fun t => t.isUp new = false ∧ (t.line n).owed = (s.line n).owed) fs (fun t f hf h => by
    refine ⟨((moveFrame_owing new t f).isUp new).trans h.1, ?_⟩
    obtain h' | ⟨g, rfl, -⟩ := moveFrame_owed (n := n) h.1 f
    · exact h'.trans h.2
    · exact absurd hf (hno g)) ⟨hu, rfl⟩).2

theorem moveFrame_up (hu : s.isUp new = true) (f : CtlFrame) : moveFrame new s f = offer new f s := if_pos hu

theorem foldl_moveFrame_up_line (hu : s.isUp new = true) (fs : List CtlFrame) (m : LineId) :
    (fs.foldl (moveFrame new) s).line m = s.line m :=
  (foldl_induct (P := fun t => t.isUp new = true ∧ t.line m = s.line m) fs (fun t f _ h => by
    refine ⟨((moveFrame_owing new t f).isUp new).trans h.1, ?_⟩
    rw [moveFrame_up h.1, (offer_still _ _ (.refl t)).line]
    exact h.2) ⟨hu, rfl⟩).2

/-- On an UP link each of the frames waits or is on the wire. -/
theorem foldl_moveFrame_offered (hu : s.isUp new = true) (hf : f ∈ fs) (hp : fs.Pairwise fun c d => c.same d = false)
    (hd : ¬ rolling.drops f) : Offered (fs.foldl (moveFrame new) s) new f := by
  obtain ⟨xs, ys, rfl⟩ := List.append_of_mem hf
  have hys : ∀ d ∈ ys, f.same d = false := (List.pairwise_cons.1 (List.pairwise_append.1 hp).2.1).1
  have hup : (xs.foldl (moveFrame new) s).isUp new = true := ((foldl_moveFrame_owing new xs s).isUp new).trans hu
  rw [List.foldl_append, List.foldl_cons, moveFrame_up hup]
  exact foldl_induct (P := fun t => Offered t new f) ys (fun t d hd' h => moveFrame_offered new (hys d hd') hd h)
    (offer_offered (isUp_iff.1 hup))

/-- While a frame is on the wire the frames join the list in turn. -/
theorem foldl_moveFrame_control (hu : s.isUp new = true) (hw : (s.link new).wire ≠ none) (fs : List CtlFrame) :
    ((fs.foldl (moveFrame new) s).link new).control = fs.foldl (fun cs d => joinControl d cs) (s.link new).control ∧
      ((fs.foldl (moveFrame new) s).link new).wire ≠ none := by
  induction fs generalizing s with
  | nil => exact ⟨rfl, hw⟩
  | cons f fs ih =>
    rw [List.foldl_cons, List.foldl_cons, moveFrame_up hu, offer_busy hu hw]
    have h := ih (s := s.modLink new fun k => { k with control := joinControl f k.control }) ?_ ?_
    · rw [State.link_modLink_self] at h
      exact h
    · unfold State.isUp
      rw [State.link_modLink_self]
      exact hu
    · rw [State.link_modLink_self]
      exact hw

/-- Frames of which no two are of one kind and owner join behind a QUERY and what waits before it. -/
theorem foldl_joinControl (hp : fs.Pairwise fun c d => c.same d = false) (hq : CtlFrame.query n ∈ cs)
    (hcs : ∀ c ∈ cs, ∀ d ∈ fs, d ≠ .query n → c.same d = false) :
    fs.foldl (fun cs d => joinControl d cs) cs = cs ++ fs.filter fun d => d != .query n := by
  induction fs generalizing cs with
  | nil => exact (List.append_nil cs).symm
  | cons f fs ih =>
    obtain ⟨hf, hp'⟩ := List.pairwise_cons.1 hp
    rw [List.foldl_cons]
    by_cases e : f = .query n
    · subst e
      rw [joinControl_query hq, ih hp' hq fun c hc d hd => hcs c hc d (.tail _ hd),
        List.filter_cons_of_neg (p := fun d => d != CtlFrame.query n) (by rw [bne_self_eq_false]; exact Bool.false_ne_true)]
    · rw [joinControl_append fun c hc => hcs c hc f (.head _) e, ih hp' (List.mem_append_left _ hq) fun c hc d hd he => ?_,
        List.filter_cons_of_pos (p := fun d => d != CtlFrame.query n) (bne_iff_ne.2 e), List.append_assoc]
      · rfl
      · obtain hc | hc := List.mem_append.1 hc
        · exact hcs c hc d (.tail _ hd) he
        · exact List.mem_singleton.1 hc ▸ hf d hd

end Sys2Proof.Machine
end

section
/-! The control frames at the end of a change of link (R62, R67, R127 step 3, R143). -/

namespace Sys2Proof.Machine

variable {a : Aim} {b s t u v : State} {n m : LineId} {c : LineConfig} {i j : Nat} {r : DestRec} {old new l k : LinkId}
  {f d : CtlFrame} {g : U16} {q : Prop} [Decidable q]

/-! ### The steps before the frames move -/

theorem moveRecs_poolOnly (n : LineId) (new : LinkId) (s : State) : PoolOnly (fun _ => True) s (moveRecs n new s) :=
  foldl_induct (P := PoolOnly (fun _ => True) s) _ (fun t j _ h => h.trans ((moveRec_poolOnly _ t j).mono fun _ _ => trivial)) (.refl s)

/-- The state in which the owed target withdrawal and the waiting frames are looked at. -/
def settled (n : LineId) (old new : LinkId) (s : State) : State := moveRecs n new (moveQueues n old new s)

theorem moveLink_settled (n : LineId) (old new : LinkId) (s : State) :
    moveLink n old new s = moveFrames n old new (framesOf n old s) (sendOwedTarget n (settled n old new s)) := rfl

theorem settled_owed (n : LineId) (old new : LinkId) (s : State) : ((settled n old new s).line n).owed = (s.line n).owed := by
  rw [settled, (moveRecs_poolOnly n new _).line, (moveQueues_acts n old new s).frame.line n id]

theorem settled_isUp (n : LineId) (old new l : LinkId) (s : State) : (settled n old new s).isUp l = s.isUp l := by
  have e : ((settled n old new s).link l).state = (s.link l).state :=
    ((moveRecs_poolOnly n new _).links l).state.trans ((moveQueues_acts n old new s).frame.link l).1
  unfold State.isUp
  rw [e]

theorem settled_linkOf (h : s.linkOf n = new) : (settled n old new s).linkOf n = new :=
  ((moveRecs_poolOnly n new _).linkOf n).trans (((moveQueues_acts n old new s).frame.linkOf n).trans h)

theorem moved_owed (n : LineId) (old new : LinkId) (s : State) :
    ((moved n old new q s).line n).owed = ((moveLink n old new s).line n).owed := by
  unfold moved
  split
  · rw [(reexamine_examining n _).frame.line n id]
  · rfl

theorem sendOwedTarget_dark (hl : s.linkOf n = new) (hu : s.isUp new = false) : sendOwedTarget n s = s := by
  unfold sendOwedTarget
  split
  · rfl
  · rw [hl]
    exact if_neg (by rw [hu]; exact Bool.false_ne_true)

theorem sendOwedTarget_none (h : (s.line n).owed = none) : sendOwedTarget n s = s := by
  unfold sendOwedTarget
  rw [h]

theorem sendOwedTarget_clears (hl : s.linkOf n = new) (hu : s.isUp new = true) : ((sendOwedTarget n s).line n).owed = none ∧
    ∀ g, (s.line n).owed = some g → Offered (sendOwedTarget n s) new (.targetWithdraw n g) := by
  cases h : (s.line n).owed with
  | none => rw [sendOwedTarget_none h]; exact ⟨h, nofun⟩
  | some g => exact (foldl_sendOwedTarget_offers (List.mem_singleton_self n) h hl (isUp_iff.1 hu)).imp id fun ho g' hg =>
      Option.some.inj hg ▸ ho

/-- A record that the record step sends no frame for. -/
abbrev DestRec.quiet (r : DestRec) : Prop :=
  r.state ≠ .delivered ∧ (r.state = .withdrawing ∨ r.state = .releasing → r.sendCount ≠ 0)

theorem recLinkUp_quiet (h : ∀ r, s.rec? j = some r → r.quiet) :
    (∀ l, (recLinkUp j s).link l = s.link l) ∧ ∀ r, (recLinkUp j s).rec? j = some r → r.quiet := by
  cases hr : s.rec? j with
  | none =>
    have e : recLinkUp j s = s := by unfold recLinkUp; rw [hr]
    rw [e]
    exact ⟨fun _ => rfl, h⟩
  | some r =>
    obtain ⟨hd, hc⟩ := h r hr
    by_cases hs : r.state = .releasing ∨ r.state = .withdrawing
    · rw [recLinkUp_sent hr hs (hc hs.symm)]
      refine ⟨fun _ => rfl, fun r' hr' => ?_⟩
      rw [rec_modRec_self _ hr] at hr'
      cases hr'
      exact ⟨hd, hc⟩
    · rw [recLinkUp_idle hr fun k => hs (or_assoc.2 k |>.resolve_right hd)]
      exact ⟨fun _ => rfl, h⟩

/-- With no frame to send the record step leaves the links. -/
theorem moveRecs_quiet (hu : s.isUp new = true) (h : ∀ j ∈ s.recsOf n, ∀ r, s.rec? j = some r → r.quiet) (l : LinkId) :
    (moveRecs n new s).link l = s.link l := by
  rw [moveRecs_up hu]
  refine (foldl_induct (P := fun t => (∀ j ∈ s.recsOf n, ∀ r, t.rec? j = some r → r.quiet) ∧ t.link l = s.link l) _
    (fun t j hj k => ?_) ⟨h, rfl⟩).2
  obtain ⟨h1, h2⟩ := recLinkUp_quiet (k.1 j hj)
  refine ⟨fun i hi r hr => ?_, (h1 l).trans k.2⟩
  by_cases e : i = j
  · subst e; exact h2 r hr
  · rw [(recLinkUp_poolOnly j t).others i e] at hr
    exact k.1 i hi r hr

/-! ### What has become of the old link's frames -/

theorem moveFrames_oneList (n : LineId) (old new : LinkId) (fs : List CtlFrame) (s : State) :
    OneList new (dropControlOn old (CtlFrame.isFor n) s) (moveFrames n old new fs s) := by
  unfold moveFrames
  generalize dropControlOn old (CtlFrame.isFor n) s = t
  refine foldl_induct (P := OneList new t) fs (fun u f _ k => k.trans ?_) (.refl new t)
  unfold moveFrame
  split
  · exact offer_oneList new f u
  · split
    · exact fun _ _ => rfl
    all_goals exact .refl new u

theorem moveFrames_left (hne : new ≠ old) (n : LineId) (fs : List CtlFrame) (s : State) :
    ∀ d ∈ ((moveFrames n old new fs s).link old).control, CtlFrame.isFor n d = false := fun d hd => by
  rw [moveFrames_oneList n old new fs s old hne.symm, dropControlOn_link, if_pos rfl] at hd
  have := (List.mem_filter.1 hd).2
  rwa [Bool.not_eq_true'] at this

theorem moved_left (hne : new ≠ old) (h : Rerouted n old new s) :
    ∀ d ∈ ((moved n old new q s).link old).control, CtlFrame.isFor n d = false := by
  have hlink : (moveLink n old new s).linkOf n = new := (Calm.linkOf (q := true) (moveLink_calm n old new (.refl s)) n).trans h.now
  have hleft : ∀ d ∈ ((moveLink n old new s).link old).control, CtlFrame.isFor n d = false := by
    rw [moveLink_settled]
    exact moveFrames_left hne n _ _
  unfold moved
  split
  · rw [reexamine_oneList hlink old hne.symm]
    exact hleft
  · exact hleft

/-- The line's frames that a change of link finds on the old link are those of the order's start, but for a QUERY that has ended. -/
theorem routed_framesOf (hne : old ≠ c.link) : (framesOf n old (routed n c s)).Sublist (s.link old).control ∧
    ((framesOf n old (routed n c s)).filter fun d => d != .query n) =
      (s.link old).control.filter (fun d => CtlFrame.isFor n d && d != .query n) ∧
    ∀ d ∈ (s.link old).control, CtlFrame.isFor n d = true → d ≠ .query n → d ∈ framesOf n old (routed n c s) := by
  obtain ⟨z, hz, h⟩ := routed_control_ne (n := n) (s := s) hne
  unfold framesOf
  rw [h]
  refine ⟨List.filter_sublist.trans List.filter_sublist, ?_, fun d hd hf he => ?_⟩
  · rw [List.filter_filter, List.filter_filter]
    refine List.filter_congr fun d _ => ?_
    by_cases e : d = .query n
    · subst e; simp
    · rw [hz d e, bne_iff_ne.2 e]; simp
  · exact List.mem_filter.2 ⟨List.mem_filter.2 ⟨hd, hz d he⟩, hf⟩

theorem CtlFrame.same_comm (c d : CtlFrame) : c.same d = d.same c := by
  cases c with
  | release i m k v => cases d with | release j => exact Bool.beq_comm | _ => rfl
  | withdraw i m k v => cases d with | withdraw j => exact Bool.beq_comm | _ => rfl
  | targetWithdraw m g => cases d with | targetWithdraw j => exact Bool.beq_comm | _ => rfl
  | query m => cases d with | query j => exact Bool.beq_comm | _ => rfl
  | roll => cases d <;> rfl
  | mark m v => cases d <;> rfl

theorem not_drops_of_isFor (h : CtlFrame.isFor n f = true) : ¬ rolling.drops f := by
  cases f with
  | roll => cases h
  | mark m v => cases h
  | _ => exact id

/-! ### The line's debt and the new link's list -/

theorem dropControlOn_line (k : LinkId) (z : CtlFrame → Bool) (s : State) (m : LineId) : (dropControlOn k z s).line m = s.line m := rfl

theorem dropControlOn_isUp (k l : LinkId) (z : CtlFrame → Bool) (s : State) : (dropControlOn k z s).isUp l = s.isUp l :=
  (dropControlOn_owing k z s).isUp l

theorem moveFrames_owes {fs : List CtlFrame} (hu : s.isUp new = false) (hg : CtlFrame.targetWithdraw n g ∈ fs)
    (hall : ∀ g', CtlFrame.targetWithdraw n g' ∈ fs → g' = g) : ((moveFrames n old new fs s).line n).owed = some g := by
  have hd := (dropControlOn_isUp old new (CtlFrame.isFor n) s).trans hu
  unfold moveFrames
  generalize dropControlOn old (CtlFrame.isFor n) s = t at hd
  exact foldl_moveFrame_owes hd hall (.inr hg)

theorem moveFrames_stays {fs : List CtlFrame} (hu : s.isUp new = false) (hno : ∀ g, CtlFrame.targetWithdraw n g ∉ fs) :
    ((moveFrames n old new fs s).line n).owed = (s.line n).owed := by
  have hd := (dropControlOn_isUp old new (CtlFrame.isFor n) s).trans hu
  have hl := dropControlOn_line old (CtlFrame.isFor n) s n
  unfold moveFrames
  generalize dropControlOn old (CtlFrame.isFor n) s = t at hd hl
  rw [foldl_moveFrame_stays hd hno, hl]

theorem moveFrames_up_line (hu : s.isUp new = true) (fs : List CtlFrame) : (moveFrames n old new fs s).line n = s.line n := by
  have hd := (dropControlOn_isUp old new (CtlFrame.isFor n) s).trans hu
  have hl := dropControlOn_line old (CtlFrame.isFor n) s n
  unfold moveFrames
  generalize dropControlOn old (CtlFrame.isFor n) s = t at hd hl
  rw [foldl_moveFrame_up_line hd, hl]

/-- On a link that is not UP the line owes the target WITHDRAW that waited, and what it owed where none waited (R62, R67). -/
theorem moved_owed_down (h : s.linkOf n = new) (hu : s.isUp new = false) :
    (∀ g, CtlFrame.targetWithdraw n g ∈ framesOf n old s → (∀ g', CtlFrame.targetWithdraw n g' ∈ framesOf n old s → g' = g) →
      ((moved n old new q s).line n).owed = some g) ∧
    ((∀ g, CtlFrame.targetWithdraw n g ∉ framesOf n old s) → ((moved n old new q s).line n).owed = (s.line n).owed) := by
  have hup := (settled_isUp n old new new s).trans hu
  have ho := settled_owed n old new s
  have hl := settled_linkOf (old := old) h
  rw [moved_owed, moveLink_settled]
  generalize settled n old new s = z at hup ho hl
  rw [sendOwedTarget_dark hl hup]
  exact ⟨fun g hg hall => moveFrames_owes hup hg hall, fun hno => (moveFrames_stays hup hno).trans ho⟩

/-- On an UP link the line owes nothing, having offered what it owed (R62). -/
theorem moveLink_owed_up (hne : new ≠ old) (h : s.linkOf n = new) (hu : s.isUp new = true) :
    ((moveLink n old new s).line n).owed = none ∧ ((∀ g, CtlFrame.targetWithdraw n g ∉ framesOf n old s) →
      ∀ g, (s.line n).owed = some g → Offered (moveLink n old new s) new (.targetWithdraw n g)) := by
  have hup := (settled_isUp n old new new s).trans hu
  have ho := settled_owed n old new s
  have hl := settled_linkOf (old := old) h
  rw [moveLink_settled]
  generalize settled n old new s = z at hup ho hl
  obtain ⟨hnone, hoff⟩ := sendOwedTarget_clears hl hup
  have hd := ((sendOwedTarget_owing n z).isUp new).trans hup
  generalize sendOwedTarget n z = y at hnone hoff hd
  refine ⟨(congrArg Line.owed (moveFrames_up_line hd _)).trans hnone, fun hno g hg => ?_⟩
  refine moveFrames_offered hne (fun d hm => Bool.eq_false_iff.2 fun c => ?_) id (hoff g (ho.trans hg))
  cases d with
  | targetWithdraw m g' =>
    have e : n = m := beq_iff_eq.1 c
    exact hno g' (e ▸ hm)
  | _ => cases c

theorem moved_offered_of_move (hd : ¬ rolling.drops f) (k : Offered (moveLink n old new s) new f) : Offered (moved n old new q s) new f := by
  unfold moved
  split
  · exact (reexamine_examining n _).offered (not_drops_examining hd) k
  · exact k

/-- On an UP link each frame that waited on the old one waits, or is on the wire (R143). -/
theorem moveLink_joined (hu : s.isUp new = true) (hp : (framesOf n old s).Pairwise fun c d => c.same d = false)
    (hf : f ∈ framesOf n old s) : Offered (moveLink n old new s) new f := by
  have hup := (settled_isUp n old new new s).trans hu
  rw [moveLink_settled]
  generalize settled n old new s = z at hup
  have hd := (dropControlOn_isUp old new (CtlFrame.isFor n) (sendOwedTarget n z)).trans (((sendOwedTarget_owing n z).isUp new).trans hup)
  unfold moveFrames
  generalize dropControlOn old (CtlFrame.isFor n) (sendOwedTarget n z) = y at hd
  exact foldl_moveFrame_offered hd hf hp (not_drops_of_isFor (List.mem_filter.1 hf).2)

theorem moveFrames_control (hne : new ≠ old) (hu : s.isUp new = true) (hw : (s.link new).wire ≠ none) (fs : List CtlFrame) :
    ((moveFrames n old new fs s).link new).control = fs.foldl (fun cs d => joinControl d cs) (s.link new).control ∧
      ((moveFrames n old new fs s).link new).wire ≠ none := by
  have hl : (dropControlOn old (CtlFrame.isFor n) s).link new = s.link new := by rw [dropControlOn_link, if_neg hne]
  have hd := (dropControlOn_isUp old new (CtlFrame.isFor n) s).trans hu
  unfold moveFrames
  generalize dropControlOn old (CtlFrame.isFor n) s = t at hl hd
  rw [← hl] at hw ⊢
  exact foldl_moveFrame_control hd hw fs

/-- The new link's list where a frame is on its wire and the records have none to send. -/
theorem moved_control (hne : new ≠ old) (hu : s.isUp new = true) (hw : (s.link new).wire ≠ none)
    (ho : (s.line n).owed = none) (hr : ∀ j ∈ (moveQueues n old new s).recsOf n, ∀ r, (moveQueues n old new s).rec? j = some r → r.quiet) :
    ((moved n old new q s).link new).control = (framesOf n old s).foldl (fun cs d => joinControl d cs) (s.link new).control := by
  have hup := ((moveQueues_acts n old new s).frame.isUp new).trans hu
  obtain ⟨hc1, hw1⟩ := (moveQueues_acts n old new s).control (l := new) id hw
  have hlink : (settled n old new s).link new = (moveQueues n old new s).link new := moveRecs_quiet hup hr new
  have ho' := (settled_owed n old new s).trans ho
  have hup' := (settled_isUp n old new new s).trans hu
  have k : ((moveLink n old new s).link new).control = (framesOf n old s).foldl (fun cs d => joinControl d cs) (s.link new).control ∧
      ((moveLink n old new s).link new).wire ≠ none := by
    rw [moveLink_settled, ← hc1, ← hlink]
    rw [← hlink] at hw1
    generalize settled n old new s = z at hlink ho' hup' hw1
    rw [sendOwedTarget_none ho']
    exact moveFrames_control hne hup' hw1 _
  unfold moved
  split
  · rw [((reexamine_examining n _).control id k.2).1]
    exact k.1
  · exact k.1

/-! ### The frames at the end -/

theorem moveQueues_quiet (hne : new ≠ old) (h : Rerouted n old new s) (hu : (s.line n).state ≠ .ready)
    (hr : ∀ i r, s.rec? i = some r → r.line = n → r.quiet) :
    ∀ j ∈ (moveQueues n old new s).recsOf n, ∀ r, (moveQueues n old new s).rec? j = some r → r.quiet := fun j hj r hrec => by
  have hk := (moveQueues_passes hne h hu).off.kept.recs_rising
  obtain ⟨⟨i, e⟩, he, rfl⟩ := List.mem_map.1 hj
  obtain ⟨hm, hl⟩ := List.mem_filter.1 he
  obtain rfl := Option.some.inj (hrec.symm.trans (Table.get_of_mem hk hm))
  have hl : r.line = n := beq_iff_eq.1 hl
  cases hq : s.rec? i with
  | none =>
    rw [(moveQueues_acts n old new s).frame.unused i hq] at hrec
    cases hrec
  | some q =>
    obtain ⟨q', hq', hql, _⟩ := (moveQueues_acts n old new s).frame.used i q hq
    obtain rfl := Option.some.inj (hq'.symm.trans hrec)
    have hqn : q.line = n := hql.symm.trans hl
    obtain ⟨w, hw⟩ := moveQueues_rec old new hq hqn hu
    obtain rfl := Option.some.inj (hq'.symm.trans hw)
    have := hr i q hq hqn
    unfold DestRec.repriced
    split
    · exact this
    · exact this

theorem framesMoved_of_steps (hc : routeChanged (s.line n).cfg c = true) (hne : c.link ≠ (s.line n).cfg.link)
    (h : Rerouted n (s.line n).cfg.link c.link (routed n c s)) (hsound : ∀ l, (s.link l).Sound)
    (hp : (s.link (s.line n).cfg.link).control.Pairwise fun c d => c.same d = false) :
    FramesMoved s (moved n (s.line n).cfg.link c.link q (routed n c s)) n (s.line n).cfg.link c.link := by
  have hu := routed_unready hc
  obtain ⟨hsub, hfilter, hmem⟩ := routed_framesOf (n := n) (s := s) hne.symm
  have hup : ∀ l, (routed n c s).isUp l = s.isUp l := fun l => (routed_calm n c s).isUp l
  have howed : ((routed n c s).line n).owed = (s.line n).owed := (routed_line_fields n n c s).2.2.2.2
  have hpair := hp.sublist hsub
  have htarget : ∀ g, CtlFrame.targetWithdraw n g ∈ framesOf n (s.line n).cfg.link (routed n c s) ↔
      CtlFrame.targetWithdraw n g ∈ (s.link (s.line n).cfg.link).control := fun g =>
    ⟨fun hm => hsub.subset hm, fun hm => hmem _ hm (beq_self_eq_true n) nofun⟩
  have huniq : ∀ g g', CtlFrame.targetWithdraw n g ∈ framesOf n (s.line n).cfg.link (routed n c s) →
      CtlFrame.targetWithdraw n g' ∈ framesOf n (s.line n).cfg.link (routed n c s) → g' = g := fun g g' hg hg' => by
    by_contra e
    have hsymm : Std.Symm fun c d : CtlFrame => c.same d = false := ⟨fun c d hcd => (CtlFrame.same_comm d c).trans hcd⟩
    have hsame := hpair.forall hg' hg fun c => e (CtlFrame.targetWithdraw.inj c).2
    rw [show CtlFrame.same (.targetWithdraw n g') (.targetWithdraw n g) = true from beq_self_eq_true n] at hsame
    cases hsame
  refine ⟨moved_left hne h, fun hd => ?_, fun hd g hg => ?_, fun hd hno => ?_, fun hd => ?_, fun hd d hm hf he => ?_,
    fun hd hw hlist ho hr => ?_⟩
  · have hst : (s.link c.link).state ≠ .up := fun e => by rw [isUp_iff.2 e] at hd; cases hd
    have k : Calm false (configure n c s) (moved n (s.line n).cfg.link c.link q (routed n c s)) := by
      unfold moved
      exact ite_calm (reexamine_calm n (moveLink_calm n _ _ (routed_calm n c s))) (moveLink_calm n _ _ (routed_calm n c s))
    exact (k.linkKeeps c.link).control hst ((hsound c.link).dark hst).control
  · exact (moved_owed_down h.now ((hup _).trans hd)).1 g ((htarget g).2 hg) fun g' hg' => huniq g g' ((htarget g).2 hg) hg'
  · rw [(moved_owed_down h.now ((hup _).trans hd)).2 fun g hg => hno g ((htarget g).1 hg), howed]
  · obtain ⟨h1, h2⟩ := moveLink_owed_up hne h.now ((hup _).trans hd)
    exact ⟨(moved_owed n _ _ _).trans h1,
      fun hno g hg => moved_offered_of_move id (h2 (fun g hg => hno g ((htarget g).1 hg)) g (howed.trans hg))⟩
  · exact moved_offered_of_move (not_drops_of_isFor hf) (moveLink_joined ((hup _).trans hd) hpair (hmem d hm hf he))
  · obtain ⟨h1, h2⟩ := routed_control_new hc hd hw fun d hd => (hlist d hd).1
    rw [moved_control hne ((hup _).trans hd) h2 (howed.trans ho), h1, foldl_joinControl hpair
      (List.mem_append_right _ (List.mem_singleton_self _)), hfilter, List.append_assoc]
    · rfl
    · intro d hd e he hq
      obtain hd | hd := List.mem_append.1 hd
      · exact (hlist d hd).2 e (hsub.subset he) (List.mem_filter.1 he).2
      · rw [List.mem_singleton.1 hd]
        refine Bool.eq_false_iff.2 fun k => hq ?_
        cases e with
        | query m => exact congrArg _ (beq_iff_eq.1 k).symm
        | _ => cases k
    · refine moveQueues_quiet hne h hu fun i r hi hl => ?_
      exact hr (i, r) (Table.mem_of_get ((routed_rec n c s i).symm.trans hi)) hl

end Sys2Proof.Machine
end

section
/-! SET PRESS LINE on an enabled line: what the order leaves as a whole (R31, R32, R67, R89, R125, R127, R159). -/

namespace Sys2Proof.Machine

variable {b s t u v w : State} {n m : LineId} {c : LineConfig} {i j : Nat} {r : DestRec} {old new : LinkId}

/-! ### A change of link, from the order's start -/

theorem RecordsMoved.of_routed (h : RecordsMoved (routed n c s) t n old new) (hne : old ≠ c.link) : RecordsMoved s t n old new := by
  have k := routed_repolled n c s
  have hup : (routed n c s).isUp new = s.isUp new := (routed_calm n c s).isUp new
  have hpage : ∀ p, (routed n c s).page? p = s.page? p := fun p => by unfold State.page?; rw [k.pages]; rfl
  have hheld : ((routed n c s).line n).held = (s.line n).held := (routed_line_fields n n c s).2.2.1
  have hclock : (routed n c s).clock = s.clock := k.clock
  have hsub : ∀ d ∈ ((routed n c s).link old).control, d ∈ (s.link old).control := fun d hd => by
    obtain ⟨z, -, e⟩ := routed_control_ne (n := n) (s := s) hne
    rw [e] at hd
    exact (List.mem_filter.1 hd).1
  have hrec : ∀ {i r}, s.rec? i = some r → (routed n c s).rec? i = some r := fun hr => (routed_rec n c s _).trans hr
  refine ⟨fun hd i r hr hl hs => h.pauses (hup.trans hd) i r (hrec hr) hl hs,
    fun hd i r hr hl hs hc => h.resumes (hup.trans hd) i r (hrec hr) hl hs hc,
    fun hd i r p hr hl hs hc hp hf => h.withdraws (hup.trans hd) i r p (hrec hr) hl hs hc ((hpage _).trans hp) fun d hd => hf d (hsub d hd),
    fun hd i r p hr hl hs hp hf => ?_, fun i r hr hl hs => h.keeps i r (hrec hr) hl (by rw [hup]; exact hs)⟩
  have := h.releases (hup.trans hd) i r p (hrec hr) hl hs ((hpage _).trans hp) fun d hd => hf d (hsub d hd)
  rw [hheld, hclock] at this
  exact this

/-- What an order that changes the line's link leaves of its transfers, its records and its frames. -/
structure LinkMoved (s u : State) (n : LineId) (old new : LinkId) : Prop where
  queues : QueuesMoved s u n old new
  records : RecordsMoved s u n old new
  frames : (∀ l, (s.link l).Sound) → ((s.link old).control.Pairwise fun c d => c.same d = false) → FramesMoved s u n old new

theorem repathed_linkMoved (hb : routeChanged (s.line n).cfg c = true → lineBusy s n = false) (hk : s.Kept)
    (hne : c.link ≠ (s.line n).cfg.link) : LinkMoved s (repathed n c s) n (s.line n).cfg.link c.link := by
  have hc := routeChanged_of_link hne.symm
  have h : Rerouted n (s.line n).cfg.link c.link (routed n c s) := by
    rw [routed_changed hc]
    exact reroute_rerouted c (hb hc) hk
  have hu := routed_unready hc
  rw [repathed_moved hne h hu]
  exact ⟨(queuesMoved_of_passes hne h (moved_passes _ hne h hu)).of_repolled (routed_repolled n c s),
    (recordsMoved_of_steps hne h hu).of_routed hne.symm, fun hs hp => framesMoved_of_steps hc hne h hs hp⟩

/-- The order unit, the writes and the deadline list have no part in it. -/
theorem LinkMoved.outward (h : LinkMoved s u n old new) (hs : Outward b s) (hu : ∃ o w d, t = { u with order := o, bus := w, deadlines := d }) :
    LinkMoved b t n old new := by
  obtain ⟨o, w, rfl⟩ := hs
  obtain ⟨o', w', d, rfl⟩ := hu
  obtain ⟨q, r, f⟩ := h
  exact ⟨⟨q.left, q.joined, q.order, q.behind, q.queued, q.waiting, q.slot, q.late⟩,
    ⟨r.pauses, r.resumes, r.withdraws, r.releases, r.keeps⟩, fun hs hp =>
      let k := f hs hp
      ⟨k.left, k.lost, k.owes, k.stays, k.sends, k.joined, k.behind⟩⟩

theorem PathChanged.outward {p : Prop} (h : PathChanged s u n p) (hs : Outward b s) (hu : Outward u t) : PathChanged b t n p := by
  obtain ⟨o, w, rfl⟩ := hs
  obtain ⟨o', w', rfl⟩ := hu
  exact ⟨h.latest, h.stays, h.order, h.same⟩

/-! ### The line at the order's end -/

theorem routed_cfg (n : LineId) (c : LineConfig) (s : State) : ((routed n c s).line n).cfg = c := by
  rw [((routed_calm n c s).lineKeeps n).cfg, configure_line, if_pos rfl]

/-- Without a change of route the line keeps its state and its query. -/
theorem Calm.line_same (k : Calm true (routed n c s) t) (h : routeChanged (s.line n).cfg c = false) :
    (t.line n).state = (s.line n).state ∧ (t.line n).query = (s.line n).query := by
  have hs := (k.lineKeeps n).still rfl
  have e : (routed n c s).line n = { s.line n with cfg := c } := by rw [routed_same h, configure_line, if_pos rfl]
  rw [e] at hs
  exact ⟨hs.state, hs.query⟩

/-- With a change of route its state follows the new link, on which it is asked afresh (R127). -/
theorem Calm.line_rerouted (k : Calm true (routed n c s) t) (h : routeChanged (s.line n).cfg c = true) :
    (t.line n).state = (if s.isUp c.link = true then .unknown else .unreachable) ∧
      (t.line n).query = if s.isUp c.link = true then some ⟨500, []⟩ else none := by
  obtain ⟨z, y, e⟩ := routed_line_of_change h
  have hs := (k.lineKeeps n).still rfl
  rw [e] at hs
  exact ⟨hs.state, hs.query⟩

theorem Calm.query_disposed {q : Query} {y : U64} (k : Calm true (routed n c s) t) (h : routeChanged (s.line n).cfg c = true)
    (hq : (s.line n).query = some q) (hy : y ∈ q.pending) : Disposed s t y .done 2 := by
  refine Issued.calm ?_ k
  rw [routed_changed h]
  refine reroute_disposed (s := configure n c s) ?_ hy
  rw [configure_line, if_pos rfl]
  exact hq

end Sys2Proof.Machine

namespace Sys2Proof.Delivery

open Sys2Proof Sys2Proof.Machine

/-- Settles O28: the steps of R127 in turn, each with what it leaves of the line, its transfers, its records and its frames. -/
theorem setLineReconfigures : Obligations.SetLineReconfigures := by
  unfold Obligations.SetLineReconfigures
  intro s x w n hn he hen hr ha hb
  have hroute : routeChanged ((markTaken x s).line n).cfg (cfgOf w) = true ↔ RouteChanges (s.line n).cfg w := routeChanged_iff hr.link
  have hbusy : routeChanged ((markTaken x s).line n).cfg (cfgOf w) = true → lineBusy (markTaken x s) n = false := fun h =>
    Bool.eq_false_iff.2 fun c => hb (hroute.1 h) (lineBusy_iff.1 c)
  have htake := takeSetLine_reconfigure (x := x) (s := markTaken x s) hn he hen (setLineCheck_accepts hn hr ha hb)
  generalize hd : (if w.warnLead.toNat ≤ 3600000 ∧ w.extension.toNat ≤ 3600000 then Disposition.done else .adjusted) = d at htake ⊢
  have hfin := reconfigureLine_finished (x := x) (d := d) (k := 0) n (cfgOf w) (markTaken x s)
  have hout := finalDisposition_outward x d 0 (reconfigureLine n (cfgOf w) (markTaken x s))
  have hcur : (finalDisposition x d 0 (reconfigureLine n (cfgOf w) (markTaken x s))).order.cursor = x :=
    (finalDisposition_cursor _ _ _ _).trans (reconfigureLine_cursor n _ _)
  have kend := finalDisposition_calm x d 0 (reconfigured_calm n (cfgOf w) (markTaken x s))
  have hwarn := fun i r e => reconfigureLine_warns (s := markTaken x s) (n := n) (c := cfgOf w) (i := i) (r := r) (d := e)
  have hlink : ∀ new : LinkId, new.val = w.link.toNat → new = (cfgOf w).link := fun new h =>
    Fin.ext (h.trans (linkOf_val hr.link).symm)
  have hmoved := repathed_linkMoved (s := markTaken x s) (n := n) (c := cfgOf w) hbusy
  have hpath := reconfigureLine_pathChanged (s := markTaken x s) (n := n) (c := cfgOf w) hbusy
  obtain ⟨ds, honly⟩ := reconfigureLine_only n (cfgOf w) (markTaken x s)
  have hexec := setPressLine_exec (x := x) (w := w) s
  rw [← htake] at hfin hout hcur kend
  generalize takeSetLine x w (markTaken x s) = u at hexec hfin hout hcur kend
  have k := afterTake_calm kend
  have kt : Calm true u (afterTake u) := afterTake_calm (.refl u)
  have hcfg : ((afterTake u).line n).cfg = cfgOf w := ((k.lineKeeps n).cfg).trans (routed_cfg n _ _)
  have hkept : s.TablesSound → s.QueuesSound → (markTaken x s).Kept := fun ht hq =>
    ((markTaken_still x (.refl s)).keeps (.refl s)).kept (hq.kept ht.pages ht.recs)
  refine ⟨afterTake u, hexec, ?_, ?_, fun h => ?_, fun h => ?_, hfin.calm kt, kt.cursor.trans hcur, u, hexec,
    fun i r e hi hl hs hm hdest hkind => ?_, fun new hv hne ht hq => ?_, fun hv ht hq => ?_⟩
  · exact (k.lineKeeps n).enabled.trans ((routed_line_fields n n _ _).2.1.trans hen)
  · rw [hcfg]
    exact cfgOf_configured hr
  · exact k.line_same (Bool.eq_false_iff.2 fun c => h (hroute.1 c))
  · obtain ⟨h1, h2⟩ := k.line_rerouted (hroute.2 h)
    rw [hcfg]
    exact ⟨h1, h2, fun q hq y hy => k.query_disposed (hroute.2 h) hq hy⟩
  · have hdl : u.deadlines = (reconfigureLine n (cfgOf w) (markTaken x s)).deadlines := by
      obtain ⟨o, b, e⟩ := hout
      rw [e]
    rw [hdl]
    exact hwarn i r e hi hl hs hm hdest hkind
  · obtain rfl := hlink new hv
    have hlm := (hmoved (hkept ht hq) hne).outward (modOrder_outward _ s)
      (t := u) (by obtain ⟨o, b, e⟩ := hout; exact ⟨o, b, ds, by rw [e, honly]⟩)
    exact ⟨hlm.queues, hlm.records, hlm.frames⟩
  · have hold : ((markTaken x s).line n).cfg.link = (cfgOf w).link := hlink _ hv
    exact (hpath (hkept ht hq) hold).outward (modOrder_outward _ s) hout

end Sys2Proof.Delivery
end
